-- ==== Sys2Proof/Word.lean ====
section
/-! DEFINITION. Word.lean: the word types of the JS7340. R179: every word a master exchanges with the part is 16
bits long, and the longer quantities the part wraps or orders are 32-bit numbers. -/

namespace Sys2Proof

/-- A 16-bit word of a frame, a plan entry, a record or the configuration image (R179). -/
abbrev Word := BitVec 16

/-- A 32-bit quantity: a record number, a seconds count, a checkpoint sequence number (R179). -/
abbrev Word32 := BitVec 32

end Sys2Proof
end

