-- ==== Sys2Proof/Syntax.lean ====
section
/-! DEFINITION. Syntax.lean: the commands of the JS7340, one constructor of Instr per row of spec/opcode_table.json, in
the table's order. A request carries its frame (the port it arrives on, and how many whole words the frame clocks, R161), its 8-bit argument
and its operand words as the frame brings them (Table 10-2); a field event carries what the field brings with it (a raw level, the converted samples). -/

namespace Sys2Proof

/-- The three master ports: V (vehicle controller), P (pack controller), F (fleet unit). -/
inductive PortId where
  | V
  | P
  | F
  deriving DecidableEq, Repr

/-- The two plug-detect contacts PD-A and PD-B (R19). -/
inductive Contact where
  | A
  | B
  deriving DecidableEq, Repr

/-- How a frame is malformed (R161): it ended inside the command word, or before its last operand word, or it began less
than 1 µs after the frame before it. `len` is how many whole words it clocked. -/
inductive FrameCut where
  | commandWord
  | operands (len : Nat)
  | tooSoon (len : Nat)
  deriving DecidableEq, Repr

/-- The frame that a request arrives in: the port it came on, and how many whole words it clocked (R161). -/
structure Frame where
  port : PortId
  len : Nat
  deriving DecidableEq, Repr

/-- How far a non-volatile write had got when the supply or a power-on reset cut it off (R152, R153, R174, Table 9-4): `words n`
inside the words, with n of them stored; `written` after the words; `marked` after the slot's mark too; `voided a b`
inside the voiding, with area A voided when a and area B when b. -/
inductive WriteCut where
  | words (n : Nat)
  | written
  | marked
  | voided (a b : Bool)
  deriving DecidableEq, Repr

/-- What a power-on reset samples: the two straps (R170), the raw plug contacts (R19), the two stage lines (R59) and
the ports' reset lines (R178). -/
structure Pins where
  threePhases : Bool
  commission : Bool
  contactA : Bool
  contactB : Bool
  stageReady : Bool
  stageFault : Bool
  resetV : Bool
  resetP : Bool
  resetF : Bool
  deriving DecidableEq, Repr

/-- One reading of a zone's thermistor: none for an open or short circuit, else 0.1 °C before the clamp (R77). -/
abbrev Thermistor := Option Int

/-- A command: one constructor per row of spec/opcode_table.json. -/
inductive Instr where
  | powerOnReset (pins : Pins) (cut : WriteCut)
  | portReset (port : PortId)
  | portResetRelease (port : PortId)
  | frameIncomplete (port : PortId) (how : FrameCut)
  | unknownCommand (frame : Frame) (code : BitVec 8)
  | noOperation (frame : Frame)
  | setReadPointer (frame : Frame) (arg : BitVec 8)
  | setWritePointer (frame : Frame) (arg : BitVec 8)
  | readWord (frame : Frame)
  | writeWord (frame : Frame) (w : Word)
  | getPointer (frame : Frame)
  | protectWindow (frame : Frame) (arg : BitVec 8)
  | closeWindow (frame : Frame) (arg : BitVec 8)
  | readNotices (frame : Frame)
  | ackNotices (frame : Frame) (w : Word)
  | departureHold (frame : Frame)
  | releaseHold (frame : Frame)
  | clearLockout (frame : Frame)
  | rest (frame : Frame) (w : Word)
  | endRest (frame : Frame)
  | clearZone (frame : Frame) (arg : BitVec 8)
  | authorize (frame : Frame) (arg : BitVec 8) (t0 t1 t2 t3 : Word)
  | endSession (frame : Frame)
  | setTime (frame : Frame) (hi lo : Word)
  | lockTariff (frame : Frame)
  | unlockTariff (frame : Frame)
  | collect (frame : Frame)
  | readRecordWord (frame : Frame)
  | release (frame : Frame) (hi lo : Word)
  | imageRead (frame : Frame) (arg : BitVec 8)
  | imageWrite (frame : Frame) (arg : BitVec 8) (w : Word)
  | imageStore (frame : Frame)
  | plugContactChange (contact : Contact) (engaged : Bool)
  | debounceExpiry (a b : Bool)
  | pilotPeriod (periodNs highNs : Nat)
  | pilotSilenceTimeout
  | pilotHoldExpiry
  | phaseWindowEnd (u1 u2 u3 : Nat)
  | allocationInterval
  | changeoverExpiry
  | acceptanceFreshnessExpiry
  | stageReadyChange (asserted : Bool)
  | stageFaultChange (asserted : Bool)
  | stageRecoveryExpiry
  | holdTimerExpiry
  | restTimerExpiry
  | grantRecordApply
  | checkPulseStart
  | checkPulseEnd (current : Nat)
  | heaterConversion (readings : Vector Thermistor 8)
  | slotTimerExpiry
  | busConversion (up un : Nat)
  | deadBusExpiry
  | periodExpiry
  | measurementPhaseEnd
  | bridgeSample (up un : Nat)
  | meterInterval (p1 p2 p3 : Int)
  | tariffLockExpiry
  | checkpointTimerExpiry
  | checkpointWriteComplete
  | finalWriteComplete
  | imageWriteComplete
  | attentionPulseEnd (port : PortId)
  | powerLoss (cut : WriteCut)
  | pilotEdge
  deriving DecidableEq, Repr

end Sys2Proof
end

