-- ==== Sys2Proof/Decode.lean ====
section
/-! DEFINITION. Decode.lean: the table's words, and the frames of the ports. No row of spec/opcode_table.json gives bits, so no
word of the table spells a command; what does have words is the frame of a request (R161 to R163, R180, Table 12-1). -/

namespace Sys2Proof

/-- The command that a word of the opcode table spells. No row of the table carries bits, so no word spells one. -/
def decodeTableWord (_nbits _w : Nat) : Option Instr := none

/-! ## Frames (R161, R162, R180, Table 12-1) -/

/-- A command word: the code in bits 15–8, the argument in bits 7–0 (R180). -/
def commandWord (code : Nat) (arg : BitVec 8) : Word := BitVec.ofNat 8 code ++ arg

def codeOf (w : Word) : Nat := (w.extractLsb' 8 8).toNat

def argOf (w : Word) : BitVec 8 := w.extractLsb' 0 8

/-- The words that the part sends in a frame of len words: those it has to send, as far as the frame clocks them, and 0 in each
further one (R161, R162). -/
def clocked (len : Nat) (ws : List Word) : List Word := (ws ++ List.replicate len 0).take len

/-- The codes of Table 12-1. -/
def definedCodes : List Nat :=
  [0x00, 0x01, 0x02, 0x03, 0x04, 0x05, 0x06, 0x07, 0x08, 0x09, 0x20, 0x21, 0x22, 0x30, 0x31, 0x32,
    0x40, 0x41, 0x42, 0x43, 0x44, 0x45, 0x46, 0x47, 0x60, 0x61, 0x62]

/-- A request that the port admits needs all its operand words; of one that it does not admit the rest of the frame is
ignored (R161). -/
def withOperands (p : PortId) (admitted : Bool) (n : Nat) (ops : List Word) (i : Instr) : Instr :=
  if admitted && decide (ops.length < n) then .frameIncomplete p (.operands (ops.length + 1)) else i

/-- The command that a frame of whole words on port p is; of the words past the last operand only the number counts, and a
missing operand of a request that the port does not admit reads as 0 (R161 to R163). -/
def frameCommand (p : PortId) (commission : Bool) : List Word → Instr
  | [] => .frameIncomplete p .commandWord
  | cw :: ops =>
    let f : Frame := ⟨p, ops.length + 1⟩
    let arg := argOf cw
    let op (i : Nat) : Word := ops.getD i 0
    match codeOf cw with
    | 0x00 => .noOperation f
    | 0x01 => .setReadPointer f arg
    | 0x02 => .setWritePointer f arg
    | 0x03 => .readWord f
    | 0x04 => withOperands p true 1 ops (.writeWord f (op 0))
    | 0x05 => .getPointer f
    | 0x06 => .protectWindow f arg
    | 0x07 => .closeWindow f arg
    | 0x08 => .readNotices f
    | 0x09 => withOperands p true 1 ops (.ackNotices f (op 0))
    | 0x20 => .departureHold f
    | 0x21 => .releaseHold f
    | 0x22 => .clearLockout f
    | 0x30 => withOperands p (p == .P) 1 ops (.rest f (op 0))
    | 0x31 => .endRest f
    | 0x32 => .clearZone f arg
    | 0x40 =>
      if arg = 1 then withOperands p (p == .F) 4 ops (.authorize f arg (op 0) (op 1) (op 2) (op 3))
      else .authorize f arg 0 0 0 0
    | 0x41 => .endSession f
    | 0x42 => withOperands p (p == .F) 2 ops (.setTime f (op 0) (op 1))
    | 0x43 => .lockTariff f
    | 0x44 => .unlockTariff f
    | 0x45 => .collect f
    | 0x46 => .readRecordWord f
    | 0x47 => withOperands p (p == .F) 2 ops (.release f (op 0) (op 1))
    | 0x60 => .imageRead f arg
    | 0x61 => withOperands p (p == .F && commission) 1 ops (.imageWrite f arg (op 0))
    | 0x62 => .imageStore f
    | code => .unknownCommand f (BitVec.ofNat 8 code)

/-- The master's words of a request, up to its last operand; none for a command that is not a whole frame (Table 10-2,
R180). -/
def frameWords : Instr → Option (List Word)
  | .noOperation _ => some [commandWord 0x00 0]
  | .setReadPointer _ arg => some [commandWord 0x01 arg]
  | .setWritePointer _ arg => some [commandWord 0x02 arg]
  | .readWord _ => some [commandWord 0x03 0]
  | .writeWord _ w => some [commandWord 0x04 0, w]
  | .getPointer _ => some [commandWord 0x05 0]
  | .protectWindow _ arg => some [commandWord 0x06 arg]
  | .closeWindow _ arg => some [commandWord 0x07 arg]
  | .readNotices _ => some [commandWord 0x08 0]
  | .ackNotices _ w => some [commandWord 0x09 0, w]
  | .departureHold _ => some [commandWord 0x20 0]
  | .releaseHold _ => some [commandWord 0x21 0]
  | .clearLockout _ => some [commandWord 0x22 0]
  | .rest _ w => some [commandWord 0x30 0, w]
  | .endRest _ => some [commandWord 0x31 0]
  | .clearZone _ arg => some [commandWord 0x32 arg]
  | .authorize _ arg t0 t1 t2 t3 =>
    some (if arg = 1 then [commandWord 0x40 arg, t0, t1, t2, t3] else [commandWord 0x40 arg])
  | .endSession _ => some [commandWord 0x41 0]
  | .setTime _ hi lo => some [commandWord 0x42 0, hi, lo]
  | .lockTariff _ => some [commandWord 0x43 0]
  | .unlockTariff _ => some [commandWord 0x44 0]
  | .collect _ => some [commandWord 0x45 0]
  | .readRecordWord _ => some [commandWord 0x46 0]
  | .release _ hi lo => some [commandWord 0x47 0, hi, lo]
  | .imageRead _ arg => some [commandWord 0x60 arg]
  | .imageWrite _ arg w => some [commandWord 0x61 arg, w]
  | .imageStore _ => some [commandWord 0x62 0]
  | .unknownCommand _ code => if code.toNat ∈ definedCodes then none else some [commandWord code.toNat 0]
  | .powerOnReset .. | .portReset _ | .portResetRelease _ | .frameIncomplete .. | .plugContactChange .. | .debounceExpiry ..
  | .pilotPeriod .. | .pilotSilenceTimeout | .pilotHoldExpiry | .phaseWindowEnd .. | .allocationInterval | .changeoverExpiry
  | .acceptanceFreshnessExpiry | .stageReadyChange _ | .stageFaultChange _ | .stageRecoveryExpiry | .holdTimerExpiry
  | .restTimerExpiry | .grantRecordApply | .checkPulseStart | .checkPulseEnd _ | .heaterConversion _ | .slotTimerExpiry
  | .busConversion .. | .deadBusExpiry | .periodExpiry | .measurementPhaseEnd | .bridgeSample .. | .meterInterval ..
  | .tariffLockExpiry | .checkpointTimerExpiry | .checkpointWriteComplete | .finalWriteComplete | .imageWriteComplete
  | .attentionPulseEnd _ | .powerLoss _ | .pilotEdge => none

/-- How many words the frame of a request clocks (R161). -/
def frameLength : Instr → Nat
  | .unknownCommand f .. | .noOperation f .. | .setReadPointer f .. | .setWritePointer f ..
  | .readWord f .. | .writeWord f .. | .getPointer f .. | .protectWindow f .. | .closeWindow f ..
  | .readNotices f .. | .ackNotices f .. | .departureHold f .. | .releaseHold f ..
  | .clearLockout f .. | .rest f .. | .endRest f .. | .clearZone f .. | .authorize f ..
  | .endSession f .. | .setTime f .. | .lockTariff f .. | .unlockTariff f .. | .collect f ..
  | .readRecordWord f .. | .release f .. | .imageRead f .. | .imageWrite f ..
  | .imageStore f .. => f.len
  | .frameIncomplete ..
  | .powerOnReset .. | .portReset _ | .portResetRelease _ | .plugContactChange .. | .debounceExpiry ..
  | .pilotPeriod .. | .pilotSilenceTimeout | .pilotHoldExpiry | .phaseWindowEnd .. | .allocationInterval | .changeoverExpiry
  | .acceptanceFreshnessExpiry | .stageReadyChange _ | .stageFaultChange _ | .stageRecoveryExpiry | .holdTimerExpiry
  | .restTimerExpiry | .grantRecordApply | .checkPulseStart | .checkPulseEnd _ | .heaterConversion _ | .slotTimerExpiry
  | .busConversion .. | .deadBusExpiry | .periodExpiry | .measurementPhaseEnd | .bridgeSample .. | .meterInterval ..
  | .tariffLockExpiry | .checkpointTimerExpiry | .checkpointWriteComplete | .finalWriteComplete | .imageWriteComplete
  | .attentionPulseEnd _ | .powerLoss _ | .pilotEdge => 0

/-- The port a request arrives on (Table 10-2). -/
def requestPort : Instr → Option PortId
  | .frameIncomplete p _ => some p
  | .unknownCommand f .. | .noOperation f .. | .setReadPointer f .. | .setWritePointer f .. | .readWord f ..
  | .writeWord f .. | .getPointer f .. | .protectWindow f .. | .closeWindow f .. | .readNotices f .. | .ackNotices f ..
  | .departureHold f .. | .releaseHold f .. | .clearLockout f .. | .rest f .. | .endRest f .. | .clearZone f .. | .authorize f ..
  | .endSession f .. | .setTime f .. | .lockTariff f .. | .unlockTariff f .. | .collect f .. | .readRecordWord f .. | .release f ..
  | .imageRead f .. | .imageWrite f .. | .imageStore f .. => some f.port
  | .powerOnReset .. | .portReset _ | .portResetRelease _ | .plugContactChange .. | .debounceExpiry ..
  | .pilotPeriod .. | .pilotSilenceTimeout | .pilotHoldExpiry | .phaseWindowEnd .. | .allocationInterval | .changeoverExpiry
  | .acceptanceFreshnessExpiry | .stageReadyChange _ | .stageFaultChange _ | .stageRecoveryExpiry | .holdTimerExpiry
  | .restTimerExpiry | .grantRecordApply | .checkPulseStart | .checkPulseEnd _ | .heaterConversion _ | .slotTimerExpiry
  | .busConversion .. | .deadBusExpiry | .periodExpiry | .measurementPhaseEnd | .bridgeSample .. | .meterInterval ..
  | .tariffLockExpiry | .checkpointTimerExpiry | .checkpointWriteComplete | .finalWriteComplete | .imageWriteComplete
  | .attentionPulseEnd _ | .powerLoss _ | .pilotEdge => none

/-- The ports whose role admits a request (Table 10-2, R163). -/
def requestRoles : Instr → List PortId
  | .departureHold .. | .releaseHold .. | .clearLockout .. => [.V]
  | .rest .. | .endRest .. | .clearZone .. => [.P]
  | .authorize .. | .endSession .. | .setTime .. | .lockTariff .. | .unlockTariff .. | .collect .. | .readRecordWord ..
  | .release .. | .imageRead .. | .imageWrite .. | .imageStore .. => [.F]
  | .frameIncomplete .. | .unknownCommand .. | .noOperation .. | .setReadPointer .. | .setWritePointer .. | .readWord ..
  | .writeWord .. | .getPointer .. | .protectWindow .. | .closeWindow .. | .readNotices .. | .ackNotices .. => [.V, .P, .F]
  | .powerOnReset .. | .portReset _ | .portResetRelease _ | .plugContactChange .. | .debounceExpiry ..
  | .pilotPeriod .. | .pilotSilenceTimeout | .pilotHoldExpiry | .phaseWindowEnd .. | .allocationInterval | .changeoverExpiry
  | .acceptanceFreshnessExpiry | .stageReadyChange _ | .stageFaultChange _ | .stageRecoveryExpiry | .holdTimerExpiry
  | .restTimerExpiry | .grantRecordApply | .checkPulseStart | .checkPulseEnd _ | .heaterConversion _ | .slotTimerExpiry
  | .busConversion .. | .deadBusExpiry | .periodExpiry | .measurementPhaseEnd | .bridgeSample .. | .meterInterval ..
  | .tariffLockExpiry | .checkpointTimerExpiry | .checkpointWriteComplete | .finalWriteComplete | .imageWriteComplete
  | .attentionPulseEnd _ | .powerLoss _ | .pilotEdge => []

end Sys2Proof
end

