-- ==== Sys2Proof/Config.lean ====
section
/-! DEFINITION. Config.lean: the constants the spec fixes for every JS7340, and the one free value: the words that a
cut-off non-volatile write leaves behind. -/

namespace Sys2Proof.Config

/-- A FREE VALUE. The n-th word that a cut-off non-volatile write leaves where its own word had not yet been stored.
The spec says only that the memory is "left partly written" (POWER_LOSS, R155, R174); log entry 3. -/
opaque freeWord : Nat → BitVec 16

/-- P_hw with the PHASES strap at three phases and at one, in W (R5). -/
def pHw (threePhases : Bool) : Nat := if threePhases then 22000 else 7400

/-- Built-in trims, used when the image fails its CRC, in kΩ (R99, R172). -/
def builtInRref : Nat := 400
def builtInRdiv : Nat := 4000

/-- A meter gain of unity (R183). -/
def unityGain : Word := 32768#16

/-- 50.0 V, the least U_bus of an energized bus, in 0.1 V (R100). -/
def energizedAt : Nat := 500

/-- A phase is present at 100.0 V or more, in 0.1 V (R26). -/
def phasePresentAt : Nat := 1000

/-- One watt-hour in units of 0.1 J (R130). -/
def unitsPerWh : Nat := 36000

/-- STORE_LOW is raised when the uncollected count rises to this or more (R154). -/
def storeLowAt : Nat := 56

/-! Timer periods, in ms. -/
def debounceMs : Nat := 100
def pilotHoldMs : Nat := 200
def pilotSilenceMs : Nat := 200
def freshnessMs : Nat := 2000
def changeoverMs : Nat := 500
def recoveryMs : Nat := 5000
def holdMs : Nat := 1800000
def slotMs : Nat := 2000
def settleMs : Nat := 400
def sampleMs : Nat := 100
def deadBusMs : Nat := 60000
def tariffLockMs : Nat := 5000
def checkpointMs : Nat := 60000

end Sys2Proof.Config
end

