-- ==== Sys2Proof/Machine/State.lean ====
section
/-! DEFINITION. Machine/State.lean: everything the JS7340 holds, block by block, as plain data, and the state after a
power-on reset. Amounts are in the units of 00_scope.md (1 W, 0.1 V, 0.1 A, 0.1 °C, 0.1 J, 1 Wh). -/

namespace Sys2Proof.Machine

/-! ## Faults and refusals -/

/-- The reasons the part could stop with a fault. The spec names none: it answers a request it turns away with a status,
and an event that finds nothing to do changes nothing. The type is empty, so no command ever faults (safe). -/
inductive Fault where
  deriving DecidableEq, Repr

/-- The reasons a command could have no meaning here. -/
inductive Refusal where
  /-- Raised by exec alone, for a command whose meaning is not written yet. No arm raises it (safe). -/
  | notModelled (mnemonic : String)
  deriving DecidableEq, Repr

/-! ## Shared small types -/

/-- A timer: stopped, or running since it was last started with the given duration in ms. How much of it has elapsed is
the sender's (log entry 4). -/
inductive Timer where
  | stopped
  | running (ms : Nat)
  deriving DecidableEq, Repr

/-- A plan entry: three words (R1). -/
structure Entry where
  w0 : Word
  w1 : Word
  w2 : Word
  deriving DecidableEq, Repr

/-- An account tag: eight bytes in four words (R179). -/
structure Tag where
  w0 : Word
  w1 : Word
  w2 : Word
  w3 : Word
  deriving DecidableEq, Repr

/-- The notice kinds (Table 11-1). -/
inductive Notice where
  | plugChange
  | pilotChange
  | sessionChange
  | recordReady
  | storeLow
  | gradeChange
  | lockoutChange
  | holdChange
  | heaterFault
  | planApplied
  | tariffLockBroken
  | stageFault
  | acceptanceStale
  | restart
  deriving DecidableEq, Repr

/-- The status codes (Table 10-1). -/
inductive Status where
  | ok
  | okClamped
  | sequence
  | outOfWindow
  | readOnly
  | notPermitted
  | lockRequired
  | busy
  | noSession
  | storeFull
  | noRecord
  | denied
  | unknownCommand
  deriving DecidableEq, Repr

/-! ## Ports and notices (chapters 10 and 11) -/

/-- One of a port's four windows (R167). -/
structure Window where
  start : BitVec 6
  stop : BitVec 6
  offset : BitVec 6
  protect : Bool
  enable : Bool
  deriving DecidableEq, Repr

inductive Direction where
  | none
  | read
  | write
  deriving DecidableEq, Repr

inductive Snapshot where
  | none
  | mapped
  | unmapped
  deriving DecidableEq, Repr

inductive ClearMode where
  | readClears
  | ackClears
  deriving DecidableEq, Repr

inductive LineMode where
  | level
  | pulse
  deriving DecidableEq, Repr

/-- One master port with its share of the notice unit (R161, R164, R167, R175, R177). -/
structure PortState where
  lastStatus : Status
  pointer : BitVec 6
  direction : Direction
  sub : Fin 3
  staging : Entry
  staged : Nat
  holding : Entry
  snapshot : Snapshot
  windows : Vector Window 4
  imageWindows : Vector Window 4
  resetAsserted : Bool
  restartOwed : Bool
  pending : Word
  mask : Word
  clearMode : ClearMode
  lineMode : LineMode
  attention : Bool
  pulsing : Bool
  returned : List Word
  deriving DecidableEq, Repr

/-- Port F's record buffer: one record copy with a read index (R157). -/
structure RecordCopy where
  number : Word32
  words : List Word
  index : Nat
  deriving DecidableEq, Repr

/-! ## Session controller (chapter 2) -/

inductive Plug where
  | unplugged
  | partly
  | plugged
  deriving DecidableEq, Repr

inductive SessionState where
  | none
  | plugged
  | opened
  | closing
  deriving DecidableEq, Repr

inductive CloseReason where
  | unplug
  | ended
  | isolation
  | powerLoss
  deriving DecidableEq, Repr

/-- SES: contacts, plug, session, options (R19, R20, R30 to R36, R22, R31, R33, R17). -/
structure Ses where
  rawA : Bool
  rawB : Bool
  debA : Option Bool
  debB : Option Bool
  timerA : Timer
  timerB : Timer
  plug : Plug
  session : SessionState
  tag : Option Tag
  number : Word32
  prices : Vector Word 4
  startTime : Word32
  timeUnknown : Bool
  bandHeld : Bool
  holdWithdrawn : Bool
  closeReason : Option CloseReason
  endTime : Word32
  scopedReset : Bool
  defaultAccount : Bool
  autoOpen : Bool
  imageFault : Bool
  deriving DecidableEq, Repr

/-! ## Supply interface (chapter 2) -/

inductive Pilot where
  | absent
  | offer
  | pause
  | fault
  deriving DecidableEq, Repr

inductive DemandLevel where
  | idle
  | present
  | ready
  deriving DecidableEq, Repr

/-- A withdrawal of READY: none, pending, or pending with a marked OFF record (R29). -/
inductive Withdrawal where
  | none
  | waiting
  | marked
  deriving DecidableEq, Repr

/-- SUP (R23 to R29). `history` is oldest first. `decoded` says that the pilot state and I_pil in force are those of a
decode (R25). -/
structure Sup where
  history : List Nat
  pilot : Pilot
  iPil : Nat
  decoded : Bool
  silenceTimer : Timer
  holdTimer : Timer
  edgeSeen : Bool
  u1 : Nat
  u2 : Nat
  u3 : Nat
  nPh : Nat
  uMin : Nat
  supplyPresent : Bool
  demand : DemandLevel
  withdrawal : Withdrawal
  deriving DecidableEq, Repr

/-! ## Power allocator (chapters 3 and 4) -/

inductive Source where
  | none
  | grid
  | pack
  deriving DecidableEq, Repr

inductive Mode where
  | off
  | charge
  | busSupply
  deriving DecidableEq, Repr

inductive StageState where
  | available
  | notReady
  | faulted
  | recovering
  deriving DecidableEq, Repr

inductive StageCause where
  | none
  | stage
  | ready
  | bus
  deriving DecidableEq, Repr

inductive Hold where
  | none
  | held
  | suspended
  deriving DecidableEq, Repr

inductive QuietWindow where
  | idle
  | waiting
  | granted
  deriving DecidableEq, Repr

/-- What the power-stage link last sent (R57). -/
inductive LinkWord where
  | off
  | charge (iSet uMax : Nat)
  | busSupply (target : Nat)
  deriving DecidableEq, Repr

/-- The grant record (R54). `boundary` marks a boundary selection; `moves` says that the walk moves the turn (R86);
`p` and `round` are the turn position and the completed round that the walk returned (R89). -/
structure GrantRecord where
  seq : Word
  source : Source
  mode : Mode
  b : Nat
  gHeat : Nat
  zones : List (Fin 8 × Nat)
  boundary : Bool
  moves : Bool
  p : Fin 8
  round : Bool
  gAux : Nat
  gChg : Nat
  s : Nat
  iSet : Nat
  target : Nat
  uMax : Nat
  unused : Nat
  hold : Hold
  rest : Bool
  window : Bool
  stage : StageState
  cause : StageCause
  deriving DecidableEq, Repr

/-- ALC (Table 3-2, R8, R57 to R60, R62, R69, R71). The mode in force is `record.mode` and S_prev is `record.s`. The
mirrors 54 to 56 show the record as it stood at their last refresh (R15). -/
structure Alc where
  record : GrantRecord
  changeover : Timer
  fresh : Bool
  freshTimer : Timer
  stageReady : Bool
  stageFault : Bool
  stage : StageState
  recovery : Timer
  cause : StageCause
  hold : Hold
  holdTimer : Timer
  resting : Bool
  restTimer : Timer
  window : QuietWindow
  link : LinkWord
  uBusRead : Nat
  mirror54 : Entry
  mirror55 : Entry
  mirror56 : Entry
  deriving DecidableEq, Repr

/-! ## Heater controller (chapter 5) -/

inductive ZoneFault where
  | open
  | short
  | unstable
  | overtemp
  | leak
  deriving DecidableEq, Repr

/-- What a probed zone returns to, with its dwell count (R96). -/
inductive BeforeProbe where
  | unchecked
  | off
  | dwell (n : Nat)
  deriving DecidableEq, Repr

/-- The zone states, each with what the spec keeps in that state (Table 5-1, R75, R96). -/
inductive ZoneState where
  | unchecked
  | checking
  | off
  | energized
  | dwell (n : Nat)
  | probed (before : BeforeProbe)
  | faulted (kind : ZoneFault)
  deriving DecidableEq, Repr

/-- One zone: state, latest temperature (none is the invalid marker), want flag, rating in use (R75). -/
structure Zone where
  state : ZoneState
  temp : Option Int
  want : Bool
  rating : Nat
  deriving DecidableEq, Repr

inductive Burst where
  | one
  | two
  | four
  | eight
  deriving DecidableEq, Repr

/-- A heating mode (R11). -/
structure HeatingMode where
  burst : Burst
  interleaved : Bool
  sweep : Bool
  start : Fin 8
  dwell : Nat
  mask : BitVec 8
  deriving DecidableEq, Repr

inductive PulseResult where
  | low
  | pass
  | high
  deriving DecidableEq, Repr

/-- The check record of the zone in CHECKING (R82, R83): the expected current, whether the pair is the repeated one, the
first pulse's result, whether a pulse is on, and whether a pulse waits for the end of a quiet window. -/
structure CheckRecord where
  zone : Fin 8
  iExp : Nat
  repeated : Bool
  first : Option PulseResult
  pulseOn : Bool
  waiting : Bool
  deriving DecidableEq, Repr

/-- HTR (R75). `converted` says that a conversion has been made since the power-on reset (R77). `inbox` holds the records
published and not yet applied, oldest first, and `applied` the one last applied (R55, R91; log entry 6). -/
structure Htr where
  zones : Vector Zone 8
  mode : HeatingMode
  pendingMode : Option HeatingMode
  p : Fin 8
  s : Fin 8
  slotTimer : Timer
  boundaryDue : Bool
  energized : List (Fin 8)
  check : Option CheckRecord
  converted : Bool
  inbox : List GrantRecord
  applied : GrantRecord
  deriving DecidableEq, Repr

/-! ## Insulation monitor (chapters 6 and 7) -/

inductive Phase where
  | idle
  | request
  | settleA
  | sampleA
  | settleB
  | sampleB
  deriving DecidableEq, Repr

inductive Purpose where
  | periodic
  | baseline
  | probe
  deriving DecidableEq, Repr

inductive Bridge where
  | opened
  | a
  | b
  deriving DecidableEq, Repr

inductive Grade where
  | unknown
  | good
  | warning
  | fault
  deriving DecidableEq, Repr

/-- The class of a valid result (R111). -/
inductive ResultClass where
  | good
  | warning
  | fault
  deriving DecidableEq, Repr

/-- A valid result (R110, R111): kΩ, Ω/V and the class. -/
structure IsoResult where
  rp : Nat
  rn : Nat
  rIso : Nat
  perVolt : Nat
  cls : ResultClass
  deriving DecidableEq, Repr

inductive Localization where
  | idle
  | baselineWait
  | baseline
  | probing (zone : Fin 8)
  | probeWait
  | doneCulprit
  | doneNone
  deriving DecidableEq, Repr

/-- ISO (Table 6-1, R99, R100, R119). `age` counts 10 ms conversions. `energizedLast` is what the latest conversion found
(R105). -/
structure Iso where
  phase : Phase
  purpose : Option Purpose
  restarts : Nat
  phaseTimer : Timer
  bridge : Bridge
  sumUpA : Nat
  sumUnA : Nat
  countA : Nat
  sumUpB : Nat
  sumUnB : Nat
  countB : Nat
  upA : Nat
  unA : Nat
  upB : Nat
  unB : Nat
  latest : Option IsoResult
  grade : Grade
  candidate : Option ResultClass
  periodTimer : Timer
  period : Nat
  age : Nat
  overdue : Bool
  deadTimer : Timer
  longDead : Bool
  energizedLast : Bool
  uBus : Nat
  rref : Nat
  rdiv : Nat
  lockout : Bool
  localization : Localization
  lastExamined : Option (Fin 8)
  baselineClass : Option ResultClass
  marked : Nat
  deriving DecidableEq, Repr

/-! ## Meter (chapter 8) -/

/-- An account of a session: whole Wh and a residue in 0.1 J (R130). -/
structure Account where
  wh : Nat
  residue : Nat
  deriving DecidableEq, Repr

/-- A band line: band, frozen price, Wh, cost in 10⁻⁷ currency unit (R131). -/
structure BandLine where
  band : Fin 4
  price : Word
  wh : Nat
  cost : Nat
  deriving DecidableEq, Repr

/-- MTR (R114, R126 to R145). `clock` is none while it is unknown (R133). -/
structure Mtr where
  chg : Account
  heat : Account
  aux : Account
  standby : Account
  lines : List BandLine
  recorded : Bool
  minPerVolt : Nat
  worst : Option ResultClass
  unassigned : Account
  clock : Option Word32
  tenths : Nat
  band : Fin 4
  lockHeld : Bool
  lockTimer : Timer
  checkpointTimer : Timer
  gain1 : Word
  gain2 : Word
  gain3 : Word
  deriving DecidableEq, Repr

/-! ## Record store (chapter 9) -/

/-- A slot's mark (Table 9-1). -/
inductive Mark where
  | free
  | reserved (n : Word32)
  | record (n : Word32)
  deriving DecidableEq, Repr

structure Slot where
  mark : Mark
  content : Vector Word 53
  deriving DecidableEq, Repr

inductive AreaId where
  | A
  | B
  deriving DecidableEq, Repr

/-- A checkpoint area: the header, the copy and the area's CRC (R152, R182). -/
structure Area where
  valid : Bool
  number : Word32
  seq : Word32
  length : Word
  copy : List Word
  crc : Word
  deriving DecidableEq, Repr

/-- The copy of the session that a checkpoint request hands over (R144, R182). -/
structure Checkpoint where
  number : Word32
  words : List Word
  deriving DecidableEq, Repr

/-- The writer and the write in flight (Table 9-3, R174). -/
inductive Writer where
  | idle
  | checkpoint (area : AreaId) (seq : Word32) (copy : Checkpoint)
  | final (number : Word32) (words : List Word)
  | image (words : Vector Word 200)
  deriving DecidableEq, Repr

/-- RST: the writer and its queue (R150 to R153, R174). `seq` is the sequence number of the session's latest checkpoint
write, 0 before its first. -/
structure Rst where
  writer : Writer
  waitFinal : Option (Word32 × List Word)
  waitCheckpoint : Option Checkpoint
  waitImage : Option (Vector Word 200)
  nextArea : AreaId
  seq : Word32
  deriving DecidableEq, Repr

/-- The non-volatile memory: slot table, record-number counter, checkpoint areas, configuration image (R146, R147, R152,
R171). -/
structure Nv where
  slots : Vector Slot 64
  counter : Word32
  areaA : Area
  areaB : Area
  image : Vector Word 200
  deriving DecidableEq, Repr

/-! ## The whole part -/

structure State where
  powered : Bool
  threePhases : Bool
  commission : Bool
  plan : Vector Entry 53
  planDefaults : Vector Entry 4
  portV : PortState
  portP : PortState
  portF : PortState
  recordBuffer : Option RecordCopy
  imageBuffer : Option (Vector Word 200)
  ses : Ses
  sup : Sup
  alc : Alc
  htr : Htr
  iso : Iso
  mtr : Mtr
  rst : Rst
  nv : Nv
  free : Nat
  pending : List Instr
  deriving DecidableEq, Repr

/-! ## Named updates -/

def State.port (s : State) : PortId → PortState
  | .V => s.portV
  | .P => s.portP
  | .F => s.portF

def State.setPort (s : State) (p : PortId) (x : PortState) : State :=
  match p with
  | .V => { s with portV := x }
  | .P => { s with portP := x }
  | .F => { s with portF := x }

def State.setPlan (s : State) (x : Vector Entry 53) : State := { s with plan := x }
def State.setRecordBuffer (s : State) (x : Option RecordCopy) : State := { s with recordBuffer := x }
def State.setImageBuffer (s : State) (x : Option (Vector Word 200)) : State := { s with imageBuffer := x }
def State.setSes (s : State) (x : Ses) : State := { s with ses := x }
def State.setSup (s : State) (x : Sup) : State := { s with sup := x }
def State.setAlc (s : State) (x : Alc) : State := { s with alc := x }
def State.setHtr (s : State) (x : Htr) : State := { s with htr := x }
def State.setIso (s : State) (x : Iso) : State := { s with iso := x }
def State.setMtr (s : State) (x : Mtr) : State := { s with mtr := x }
def State.setRst (s : State) (x : Rst) : State := { s with rst := x }
def State.setNv (s : State) (x : Nv) : State := { s with nv := x }
def State.setPending (s : State) (x : List Instr) : State := { s with pending := x }

/-! ## Reset values -/

def Entry.zero : Entry := ⟨0, 0, 0⟩

/-- The reset record: sequence number 0, mode OFF, source NONE, every amount 0 (R39). -/
def GrantRecord.reset : GrantRecord where
  seq := 0
  source := .none
  mode := .off
  b := 0
  gHeat := 0
  zones := []
  boundary := false
  moves := false
  p := 0
  round := false
  gAux := 0
  gChg := 0
  s := 0
  iSet := 0
  target := 0
  uMax := 0
  unused := 0
  hold := .none
  rest := false
  window := false
  stage := .notReady
  cause := .none

/-- A closed built-in window. R172 says of it only that it is closed; its start, stop and offset 0 and its clear protect flag are a DESIGN
CHOICE (log entry 40). -/
def Window.closed : Window := ⟨0, 0, 0, false, false⟩

/-- The built-in windows: local 16–26 onto entries 53–63, protected; windows 1–3 closed (R172; log entry 40). -/
def builtInWindows : Vector Window 4 :=
  #v[⟨16, 26, 37, true, true⟩, .closed, .closed, .closed]

/-- The built-in defaults of entries 0–52 (Table 1-3). -/
def builtInPlan : Vector Entry 53 :=
  (#v[⟨1, 0, 6400⟩, ⟨2, 1000, 10000⟩, ⟨3, 1500, 22000⟩, ⟨0, 930, 1000⟩, ⟨0, 0, 0⟩, ⟨0, 0, 0⟩, ⟨0, 3600, 0⟩,
    ⟨600, 150, 10⟩, ⟨0x1008, 0x00FF, 0⟩] : Vector Entry 9)
  ++ (Vector.replicate 8 ⟨150, 20, 0⟩ : Vector Entry 8) ++ (Vector.replicate 36 ⟨0, 0, 0⟩ : Vector Entry 36)

/-- A port after power-on reset with the built-in settings and its reset line released; RESTART is pending and the line is
high (R164, R172, R178). -/
def PortState.reset : PortState where
  lastStatus := .ok
  pointer := 0
  direction := .none
  sub := 0
  staging := .zero
  staged := 0
  holding := .zero
  snapshot := .none
  windows := builtInWindows
  imageWindows := builtInWindows
  resetAsserted := false
  restartOwed := false
  pending := 0x2000
  mask := 0x3FFF
  clearMode := .readClears
  lineMode := .level
  attention := true
  pulsing := false
  returned := []

def Ses.reset : Ses where
  rawA := false
  rawB := false
  debA := none
  debB := none
  timerA := .running Config.debounceMs
  timerB := .running Config.debounceMs
  plug := .unplugged
  session := .none
  tag := none
  number := 0
  prices := Vector.replicate 4 0
  startTime := 0
  timeUnknown := false
  bandHeld := false
  holdWithdrawn := false
  closeReason := none
  endTime := 0
  scopedReset := false
  defaultAccount := false
  autoOpen := false
  imageFault := true

def Sup.reset : Sup where
  history := []
  pilot := .absent
  iPil := 0
  decoded := false
  silenceTimer := .stopped
  holdTimer := .stopped
  edgeSeen := false
  u1 := 0
  u2 := 0
  u3 := 0
  nPh := 0
  uMin := 0
  supplyPresent := false
  demand := .idle
  withdrawal := .none

/-- ALC after power-on reset with READY withdrawn and FAULT clear (Table 3-2, R18, R59). -/
def Alc.reset : Alc where
  record := .reset
  changeover := .stopped
  fresh := true
  freshTimer := .stopped
  stageReady := false
  stageFault := false
  stage := .notReady
  recovery := .stopped
  cause := .none
  hold := .none
  holdTimer := .stopped
  resting := false
  restTimer := .stopped
  window := .idle
  link := .off
  uBusRead := 0
  mirror54 := ⟨0x0010, 0, 0⟩
  mirror55 := .zero
  mirror56 := .zero

/-- The heating mode of the built-in entry 8 (Table 1-3). -/
def HeatingMode.builtIn : HeatingMode := ⟨.eight, false, false, 0, 1, 0xFF⟩

/-- A zone after power-on reset (R75). -/
def Zone.reset (rating : Nat) : Zone := ⟨.unchecked, none, false, rating⟩

def Htr.reset : Htr where
  zones := Vector.replicate 8 (Zone.reset 0)
  mode := .builtIn
  pendingMode := none
  p := 0
  s := 0
  slotTimer := .stopped
  boundaryDue := true
  energized := []
  check := none
  converted := false
  inbox := []
  applied := .reset

/-- ISO after power-on reset with the built-in trims and period (Table 6-1, R99, R119). -/
def Iso.reset : Iso where
  phase := .idle
  purpose := none
  restarts := 0
  phaseTimer := .stopped
  bridge := .opened
  sumUpA := 0
  sumUnA := 0
  countA := 0
  sumUpB := 0
  sumUnB := 0
  countB := 0
  upA := 0
  unA := 0
  upB := 0
  unB := 0
  latest := none
  grade := .unknown
  candidate := none
  periodTimer := .running 10000
  period := 10
  age := 0
  overdue := false
  deadTimer := .stopped
  longDead := true
  energizedLast := false
  uBus := 0
  rref := Config.builtInRref
  rdiv := Config.builtInRdiv
  lockout := false
  localization := .idle
  lastExamined := none
  baselineClass := none
  marked := 0

def Account.zero : Account := ⟨0, 0⟩

def Mtr.reset : Mtr where
  chg := .zero
  heat := .zero
  aux := .zero
  standby := .zero
  lines := []
  recorded := false
  minPerVolt := 65535
  worst := none
  unassigned := .zero
  clock := none
  tenths := 0
  band := 0
  lockHeld := false
  lockTimer := .stopped
  checkpointTimer := .stopped
  gain1 := Config.unityGain
  gain2 := Config.unityGain
  gain3 := Config.unityGain

def Rst.reset : Rst where
  writer := .idle
  waitFinal := none
  waitCheckpoint := none
  waitImage := none
  nextArea := .A
  seq := 0

/-- A void checkpoint area (R152). -/
def Area.void : Area := ⟨false, 0, 0, 0, [], 0⟩

/-- The non-volatile memory of a part as it leaves manufacture: counter 1 and every slot FREE (R147). The spec gives no
image for it: the blank image of zero words, whose CRC fails (log entry 2). -/
def Nv.fresh : Nv where
  slots := Vector.replicate 64 ⟨.free, Vector.replicate 53 0⟩
  counter := 1
  areaA := .void
  areaB := .void
  image := Vector.replicate 200 0

/-- The part right after a power-on reset of a fresh part with no image: PHASES at three phases, COMMISSION low, the plug out,
the stage lines low, every port's reset line released (log entry 2). -/
def State.reset : State where
  powered := true
  threePhases := true
  commission := false
  plan := builtInPlan
  planDefaults := #v[⟨1, 0, 6400⟩, ⟨2, 1000, 10000⟩, ⟨3, 1500, 22000⟩, ⟨0, 930, 1000⟩]
  portV := .reset
  portP := .reset
  portF := .reset
  recordBuffer := none
  imageBuffer := none
  ses := .reset
  sup := .reset
  alc := .reset
  htr := .reset
  iso := .reset
  mtr := .reset
  rst := .reset
  nv := .fresh
  free := 0
  pending := []

end Sys2Proof.Machine
end

