-- ==== Sys2Proof/Machine/Operands.lean ====
section
/-! DEFINITION. Machine/Operands.lean: the operand forms of the ports (chapter 12): bit fields, 32-bit operands, checked
arguments, window words, and the fields of the plan entries at the places Table 12-4 gives them. -/

namespace Sys2Proof.Machine

/-! ## Bit fields and long quantities -/

/-- The bit field of w that starts at bit `lo` and is `len` bits wide. -/
def field (w : Word) (lo len : Nat) : Nat := w.toNat / 2 ^ lo % 2 ^ len

/-- Flag bit i of w (R179). -/
def flag (w : Word) (i : Nat) : Bool := w.getLsbD i

/-- A flag as bit i of a word (R179). -/
def flagAt (b : Bool) (i : Nat) : Word := if b then 1#16 <<< i else 0

/-- A number as a word field that starts at bit i. -/
def fieldAt (n i : Nat) : Word := BitVec.ofNat 16 (n * 2 ^ i)

/-- A number as one word (R179). -/
def word (n : Nat) : Word := BitVec.ofNat 16 n

/-- A 32-bit operand, most significant word first (R179). -/
def join32 (hi lo : Word) : Word32 := hi ++ lo

def hiWord (x : Word32) : Word := x.extractLsb' 16 16
def loWord (x : Word32) : Word := x.extractLsb' 0 16

/-- A 32-bit quantity in two words, most significant first (R179). -/
def words32 (n : Nat) : List Word := [word (n / 65536), word n]

/-- A 48-bit quantity in three words, most significant first (R179). -/
def words48 (n : Nat) : List Word := [word (n / 4294967296), word (n / 65536), word n]

/-- n clamped to lo–hi (00_scope.md, Arithmetic). -/
def clampTo (lo hi n : Nat) : Nat := max lo (min hi n)

/-! ## Checked arguments -/

/-- The argument of SET READ POINTER and SET WRITE POINTER: a local number 0–63 (R164). -/
def argLocal (a : BitVec 8) : Option (BitVec 6) := if a.toNat ≤ 63 then some (a.setWidth 6) else none

/-- The argument of PROTECT WINDOW and CLOSE WINDOW: a window 0–3 (R168). -/
def argWindow (a : BitVec 8) : Option (Fin 4) := if h : a.toNat < 4 then some ⟨a.toNat, h⟩ else none

/-- The argument of CLEAR ZONE: a zone 0–7 (R97). -/
def argZone (a : BitVec 8) : Option (Fin 8) := if h : a.toNat < 8 then some ⟨a.toNat, h⟩ else none

/-- The argument of IMAGE READ and IMAGE WRITE: an index 0–199 (R173). -/
def argImage (a : BitVec 8) : Option (Fin 200) := if h : a.toNat < 200 then some ⟨a.toNat, h⟩ else none

/-! ## Entry words -/

/-- Word i of an entry (R165). -/
def Entry.word (e : Entry) (i : Fin 3) : Word :=
  match i with
  | 0 => e.w0
  | 1 => e.w1
  | 2 => e.w2

/-- The entry with word i replaced (R166). -/
def Entry.setWord (e : Entry) (i : Fin 3) (w : Word) : Entry :=
  match i with
  | 0 => { e with w0 := w }
  | 1 => { e with w1 := w }
  | 2 => { e with w2 := w }

/-- Stored plan entry n, 0–52 (R1). -/
def State.entry (s : State) (n : Fin 53) : Entry := s.plan[n]

/-- The entry of a zone (R12). -/
def zoneEntry (z : Fin 8) : Fin 53 := ⟨9 + z.val, by omega⟩

/-- The entry of a schedule entry 0–31 (R13, R135). -/
def scheduleEntry (n : Fin 32) : Fin 53 := ⟨17 + n.val, by omega⟩

/-- The entry of a band's price (R14). -/
def priceEntry (b : Fin 4) : Fin 53 := ⟨49 + b.val, by omega⟩

/-- The consumers of the ranked division (R49). -/
inductive Consumer where
  | heat
  | aux
  | chg
  deriving DecidableEq, Repr

def Consumer.entry : Consumer → Fin 53
  | .heat => 0
  | .aux => 1
  | .chg => 2

/-! ## Fields of the plan entries (Table 12-4) -/

def rankOf (s : State) (c : Consumer) : Nat := (s.entry c.entry).w0.toNat
def floorOf (s : State) (c : Consumer) : Nat := (s.entry c.entry).w1.toNat
def capOf (s : State) (c : Consumer) : Nat := (s.entry c.entry).w2.toNat

def siteCap (s : State) : Nat := (s.entry 3).w0.toNat
def efficiency (s : State) : Nat := (s.entry 3).w1.toNat
def rampStep (s : State) : Nat := (s.entry 3).w2.toNat

def auxRequest (s : State) : Nat := (s.entry 4).w0.toNat
def chargeEnable (s : State) : Bool := flag (s.entry 4).w1 0
def heatingPermitted (s : State) : Bool := flag (s.entry 4).w1 1

def iAccEntry (s : State) : Nat := (s.entry 5).w0.toNat
def uMaxEntry (s : State) : Nat := (s.entry 5).w1.toNat
def busLive (s : State) : Bool := flag (s.entry 5).w2 0
def heatingAllowed (s : State) : Bool := flag (s.entry 5).w2 1

def packBudget (s : State) : Nat := (s.entry 6).w0.toNat
def supplyTarget (s : State) : Nat := (s.entry 6).w1.toNat

def warningThreshold (s : State) : Nat := (s.entry 7).w0.toNat
def faultThreshold (s : State) : Nat := (s.entry 7).w1.toNat
def periodEntry (s : State) : Nat := (s.entry 7).w2.toNat

def zoneTarget (s : State) (z : Fin 8) : Int := (s.entry (zoneEntry z)).w0.toInt
def zoneHysteresis (s : State) (z : Fin 8) : Nat := (s.entry (zoneEntry z)).w1.toNat
def zoneRating (s : State) (z : Fin 8) : Nat := (s.entry (zoneEntry z)).w2.toNat

def startSlot (s : State) (n : Fin 32) : Nat := (s.entry (scheduleEntry n)).w0.toNat
def scheduleBand (s : State) (n : Fin 32) : Fin 4 := Fin.ofNat 4 (s.entry (scheduleEntry n)).w1.toNat
def scheduleValid (s : State) (n : Fin 32) : Bool := flag (s.entry (scheduleEntry n)).w2 0

def bandPrice (s : State) (b : Fin 4) : Word := (s.entry (priceEntry b)).w0

/-! ## Heating modes -/

/-- A burst length rounded down to a power of two, at most 8; 0 becomes 1 (R11). -/
def burstOf (n : Nat) : Burst :=
  if n < 2 then .one else if n < 4 then .two else if n < 8 then .four else .eight

/-- L, the number of zones in a block (R11). -/
def Burst.len : Burst → Nat
  | .one => 1
  | .two => 2
  | .four => 4
  | .eight => 8

/-- The heating mode that entry 8 holds (R11, Table 12-4). -/
def heatingModeOf (e : Entry) : HeatingMode where
  burst := burstOf (field e.w0 0 4)
  interleaved := flag e.w0 4
  sweep := flag e.w0 5
  start := Fin.ofNat 8 (field e.w0 8 4)
  dwell := min 3 (field e.w0 12 3)
  mask := e.w1.setWidth 8

/-! ## Window words -/

/-- A window from its two image words (R183). -/
def windowOf (a b : Word) : Window where
  start := a.extractLsb' 0 6
  stop := a.extractLsb' 8 6
  offset := b.extractLsb' 0 6
  protect := flag b 8
  enable := flag b 9

/-! ## Notice sets -/

/-- The bit of a kind in the notice set word (Table 12-3). -/
def Notice.index : Notice → Nat
  | .plugChange => 0
  | .pilotChange => 1
  | .sessionChange => 2
  | .recordReady => 3
  | .storeLow => 4
  | .gradeChange => 5
  | .lockoutChange => 6
  | .holdChange => 7
  | .heaterFault => 8
  | .planApplied => 9
  | .tariffLockBroken => 10
  | .stageFault => 11
  | .acceptanceStale => 12
  | .restart => 13

def Notice.bit (k : Notice) : Word := 1#16 <<< k.index

/-- A port's set holds the kind (R175). -/
def PortState.holds (pt : PortState) (k : Notice) : Bool := flag pt.pending k.index

/-! ## The zones -/

/-- The zones in index order. -/
def zoneIds : List (Fin 8) := [0, 1, 2, 3, 4, 5, 6, 7]

def State.zone (s : State) (z : Fin 8) : Zone := s.htr.zones[z]

/-- The zone is in the mask of the heating mode in force (R11). -/
def inMask (s : State) (z : Fin 8) : Bool := s.htr.mode.mask.getLsbD z.val

end Sys2Proof.Machine
end

