-- ==== Sys2Proof/Machine/Flags.lean ====
section
/-! DEFINITION. Machine/Flags.lean: status codes and the status word (R161, R180), the notice unit's pending sets and
attention lines (R175 to R178), and the mirror entries 53–63 with their coded states (R15, R18, Table 12-4). -/

namespace Sys2Proof.Machine

/-! ## Status -/

/-- Table 12-2. -/
def Status.code : Status → Nat
  | .ok => 0
  | .okClamped => 1
  | .sequence => 2
  | .outOfWindow => 3
  | .readOnly => 4
  | .notPermitted => 5
  | .lockRequired => 6
  | .busy => 7
  | .noSession => 8
  | .storeFull => 9
  | .noRecord => 10
  | .denied => 11
  | .unknownCommand => 12

/-- The status word that opens a frame: the last status in bits 3–0, the notice flag in bit 15 (R161, R180). -/
def statusWord (pt : PortState) : Word := word pt.lastStatus.code ||| flagAt (pt.pending != 0) 15

/-! ## Pending sets and attention lines -/

/-- The port's set becomes w. In LEVEL mode the line is high exactly while the set is not empty (R177). -/
def PortState.withSet (pt : PortState) (w : Word) : PortState :=
  match pt.lineMode with
  | .level => { pt with pending := w, attention := w != 0 }
  | .pulse => { pt with pending := w }

/-- A kind joins the set. In PULSE mode a kind that was not held gives a pulse (R175, R177). -/
def PortState.join (pt : PortState) (k : Notice) : PortState :=
  if pt.holds k then pt
  else match pt.lineMode with
    | .level => pt.withSet (pt.pending ||| k.bit)
    | .pulse => { pt.withSet (pt.pending ||| k.bit) with attention := true, pulsing := true }

/-- A raised kind is offered to a port: it joins when the mask includes it and the reset line is not asserted (R175). -/
def PortState.offer (pt : PortState) (k : Notice) : PortState :=
  if pt.resetAsserted || !flag pt.mask k.index then pt else pt.join k

/-- A block raises a kind: NTU offers it to each port (R175). -/
def raise (k : Notice) (s : State) : State :=
  ((s.setPort .V (s.portV.offer k)).setPort .P (s.portP.offer k)).setPort .F (s.portF.offer k)

/-- The kind is raised when b. -/
def raiseIf (b : Bool) (k : Notice) (s : State) : State := if b then raise k s else s

/-- The port's set and line at the assertion of its reset line: set empty, line low, a pulse cut short (R169, R177,
R178). -/
def PortState.clearNotices (pt : PortState) : PortState :=
  { pt with pending := 0, attention := false, pulsing := false }

/-! ## Codes of the mirrors (Table 12-4) -/

def Pilot.code : Pilot → Nat
  | .absent => 0
  | .offer => 1
  | .pause => 2
  | .fault => 3

def Source.code : Source → Nat
  | .none => 0
  | .grid => 1
  | .pack => 2

def Mode.code : Mode → Nat
  | .off => 0
  | .charge => 1
  | .busSupply => 2

def StageState.code : StageState → Nat
  | .available => 0
  | .notReady => 1
  | .faulted => 2
  | .recovering => 3

def StageCause.code : StageCause → Nat
  | .none => 0
  | .stage => 1
  | .ready => 2
  | .bus => 3

def Hold.code : Hold → Nat
  | .none => 0
  | .held => 1
  | .suspended => 2

def Grade.code : Grade → Nat
  | .unknown => 0
  | .good => 1
  | .warning => 2
  | .fault => 3

def Localization.code : Localization → Nat
  | .idle => 0
  | .baselineWait => 1
  | .baseline => 2
  | .probing _ => 3
  | .doneCulprit => 4
  | .doneNone => 5
  | .probeWait => 6

/-- The probed zone, 0 outside PROBING. -/
def Localization.zoneCode : Localization → Nat
  | .probing z => z.val
  | _ => 0

def ZoneFault.code : ZoneFault → Nat
  | .open => 8
  | .short => 9
  | .unstable => 10
  | .overtemp => 11
  | .leak => 12

def ZoneState.code : ZoneState → Nat
  | .unchecked => 0
  | .checking => 1
  | .off => 2
  | .energized => 3
  | .dwell _ => 4
  | .probed _ => 5
  | .faulted k => k.code

def Plug.code : Plug → Nat
  | .unplugged => 0
  | .partly => 1
  | .plugged => 2

def SessionState.code : SessionState → Nat
  | .none => 0
  | .plugged => 1
  | .opened => 2
  | .closing => 3

def Timer.isRunning : Timer → Bool
  | .stopped => false
  | .running _ => true

/-- A temperature word; the invalid marker is 0x8000 (R179). -/
def tempWord : Option Int → Word
  | none => 0x8000
  | some t => BitVec.ofInt 16 t

/-! ## The allocator's mirrors, written at each record and at the immediate OFF (R15, R54, R56) -/

def mirror54Of (r : GrantRecord) : Entry :=
  ⟨fieldAt r.source.code 0 ||| fieldAt r.mode.code 2 ||| fieldAt r.stage.code 4 ||| fieldAt r.cause.code 8,
    word r.b, word r.unused⟩

def mirror55Of (r : GrantRecord) : Entry := ⟨word r.gHeat, word r.gAux, word r.s⟩

/-- Mirror 56 of a record, of the U_bus read for it, of the demand line and of the changeover timer. -/
def mirror56Of (r : GrantRecord) (uBus : Nat) (ready changeover : Bool) : Entry :=
  ⟨word r.iSet, word uBus,
    fieldAt r.hold.code 0 ||| flagAt r.rest 2 ||| flagAt r.window 3 ||| flagAt ready 4 ||| flagAt changeover 5⟩

/-! ## The other mirrors, which always show their owner's state (R15, R18; log entry 5) -/

/-- The number of RECORD slots: the uncollected count (R146). -/
def Mark.isRecord : Mark → Bool
  | .record _ => true
  | _ => false

def uncollected (slots : Vector Slot 64) : Nat := slots.toList.countP (fun x => x.mark.isRecord)

/-- The tariff slot of a seconds count (R133). -/
def slotOf (sec : Word32) : Nat := sec.toNat % 86400 / 900

/-- The current tariff slot, 0 while the clock is unknown (R133). -/
def currentSlot (m : Mtr) : Nat :=
  match m.clock with
  | none => 0
  | some sec => slotOf sec

/-- The age in whole seconds (R101, R102). -/
def ageSeconds (i : Iso) : Nat := i.age / 100

/-- The session energy of mirror 63 in 10 Wh (R15, R132). -/
def sessionEnergy (s : State) : Nat :=
  match s.ses.session with
  | .opened | .closing => min 65535 ((s.mtr.chg.wh + s.mtr.heat.wh + s.mtr.aux.wh + s.mtr.standby.wh) / 10)
  | .none | .plugged => 0

/-- The energized set as bits, bit n for zone n. -/
def energizedBits (h : Htr) : Word := h.energized.foldl (fun w z => w ||| (1#16 <<< z.val)) 0

/-- Four zone states in four bits each, the first in bits 3–0. -/
def zoneNibbles (s : State) (a b c d : Fin 8) : Word :=
  fieldAt (s.zone a).state.code 0 ||| fieldAt (s.zone b).state.code 4 |||
    fieldAt (s.zone c).state.code 8 ||| fieldAt (s.zone d).state.code 12

def zoneTempWord (s : State) (z : Fin 8) : Word := tempWord (s.zone z).temp

/-- Mirror entry 53 + k (R15). -/
def mirror (s : State) (k : Nat) : Entry :=
  match k with
  | 0 => ⟨word s.sup.iPil, fieldAt s.sup.pilot.code 0 ||| fieldAt s.sup.nPh 4, word s.sup.uMin⟩
  | 1 => s.alc.mirror54
  | 2 => s.alc.mirror55
  | 3 => s.alc.mirror56
  | 4 => ⟨word ((s.iso.latest.map (·.perVolt)).getD 0),
      fieldAt s.iso.grade.code 0 ||| flagAt s.iso.lockout 2 ||| fieldAt s.iso.localization.code 4 |||
        fieldAt s.iso.localization.zoneCode 8,
      word (ageSeconds s.iso)⟩
  | 5 => ⟨zoneTempWord s 0, zoneTempWord s 1, zoneTempWord s 2⟩
  | 6 => ⟨zoneTempWord s 3, zoneTempWord s 4, zoneTempWord s 5⟩
  | 7 => ⟨zoneTempWord s 6, zoneTempWord s 7, energizedBits s.htr⟩
  | 8 => ⟨zoneNibbles s 0 1 2 3, zoneNibbles s 4 5 6 7, word s.htr.p.val⟩
  | 9 => ⟨fieldAt s.ses.plug.code 0 ||| fieldAt s.ses.session.code 4 ||| flagAt s.ses.imageFault 15,
      loWord s.ses.number, word (uncollected s.nv.slots)⟩
  | 10 => ⟨word (sessionEnergy s), word (currentSlot s.mtr) ||| fieldAt s.mtr.band.val 8,
      word s.mtr.unassigned.wh ||| flagAt s.mtr.clock.isSome 15⟩
  | _ => .zero

/-- A plan entry as a port reads it: entries 0–52 as stored, entries 53–63 as their owners keep them (R1, R15). -/
def State.readEntry (s : State) (n : BitVec 6) : Entry :=
  if h : n.toNat < 53 then s.entry ⟨n.toNat, h⟩ else mirror s (n.toNat - 53)

end Sys2Proof.Machine
end

