-- ==== Sys2Proof/Machine/Plan.lean ====
section
/-! DEFINITION. Machine/Plan.lean: the plan memory's field-range step (R2, R4 to R14, R181) and the load of entries from the
configuration image (R16, R17). -/

namespace Sys2Proof.Machine

/-- The classes of the writable entries (Table 1-1). -/
inductive EntryClass where
  | policy
  | supply
  | vehicle
  | acceptance
  | packHeating
  | isolation
  | heatingMode
  | zone
  | schedule
  | price
  deriving DecidableEq, Repr

def classOf (n : Fin 53) : EntryClass :=
  if n.val ≤ 2 then .policy
  else if n.val = 3 then .supply
  else if n.val = 4 then .vehicle
  else if n.val = 5 then .acceptance
  else if n.val = 6 then .packHeating
  else if n.val = 7 then .isolation
  else if n.val = 8 then .heatingMode
  else if n.val ≤ 16 then .zone
  else if n.val ≤ 48 then .schedule
  else .price

/-- The entry with every word and bit that carries no field at 0 (R2, Table 12-4). -/
def dropUnused (c : EntryClass) (e : Entry) : Entry :=
  match c with
  | .policy | .supply | .isolation | .zone => e
  | .vehicle => ⟨e.w0, e.w1 &&& 0x0003, 0⟩
  | .acceptance => ⟨e.w0, e.w1, e.w2 &&& 0x0003⟩
  | .packHeating => ⟨e.w0, e.w1, 0⟩
  | .heatingMode => ⟨e.w0 &&& 0x7F3F, e.w1 &&& 0x00FF, 0⟩
  | .schedule => ⟨e.w0, e.w1, e.w2 &&& 0x0001⟩
  | .price => ⟨e.w0, 0, 0⟩

/-- A word clamped to lo–hi. -/
def clampWord (lo hi : Nat) (w : Word) : Word := word (clampTo lo hi w.toNat)

/-- A zone target, read as a signed word, clamped to −200 to +450 (R12, R181). -/
def clampTarget (w : Word) : Word := BitVec.ofInt 16 (max (-200) (min 450 w.toInt))

/-- Word 0 of a heating mode within its ranges: L rounded down to a power of two, the start zone modulo 8, the dwell at most 3
(R11, R181). -/
def clampMode (w : Word) : Word :=
  fieldAt (burstOf (field w 0 4)).len 0 ||| (w &&& 0x0030) ||| fieldAt (field w 8 4 % 8) 8 |||
    fieldAt (min 3 (field w 12 3)) 12

/-- The entry brought within the ranges of its class (R4 to R14). `pHw` is the strap's rated input (R5). -/
def clampFields (pHw : Nat) (c : EntryClass) (e : Entry) : Entry :=
  match c with
  | .policy => ⟨clampWord 1 3 e.w0, clampWord 0 22000 e.w1, clampWord 0 22000 e.w2⟩
  | .supply => ⟨clampWord 0 pHw e.w0, clampWord 850 990 e.w1, clampWord 100 5000 e.w2⟩
  | .vehicle => { e with w0 := clampWord 0 10000 e.w0 }
  | .acceptance => { e with w0 := clampWord 0 1000 e.w0, w1 := clampWord 0 8000 e.w1 }
  | .packHeating => { e with w0 := clampWord 0 6000 e.w0, w1 := clampWord 2000 4500 e.w1 }
  | .isolation =>
    let warning := clampTo 100 5000 e.w0.toNat
    ⟨word warning, clampWord 50 (warning - 1) e.w1, clampWord 5 60 e.w2⟩
  | .heatingMode => { e with w0 := clampMode e.w0 }
  | .zone => ⟨clampTarget e.w0, clampWord 5 100 e.w1, clampWord 0 2000 e.w2⟩
  | .schedule => { e with w0 := clampWord 0 95 e.w0, w1 := clampWord 0 3 e.w1 }
  | .price => e

/-- The field-range step of a commit (R2, step 2): the entry as stored. -/
def rangeStep (pHw : Nat) (n : Fin 53) (e : Entry) : Entry := clampFields pHw (classOf n) (dropUnused (classOf n) e)

/-- The status of the field-range step: OK_CLAMPED when a field was replaced (R2). A dropped word or bit is no clamp. -/
def rangeStatus (pHw : Nat) (n : Fin 53) (e : Entry) : Status :=
  if rangeStep pHw n e = dropUnused (classOf n) e then .ok else .okClamped

/-- An entry holds field values within the ranges of its class (R2). -/
def inRange (pHw : Nat) (n : Fin 53) (e : Entry) : Bool := rangeStep pHw n e == e

/-- Entries 17–52 are the tariff entries (R2, R13, R14). -/
def isTariff (n : Fin 53) : Bool := 17 ≤ n.val

/-- Word i of an image, 0 past its end. -/
def imageWord (image : Vector Word 200) (i : Nat) : Word := image[i]?.getD 0

/-- The default of entry n in the image (R183). -/
def imageEntry (image : Vector Word 200) (n : Fin 53) : Entry :=
  ⟨imageWord image (36 + 3 * n.val), imageWord image (37 + 3 * n.val), imageWord image (38 + 3 * n.val)⟩

/-- Entries 0–52 as the power-on reset loads them: the image's defaults, or the built-in defaults when the image fails its CRC,
through the field-range step (R16, R17). -/
def loadPlan (pHw : Nat) (imageOk : Bool) (image : Vector Word 200) : Vector Entry 53 :=
  Vector.ofFn fun n => rangeStep pHw n (if imageOk then imageEntry image n else builtInPlan[n])

/-- The copy of entries 0–3 that the plan memory keeps (R16). -/
def defaultsOf (plan : Vector Entry 53) : Vector Entry 4 := #v[plan[0], plan[1], plan[2], plan[3]]

/-- The session-scoped reset restores entries 0–3 from the copy (R22). -/
def restoreDefaults (s : State) : State :=
  s.setPlan ((((s.plan.set 0 s.planDefaults[0]).set 1 s.planDefaults[1]).set 2 s.planDefaults[2]).set 3
    s.planDefaults[3])

/-- The session-scoped reset at a change of plug state out of PLUGGED, when the image enables it (R22). -/
def scopedRestore (s : State) : State := if s.ses.scopedReset then restoreDefaults s else s

/-- Entry n stored by a commit (R1, R2). -/
def storeEntry (n : Fin 53) (e : Entry) (s : State) : State :=
  s.setPlan (s.plan.set n (rangeStep (Config.pHw s.threePhases) n e))

end Sys2Proof.Machine
end

