-- ==== Sys2Proof/Machine/Records.lean ====
section
/-! DEFINITION. Machine/Records.lean: the CRC (R149), the layout of records, checkpoint copies and areas (R148, R182,
Table 12-5), and the checks the store makes of them (R155, R157). -/

namespace Sys2Proof.Machine

/-! ## CRC -/

/-- One bit into the CRC register: shift, and XOR with 0x1021 when the compared bits differed (R149). -/
def crcBit (crc : Word) (bit : Bool) : Word :=
  if crc.getLsbD 15 != bit then (crc <<< 1) ^^^ 0x1021 else crc <<< 1

/-- The bits of a word, most significant first. -/
def bitsOf (w : Word) : List Bool :=
  [15, 14, 13, 12, 11, 10, 9, 8, 7, 6, 5, 4, 3, 2, 1, 0].map w.getLsbD

/-- The CRC of a list of words: polynomial 0x1021, unreflected, initial value 0xFFFF, no final XOR (R149). -/
def crc16 (ws : List Word) : Word := ws.foldl (fun crc w => (bitsOf w).foldl crcBit crc) 0xFFFF

/-! ## The record of a session -/

def CloseReason.code : CloseReason → Nat
  | .unplug => 0
  | .ended => 1
  | .isolation => 2
  | .powerLoss => 3

/-- The worst grade of word 3 (Table 12-5). -/
def worstCode : Option ResultClass → Nat
  | none => 0
  | some .good => 1
  | some .warning => 2
  | some .fault => 3

def tagWords : Option Tag → List Word
  | none => []
  | some t => [t.w0, t.w1, t.w2, t.w3]

def lineWords (l : BandLine) : List Word := [word l.band.val, l.price] ++ words32 l.wh ++ words48 l.cost

/-- The residue sum (R144, R148). -/
def residueSum (m : Mtr) : Nat := m.chg.residue + m.heat.residue + m.aux.residue + m.standby.residue

/-- The length of the session's record: 21 words, 4 with a tag, 7 for each band line (R148). -/
def recordLength (s : State) : Nat := 21 + (tagWords s.ses.tag).length + 7 * s.mtr.lines.length

/-- The words of the session's record before its CRC, with the given close reason code and end time (Table 12-5). -/
def sessionWords (s : State) (reason : Nat) (endTime : Word32) : List Word :=
  [word (recordLength s), hiWord s.ses.number, loWord s.ses.number,
    fieldAt reason 0 ||| fieldAt (worstCode s.mtr.worst) 4 ||| fieldAt s.mtr.lines.length 8,
    flagAt s.ses.tag.isSome 0 ||| flagAt s.ses.timeUnknown 1 ||| flagAt s.ses.bandHeld 2 |||
      flagAt s.ses.holdWithdrawn 3,
    hiWord s.ses.startTime, loWord s.ses.startTime, hiWord endTime, loWord endTime]
  ++ words32 s.mtr.chg.wh ++ words32 s.mtr.heat.wh ++ words32 s.mtr.aux.wh ++ words32 s.mtr.standby.wh
  ++ words32 (residueSum s.mtr) ++ [word s.mtr.minPerVolt] ++ tagWords s.ses.tag ++ s.mtr.lines.flatMap lineWords

/-- Words with their CRC behind them (R149). -/
def withCrc (ws : List Word) : List Word := ws ++ [crc16 ws]

/-- The final record of the session in CLOSING (R35, R148). -/
def finalRecord (s : State) : List Word :=
  withCrc (sessionWords s ((s.ses.closeReason.map CloseReason.code).getD 0) s.ses.endTime)

/-- The clock's seconds count, or 0 while it is unknown (R32, R35, R144). -/
def clockOrZero (s : State) : Word32 := s.mtr.clock.getD 0

/-- The copy of the session handed over with a checkpoint request (R144, R182). -/
def checkpointCopy (s : State) : Checkpoint := ⟨s.ses.number, sessionWords s 0 (clockOrZero s)⟩

/-! ## Slots -/

/-- A record's words written over a slot's content area; the words past the record stay (R159). -/
def overlay (old : Vector Word 53) (ws : List Word) : Vector Word 53 :=
  Vector.ofFn fun i => (ws[i.val]?).getD old[i]

/-- Word i of a content area, 0 past its end. -/
def contentWord (ct : Vector Word 53) (i : Nat) : Word := ct[i]?.getD 0

/-- The length word of a content area, when it lies in 21–53 (R157, R182). -/
def storedLength (ct : Vector Word 53) : Option Nat :=
  let n := (contentWord ct 0).toNat
  if 21 ≤ n ∧ n ≤ 53 then some n else none

/-- The record in a content area passes its CRC check (R149, R157). -/
def passes (ct : Vector Word 53) : Bool :=
  match storedLength ct with
  | none => false
  | some n => crc16 (ct.toList.take (n - 1)) == contentWord ct (n - 1)

/-- The record number words of a content area (Table 12-5). -/
def contentNumber (ct : Vector Word 53) : Word32 := join32 (contentWord ct 1) (contentWord ct 2)

/-- The words COLLECT copies: the record's words, or all 53 when its length word is out of range; CORRUPT is set when the check
fails (R157, R182). -/
def copyOf (ct : Vector Word 53) : List Word :=
  let ws := ct.toList.take ((storedLength ct).getD 53)
  if passes ct then ws else ws.set 4 (contentWord ct 4 ||| 0x8000)

/-- The record number of a mark that carries one. -/
def Mark.number : Mark → Option Word32
  | .free => none
  | .reserved n => some n
  | .record n => some n

/-- The oldest record: the RECORD slot of the lowest record number (R146, R157). -/
def oldest (slots : Vector Slot 64) : Option (Fin 64 × Word32) :=
  (List.finRange 64).foldl (fun acc i =>
    match slots[i].mark, acc with
    | .record n, some (j, m) => if n < m then some (i, n) else some (j, m)
    | .record n, none => some (i, n)
    | _, acc => acc) none

/-- The lowest-numbered FREE slot (R147). -/
def freeSlot (slots : Vector Slot 64) : Option (Fin 64) :=
  (List.finRange 64).find? (fun i => slots[i].mark == .free)

/-- The slot that carries the number n (R155). -/
def slotCarrying (slots : Vector Slot 64) (n : Word32) : Option (Fin 64) :=
  (List.finRange 64).find? (fun i => slots[i].mark.number == some n)

/-- The slot reserved for n (R151). -/
def slotReserved (slots : Vector Slot 64) (n : Word32) : Option (Fin 64) :=
  (List.finRange 64).find? (fun i => slots[i].mark == .reserved n)

/-! ## Checkpoint areas -/

/-- The words the area's CRC covers, with the valid mark at 1 (R182). -/
def areaWords (number seq : Word32) (length : Word) (copy : List Word) : List Word :=
  [1, hiWord number, loWord number, hiWord seq, loWord seq, length] ++ copy

/-- The area as a completed checkpoint write leaves it (R152). -/
def Area.written (seq : Word32) (c : Checkpoint) : Area where
  valid := true
  number := c.number
  seq := seq
  length := word c.words.length
  copy := c.words
  crc := crc16 (areaWords c.number seq (word c.words.length) c.words)

/-- An area is valid at a restore when its mark is set and its CRC checks (R155). -/
def Area.isValid (a : Area) : Bool :=
  a.valid && a.crc == crc16 (areaWords a.number a.seq a.length a.copy)

/-- The area with its valid mark cleared (R152). -/
def Area.cleared (a : Area) : Area := { a with valid := false }

/-- The newest checkpoint (R155). -/
def newest (nv : Nv) : Option Area :=
  match nv.areaA.isValid, nv.areaB.isValid with
  | true, true => if nv.areaA.seq < nv.areaB.seq then some nv.areaB else some nv.areaA
  | true, false => some nv.areaA
  | false, true => some nv.areaB
  | false, false => none

/-- The restored record of a checkpoint's copy: POWER_LOSS, RESTORED, and a CRC formed anew (R156, R182). -/
def restoredRecord (a : Area) : List Word :=
  withCrc (a.copy.mapIdx fun i w => if i = 3 then w ||| 0x0003 else if i = 4 then w ||| 0x0010 else w)

/-! ## The image -/

/-- The CRC over words 0–198 (R171). -/
def imageCrc (image : Vector Word 200) : Word := crc16 (image.toList.take 199)

def imagePasses (image : Vector Word 200) : Bool := imageCrc image == imageWordLast image
where imageWordLast (v : Vector Word 200) : Word := v[199]

/-- The image with its CRC in word 199 (R174). -/
def sealImage (image : Vector Word 200) : Vector Word 200 := image.set 199 (imageCrc image)

end Sys2Proof.Machine
end

