-- ==== Sys2Proof/Machine/Zones.lean ====
section
/-! DEFINITION. Machine/Zones.lean: what the heater publishes (chapter 5): heat demand, the check phase and its candidate, the
block and turn order, eligibility, the turn queue, and the two quantization rules the allocator runs against them. -/

namespace Sys2Proof.Machine

/-! ## Zone conditions -/

def ZoneState.isFaulted : ZoneState → Bool
  | .faulted _ => true
  | _ => false

/-- The zone is in the mask, has a rating in use above 0, a valid temperature, wants heat and is not FAULTED (R27, R79). -/
def demandsHeat (s : State) (z : Fin 8) : Bool :=
  inMask s z && decide (0 < (s.zone z).rating) && (s.zone z).temp.isSome && (s.zone z).want
    && !(s.zone z).state.isFaulted

/-- The heater has heat demand (R27, R43, R79). -/
def heatDemand (s : State) : Bool := zoneIds.any (demandsHeat s)

/-- A zone is enabled (R81). -/
def enabled (s : State) (z : Fin 8) : Bool := decide (0 < (s.zone z).rating) && inMask s z

/-- HTR is in the check phase (R81). -/
def checkPhase (s : State) : Bool :=
  zoneIds.any fun z => enabled s z && ((s.zone z).state == .unchecked || (s.zone z).state == .checking)

/-- The check candidate of the heater h: the lowest-numbered enabled UNCHECKED zone (R81). -/
def candidateOf (h : Htr) : Option (Fin 8) :=
  zoneIds.find? fun z =>
    decide (0 < h.zones[z].rating) && h.mode.mask.getLsbD z.val && h.zones[z].state == .unchecked

def Grade.isProven : Grade → Bool
  | .good | .warning => true
  | .unknown | .fault => false

/-- The grade is GOOD or WARNING and the lockout is clear. -/
def insulationOk (s : State) : Bool := s.iso.grade.isProven && !s.iso.lockout

/-- The candidate is offered as the turn queue (R81). -/
def checkOffered (s : State) : Bool :=
  s.htr.check.isNone && s.alc.record.source != .none && insulationOk s
    && decide (Config.energizedAt ≤ s.iso.uBus) && s.htr.pendingMode.isNone

/-! ## Blocks and turn order -/

/-- L of the heating mode in force. -/
def burstLen (h : Htr) : Nat := h.mode.burst.len

/-- The zone at turn position i (R85). -/
def zoneAt (h : Htr) (i : Nat) : Fin 8 :=
  let low := h.s.val % burstLen h
  let base := h.s.val - low
  if h.mode.interleaved then Fin.ofNat 8 (base + (low ^^^ i)) else Fin.ofNat 8 (base + (low + i) % burstLen h)

/-- The zone is in the current block (R85). -/
def inBlock (h : Htr) (z : Fin 8) : Bool := z.val / burstLen h == h.s.val / burstLen h

/-- The zone is eligible (R79). -/
def eligible (s : State) (z : Fin 8) : Bool :=
  (s.zone z).state == .off && decide (0 < (s.zone z).rating) && (s.zone z).temp.isSome && inMask s z
    && inBlock s.htr z

/-- The zone may be taken by a walk: eligible, and it wants heat (R89). -/
def wantsTurn (s : State) (z : Fin 8) : Bool := eligible s z && (s.zone z).want

/-- The positions of the current block from p onward, wrapping after L − 1 (R88, R89). -/
def walkPositions (h : Htr) : List Nat := (List.range (burstLen h)).map fun i => (h.p.val + i) % burstLen h

/-- The turn queue, as zones (R88). -/
def turnQueue (s : State) : List (Fin 8) :=
  if checkPhase s then
    if checkOffered s then (candidateOf s.htr).toList else []
  else if s.htr.pendingMode.isSome then []
  else ((walkPositions s.htr).map (zoneAt s.htr)).filter (wantsTurn s)

/-- The energized set that HTR publishes: the checking zone while one is CHECKING, else the ENERGIZED zones in order of selection
(R82, R88). -/
def publishedSet (s : State) : List (Fin 8) :=
  match s.htr.check with
  | some ck => [ck.zone]
  | none => s.htr.energized

/-! ## Quantization -/

/-- What quantization returns to the allocator (R50, R89). -/
structure Quantized where
  zones : List (Fin 8 × Nat)
  boundary : Bool
  moves : Bool
  p : Fin 8
  round : Bool
  deriving DecidableEq, Repr

/-- The sum of the ratings of a zone set. -/
def ratingSum (zs : List (Fin 8 × Nat)) : Nat := (zs.map Prod.snd).sum

/-- Zones with their ratings as read from entries 9–16 (R47). -/
def withRatings (s : State) (zs : List (Fin 8)) : List (Fin 8 × Nat) := zs.map fun z => (z, zoneRating s z)

/-- The walk may take the zone: it is eligible, wants heat, and its rating as read for the interval does not disable it (R12, R50,
R89; log entry 7). -/
def walkTakes (s : State) (z : Fin 8) : Bool := wantsTurn s z && decide (0 < zoneRating s z)

/-- The walk of the prefix rule over the given positions with `left` W still free: the zones taken, and the position it stopped
at, if it stopped (R89). -/
def prefixWalk (s : State) : Nat → List Nat → List (Fin 8 × Nat) × Option Nat
  | _, [] => ([], none)
  | left, i :: rest =>
    let z := zoneAt s.htr i
    if walkTakes s z then
      if zoneRating s z ≤ left then
        let r := prefixWalk s (left - zoneRating s z) rest
        ((z, zoneRating s z) :: r.1, r.2)
      else ([], some i)
    else prefixWalk s left rest

/-- The prefix rule at a slot boundary (R86, R89). A walk in the check phase or with a mode pending does not move the turn. With
L = 1 every boundary completes a round, one whose walk stopped at a zone that does not fit too (R86's own sentence; log
entry 37). -/
def prefixRule (s : State) (g : Nat) : Quantized :=
  if checkPhase s || s.htr.pendingMode.isSome then
    ⟨(withRatings s (turnQueue s)).filter (fun x => decide (0 < x.2 ∧ x.2 ≤ g)), true, false, s.htr.p, false⟩
  else
    let w := prefixWalk s g (walkPositions s.htr)
    match w.2 with
    | some i => ⟨w.1, true, true, Fin.ofNat 8 i, decide (i < s.htr.p.val ∨ burstLen s.htr = 1)⟩
    | none => ⟨w.1, true, true, s.htr.p, true⟩

/-- Zones removed from the end of a list until its ratings sum to at most g; the list is given last zone first (R90). -/
def shedFrom (g : Nat) : List (Fin 8 × Nat) → List (Fin 8 × Nat)
  | [] => []
  | x :: rest => if ratingSum (x :: rest) ≤ g then x :: rest else shedFrom g rest

/-- The keep-or-shed rule between boundaries (R90). -/
def keepOrShed (s : State) (g : Nat) : Quantized :=
  let set := (withRatings s (publishedSet s)).filter (fun x => decide (0 < x.2))
  ⟨(shedFrom g set.reverse).reverse, false, false, s.htr.p, false⟩

end Sys2Proof.Machine
end

