-- ==== Sys2Proof/Machine/Ops.lean ====
section
/-! DEFINITION. Machine/Ops.lean: the operations every command is built from: taking an event or a request, entry access, the
demand line, the output holds, the stage link, and the immediate OFF. -/

namespace Sys2Proof.Machine

/-- What a command answers. -/
abbrev Result := Host.Outcome State Fault Refusal

/-! ## Taking events and requests -/

/-- A part without supply takes nothing (POWER_LOSS); otherwise the event has the effect f. -/
def live (s : State) (f : State → State) : Result := .next (if s.powered then f s else s)

/-- An owner's answer to a request: the state, the status and the data words returned. -/
structure Reply where
  st : State
  status : Status
  data : List Word

/-- The status becomes the port's last status. Of the status word of the frame's beginning and the data the frame returned what its
len words clocked out, and 0 in every further word, operand words included; data not clocked out are lost, and the request's
effect is not (R161, R162). -/
def finishFrame (p : PortId) (len : Nat) (opening : Word) (r : Reply) : State :=
  r.st.setPort p { r.st.port p with lastStatus := r.status, returned := clocked len (opening :: r.data) }

/-- A frame of len words on port p whose request the ports in `roles` admit (R161 to R163). While the reset line is asserted the port takes
no frames (R169). -/
def request (p : PortId) (len : Nat) (roles : List PortId) (s : State) (body : State → Reply) : Result :=
  live s fun s =>
    if (s.port p).resetAsserted then s
    else finishFrame p len (statusWord (s.port p)) (if roles.contains p then body s else ⟨s, .notPermitted, []⟩)

def anyPort : List PortId := [.V, .P, .F]

/-- A refused request changes nothing but the last status (R163). -/
def refuse (s : State) (st : Status) : Reply := ⟨s, st, []⟩

/-! ## Entry access (chapter 10) -/

/-- A window contains local number k (R167). -/
def Window.contains (w : Window) (k : BitVec 6) : Bool := w.enable && decide (w.start ≤ k) && decide (k ≤ w.stop)

/-- The window that maps k: the lowest-numbered window that contains it (R167). -/
def mapWindow (pt : PortState) (k : BitVec 6) : Option Window := pt.windows.toList.find? (·.contains k)

/-- The plan entry that a window maps k onto: (k + offset) mod 64 (R167). -/
def Window.entryOf (w : Window) (k : BitVec 6) : BitVec 6 := k + w.offset

/-- In the commissioning state ports V and P reach the mirrors alone (R170). -/
def mirrorsOnly (s : State) (p : PortId) : Bool := s.commission && p != .F

/-- The entry that local number k gives port p to read, if any (R164, R167, R170). -/
def readable (s : State) (p : PortId) (k : BitVec 6) : Option (BitVec 6) :=
  match mapWindow (s.port p) k with
  | none => none
  | some w => if mirrorsOnly s p && decide ((w.entryOf k).toNat < 53) then none else some (w.entryOf k)

/-- A snapshot of local number k into the holding words of pt (R164). -/
def takeSnapshot (s : State) (p : PortId) (k : BitVec 6) (pt : PortState) : PortState :=
  match readable s p k with
  | some n => { pt with holding := s.readEntry n, snapshot := .mapped }
  | none => { pt with holding := .zero, snapshot := .unmapped }

/-- Entry access after a power-on reset and a port reset (R164). -/
def PortState.clearAccess (pt : PortState) : PortState :=
  { pt with
    pointer := 0, direction := .none, sub := 0, staging := .zero, staged := 0, holding := .zero, snapshot := .none }

/-- The sub-counter advanced; from the third word it returns to 0 (R165). -/
def nextSub (i : Fin 3) : Fin 3 := i + 1

/-! ## The demand line (R27 to R29) -/

/-- The permission conditions (R27). -/
def permission (s : State) : Bool := s.ses.session == .opened && insulationOk s

/-- The demand conditions (R27). -/
def wantsPower (s : State) : Bool := chargeEnable s || decide (0 < auxRequest s) || heatDemand s

/-- The level and the withdrawal that an evaluation sets (R27 to R29). -/
def demandLine (s : State) : DemandLevel × Withdrawal :=
  if s.ses.plug != .plugged then (.idle, .none)
  else if s.commission then (.present, .none)
  else if !permission s then (.present, .none)
  else if wantsPower s then (.ready, .none)
  else match s.sup.demand, s.sup.withdrawal with
    | .ready, .none => (.ready, .waiting)
    | .ready, w => (.ready, w)
    | _, _ => (.present, .none)

/-- SUP evaluates the demand line (R27). -/
def evalDemand (s : State) : State :=
  s.setSup { s.sup with demand := (demandLine s).1, withdrawal := (demandLine s).2 }

/-- SUP takes a published grant record while a withdrawal is pending: it evaluates, marks a record of mode OFF, and ends the
withdrawal at the record after the marked one (R29). -/
def watchRecord (s : State) : State :=
  if s.sup.withdrawal = .none then s
  else
    let t := evalDemand s
    match t.sup.withdrawal with
    | .none => t
    | .waiting =>
      if t.alc.record.mode = .off then t.setSup { t.sup with withdrawal := .marked } else t
    | .marked => t.setSup { t.sup with demand := .present, withdrawal := .none }

/-! ## The power-stage link and the immediate OFF -/

/-- What the link sends for a record (R57). -/
def linkOf (r : GrantRecord) : LinkWord :=
  match r.mode with
  | .off => .off
  | .charge => .charge r.iSet r.uMax
  | .busSupply => .busSupply r.target

/-- STAGE_FAULT is raised with its cause (R60). -/
def stageFaultWith (c : StageCause) (s : State) : State := raise .stageFault (s.setAlc { s.alc with cause := c })

/-- The immediate OFF at unplug (R56). -/
def immediateOff (s : State) : State :=
  let r := { s.alc.record with mode := .off, s := 0, iSet := 0 }
  let gap := if s.alc.record.mode = .off then s.alc.changeover else .running Config.changeoverMs
  s.setAlc { s.alc with
    record := r, fresh := true, freshTimer := .stopped, changeover := gap, link := .off,
    mirror56 := mirror56Of r s.alc.uBusRead (s.sup.demand == .ready) gap.isRunning }

/-! ## The output holds (chapter 4) -/

/-- HOLD_WITHDRAWN is set on an OPEN session (R65, R67). -/
def markHoldWithdrawn (s : State) : State :=
  if s.ses.session = .opened then s.setSes { s.ses with holdWithdrawn := true } else s

/-- The departure hold becomes NONE with its timer stopped (R64, R67, R68). -/
def dropHold (s : State) : State := s.setAlc { s.alc with hold := .none, holdTimer := .stopped }

/-- A HELD or SUSPENDED hold is dropped with HOLD_CHANGE (R64, R68). -/
def dropHoldWithNotice (s : State) : State := if s.alc.hold = .none then s else raise .holdChange (dropHold s)

/-- The hold ends because the grade left GOOD and WARNING (R67). -/
def endHoldByGrade (s : State) : State :=
  if s.alc.hold = .none then s else markHoldWithdrawn (raise .holdChange (dropHold s))

/-- ISO reports that the overdue condition became true (R65). -/
def suspendHold (s : State) : State :=
  if s.alc.hold = .held then
    markHoldWithdrawn (raise .holdChange (s.setAlc { s.alc with hold := .suspended }))
  else s

/-- ISO reports a completed measurement (R66). -/
def restoreHold (s : State) : State :=
  if s.alc.hold = .suspended then raise .holdChange (s.setAlc { s.alc with hold := .held }) else s

/-- The rest ends (R70). -/
def endRest (s : State) : State := s.setAlc { s.alc with resting := false, restTimer := .stopped }

/-- A running rest ends with HOLD_CHANGE (R70). -/
def endRestWithNotice (s : State) : State := if s.alc.resting then raise .holdChange (endRest s) else s

end Sys2Proof.Machine
end

