-- ==== Sys2Proof/Machine/Store.lean ====
section
/-! DEFINITION. Machine/Store.lean: the record store's shared operations (chapter 9): reservation, the writer and its queue,
what a cut-off write leaves, and the restore. -/

namespace Sys2Proof.Machine

/-! ## Non-volatile updates -/

def setSlot (i : Fin 64) (x : Slot) (nv : Nv) : Nv := { nv with slots := nv.slots.set i x }

def Nv.area (nv : Nv) : AreaId → Area
  | .A => nv.areaA
  | .B => nv.areaB

def setArea (a : AreaId) (x : Area) (nv : Nv) : Nv :=
  match a with
  | .A => { nv with areaA := x }
  | .B => { nv with areaB := x }

def AreaId.other : AreaId → AreaId
  | .A => .B
  | .B => .A

/-- The areas named are voided (R153, R156). -/
def voidAreas (a b : Bool) (nv : Nv) : Nv :=
  { nv with
    areaA := if a then nv.areaA.cleared else nv.areaA
    areaB := if b then nv.areaB.cleared else nv.areaB }

/-- The slot's mark is changed (R146). -/
def markSlot (i : Fin 64) (m : Mark) (nv : Nv) : Nv := setSlot i { nv.slots[i] with mark := m } nv

/-- A record's words are written into a slot (R153). -/
def fillSlot (i : Fin 64) (ws : List Word) (nv : Nv) : Nv :=
  setSlot i { nv.slots[i] with content := overlay nv.slots[i].content ws } nv

/-! ## Reservation (R147) -/

/-- A slot and a number can be given: a FREE slot, and a counter that is not exhausted (R31, R147). -/
def canReserve (nv : Nv) : Bool := (freeSlot nv.slots).isSome && nv.counter != 0

/-- The lowest-numbered FREE slot is RESERVED with the counter's value, and the counter advances (R147). -/
def reserve (nv : Nv) : Nv :=
  match freeSlot nv.slots with
  | some i => { markSlot i (.reserved nv.counter) nv with counter := nv.counter + 1 }
  | none => nv

/-! ## The writer (R150 to R153, R174) -/

/-- A checkpoint write starts into the next area, which loses its valid mark (R152). -/
def startCheckpoint (c : Checkpoint) (s : State) : State :=
  let a := s.rst.nextArea
  let t := s.setNv (setArea a (s.nv.area a).cleared s.nv)
  t.setRst { t.rst with writer := .checkpoint a (t.rst.seq + 1) c, nextArea := a.other, seq := t.rst.seq + 1 }

/-- A final write is waiting or in flight (R150). -/
def finalPending (r : Rst) : Bool :=
  match r.writer with
  | .final _ _ => true
  | _ => r.waitFinal.isSome

/-- A checkpoint request arrives (R150, R174). -/
def checkpointRequest (c : Checkpoint) (s : State) : State :=
  if finalPending s.rst then s
  else match s.rst.writer with
    | .idle => startCheckpoint c s
    | _ => s.setRst { s.rst with waitCheckpoint := some c }

/-- SES hands over the final record: a waiting checkpoint is dropped, and the write starts or waits (R151, R174). -/
def handoverFinal (n : Word32) (ws : List Word) (s : State) : State :=
  match s.rst.writer with
  | .idle => s.setRst { s.rst with waitCheckpoint := none, writer := .final n ws }
  | _ => s.setRst { s.rst with waitCheckpoint := none, waitFinal := some (n, ws) }

/-- After a completion the writer takes a waiting final write, then a waiting image write, then a waiting checkpoint, and
otherwise goes IDLE (R152, R153, R174). -/
def nextWrite (s : State) : State :=
  match s.rst.waitFinal, s.rst.waitImage, s.rst.waitCheckpoint with
  | some f, _, _ => s.setRst { s.rst with writer := .final f.1 f.2, waitFinal := none }
  | none, some v, _ => s.setRst { s.rst with writer := .image v, waitImage := none }
  | none, none, some c => startCheckpoint c (s.setRst { s.rst with waitCheckpoint := none })
  | none, none, none => s.setRst { s.rst with writer := .idle }

/-- An image store is waiting or in flight (R173). -/
def imageBusy (r : Rst) : Bool :=
  match r.writer with
  | .image _ => true
  | _ => r.waitImage.isSome

/-- STORE_LOW is raised when the uncollected count has risen to 56 or more (R154). -/
def raiseStoreLow (s : State) : State :=
  raiseIf (decide (Config.storeLowAt ≤ uncollected s.nv.slots)) .storeLow s

/-! ## What a cut-off write leaves (R152, R153, R155, R174; log entry 3) -/

/-- The first `done` words as written, and free words after them. -/
def cutWords (free done : Nat) (ws : List Word) : List Word :=
  ws.mapIdx fun i w => if i < done then w else Config.freeWord (free + i)

/-- A content area that fails its CRC: as it is when it fails, else with the CRC word inverted (R155). -/
def failing (v : Vector Word 53) : Vector Word 53 :=
  match storedLength v with
  | none => v
  | some n => if passes v then v.set! (n - 1) (~~~ contentWord v (n - 1)) else v

/-- A slot's content when the write of a record's words was cut off (R155). -/
def cutContent (free done : Nat) (old : Vector Word 53) (ws : List Word) : Vector Word 53 :=
  failing (overlay old (cutWords free done ws))

/-- The stored image when an image write was cut off: it fails its CRC (R174). -/
def cutImage (free done : Nat) (v : Vector Word 200) : Vector Word 200 :=
  let w : Vector Word 200 := Vector.ofFn fun i => if i.val < done then v[i] else Config.freeWord (free + i.val)
  if imagePasses w then w.set 199 (~~~ w[199]) else w

/-- A record's write into slot i, cut off at the given point; n is the number the mark takes (R153, Table 9-4). -/
def cutRecordWrite (free : Nat) (cut : WriteCut) (i : Fin 64) (n : Word32) (ws : List Word) (nv : Nv) : Nv :=
  match cut with
  | .words k => setSlot i { nv.slots[i] with content := cutContent free k nv.slots[i].content ws } nv
  | .written => fillSlot i ws nv
  | .marked => markSlot i (.record n) (fillSlot i ws nv)
  | .voided a b => voidAreas a b (markSlot i (.record n) (fillSlot i ws nv))

/-- How many words a cut inside the words had stored; every later cut has stored them all. -/
def wordsDone : WriteCut → Nat
  | .words k => k
  | _ => 200

/-- The area of a cut-off checkpoint write: what was stored of the header's numbers and the copy, the valid mark clear (R152). -/
def cutArea (free : Nat) (cut : WriteCut) (seq : Word32) (c : Checkpoint) : Area :=
  { Area.written seq ⟨c.number, cutWords free (wordsDone cut) c.words⟩ with valid := false }

/-- The write in flight is cut off (R152, R153, R155, R174). -/
def cutWrite (free : Nat) (cut : WriteCut) (w : Writer) (nv : Nv) : Nv :=
  match w with
  | .idle => nv
  | .checkpoint a seq c => setArea a (cutArea free cut seq c) nv
  | .final n ws =>
    match slotReserved nv.slots n with
    | some i => cutRecordWrite free cut i n ws nv
    | none => nv
  | .image v => { nv with image := cutImage free (wordsDone cut) v }

/-! ## Restore (R155, R156) -/

/-- What the restore does for the newest checkpoint: the slot, the number of its mark, and the restored record to write there,
or none when the slot's own record stands (R155). A RECORD slot that passes its CRC with another number in its contents meets two
rows of R155's table; the model takes the row that writes the restored record (log entry 38). -/
def restorePlan (nv : Nv) : Option (Fin 64 × Word32 × Option (List Word)) :=
  match newest nv with
  | none => none
  | some a =>
    match slotCarrying nv.slots a.number with
    | some i =>
      if passes nv.slots[i].content && contentNumber nv.slots[i].content == a.number then some (i, a.number, none)
      else some (i, a.number, some (restoredRecord a))
    | none => (freeSlot nv.slots).map fun i => (i, a.number, some (restoredRecord a))

/-- The restore's handling of the newest checkpoint, up to the given point (R155). -/
def restoreNewest (free : Nat) (cut : WriteCut) (nv : Nv) : Nv :=
  match restorePlan nv with
  | none => nv
  | some (i, n, some ws) =>
    match cut with
    | .voided _ _ => cutRecordWrite free .marked i n ws nv
    | other => cutRecordWrite free other i n ws nv
  | some (i, n, none) =>
    match cut with
    | .words _ | .written => nv
    | _ => markSlot i (.record n) nv

/-- A slot still RESERVED after the newest checkpoint has been handled (R156). -/
def settleReserved (x : Slot) : Slot :=
  match x.mark with
  | .reserved n => if passes x.content && contentNumber x.content == n then ⟨.record n, x.content⟩ else ⟨.free, x.content⟩
  | _ => x

/-- The restore, run up to the given point; `voided true true` is the whole of it (R155, R156). -/
def restoreTo (free : Nat) (cut : WriteCut) (nv : Nv) : Nv :=
  let t := restoreNewest free cut nv
  match cut with
  | .voided a b => voidAreas a b { t with slots := t.slots.map settleReserved }
  | _ => t

/-- The whole restore. -/
def restore (nv : Nv) : Nv := restoreTo 0 (.voided true true) nv

/-- The restore wrote or kept a record (R154, R156; log entry 8). -/
def restoreAdds (nv : Nv) : Bool :=
  (restorePlan nv).isSome
    || decide (uncollected nv.slots < uncollected (restore nv).slots)

end Sys2Proof.Machine
end

