-- ==== Sys2Proof/Machine/Meter.lean ====
section
/-! DEFINITION. Machine/Meter.lean: the meter's shared operations (chapter 8): attribution and booking, the clock, band
evaluation, the tariff lock, checkpoint requests, and the insulation summary. -/

namespace Sys2Proof.Machine

/-! ## Energy of an interval (R126) -/

/-- One phase's real power scaled by its gain (R126, R183). -/
def scaledPower (gain : Word) (p : Int) : Int := (p * gain.toNat).tdiv 32768

/-- P_ac: the sum over the phases that the PHASES strap admits, clamped to 0–30,000 W (R126). -/
def pAc (s : State) (p1 p2 p3 : Int) : Nat :=
  let sum := if s.threePhases then
      scaledPower s.mtr.gain1 p1 + scaledPower s.mtr.gain2 p2 + scaledPower s.mtr.gain3 p3
    else scaledPower s.mtr.gain1 p1
  (max 0 (min 30000 sum)).toNat

/-! ## Attribution (R129) -/

/-- The parts of an interval's energy that go to the four accounts. -/
structure Shares where
  chg : Nat
  heat : Nat
  aux : Nat
  standby : Nat
  deriving DecidableEq, Repr

/-- The division of E among the accounts in proportion to the grants of the record (R129). -/
def sharesOf (r : GrantRecord) (e : Nat) : Shares :=
  let total := r.gHeat + r.gAux + r.s
  if r.source = .grid ∧ 0 < total then
    let chg := e * r.s / total
    let heat := e * r.gHeat / total
    let aux := e * r.gAux / total
    let left := e - (chg + heat + aux)
    if r.gHeat ≤ r.s ∧ r.gAux ≤ r.s then ⟨chg + left, heat, aux, 0⟩
    else if r.gAux ≤ r.gHeat then ⟨chg, heat + left, aux, 0⟩
    else ⟨chg, heat, aux + left, 0⟩
  else ⟨0, 0, 0, e⟩

/-! ## Booking (R130 to R132) -/

/-- A share completes a watt-hour in the account (R130). -/
def completes (x : Account) (e : Nat) : Bool := decide (Config.unitsPerWh ≤ x.residue + e)

/-- A share added to an account (R130). -/
def addShare (e : Nat) (x : Account) : Account :=
  if completes x e then ⟨x.wh + 1, x.residue + e - Config.unitsPerWh⟩ else ⟨x.wh, x.residue + e⟩

/-- One watt-hour booked into the line of its band; a band's first watt-hour creates the line (R131). -/
def bookLine (band : Fin 4) (price : Word) : List BandLine → List BandLine
  | [] => [⟨band, price, 1, price.toNat⟩]
  | l :: rest =>
    if l.band = band then { l with wh := l.wh + 1, cost := l.cost + l.price.toNat } :: rest
    else l :: bookLine band price rest

/-- The lines after a share e reached account x (R130, R131). -/
def bookShare (band : Fin 4) (price : Word) (x : Account) (e : Nat) (ls : List BandLine) : List BandLine :=
  if completes x e then bookLine band price ls else ls

/-- An OPEN session's interval booked to its accounts and band lines (R127, R129 to R131). -/
def bookSession (sh : Shares) (s : State) : State :=
  let m := s.mtr
  let price := s.ses.prices[m.band]
  let l1 := bookShare m.band price m.chg sh.chg m.lines
  let l2 := bookShare m.band price m.heat sh.heat l1
  let l3 := bookShare m.band price m.aux sh.aux l2
  let l4 := bookShare m.band price m.standby sh.standby l3
  s.setMtr { m with
    chg := addShare sh.chg m.chg, heat := addShare sh.heat m.heat, aux := addShare sh.aux m.aux,
    standby := addShare sh.standby m.standby, lines := l4 }

/-- Energy outside a session added to the unassigned counter, whose count stops at 32,767 (R132). -/
def bookUnassigned (e : Nat) (s : State) : State :=
  let x := addShare e s.mtr.unassigned
  s.setMtr { s.mtr with unassigned := ⟨min 32767 x.wh, x.residue⟩ }

/-- Step 2 of a meter interval (R126, R127). -/
def bookEnergy (e : Nat) (s : State) : State :=
  match s.ses.session with
  | .opened => bookSession (sharesOf s.alc.record e) s
  | _ => bookUnassigned e s

/-! ## Checkpoints (R143, R144) -/

/-- The meter asks the store for a checkpoint of the session and restarts its timer (R143, R144). -/
def askCheckpoint (s : State) : State :=
  checkpointRequest (checkpointCopy s) (s.setMtr { s.mtr with checkpointTimer := .running Config.checkpointMs })

/-! ## Band evaluation (R135 to R137) -/

/-- Among the schedule entries that satisfy ok, the one with the greatest start slot, and of several the one with the highest
number (R135). -/
def pickEntry (s : State) (ok : Fin 32 → Bool) : Option (Fin 32) :=
  (List.finRange 32).foldl (fun acc n =>
    if ok n then
      match acc with
      | some m => if startSlot s m ≤ startSlot s n then some n else some m
      | none => some n
    else acc) none

/-- The band of the current slot (R135). -/
def findBand (s : State) : Fin 4 :=
  match s.mtr.clock with
  | none => 0
  | some sec =>
    match pickEntry s (fun n => scheduleValid s n && decide (startSlot s n ≤ slotOf sec)) with
    | some n => scheduleBand s n
    | none =>
      match pickEntry s (scheduleValid s) with
      | some n => scheduleBand s n
      | none => 0

/-- An evaluation that finds the clock unknown sets TIME_UNKNOWN on an OPEN session (R137). -/
def markTimeUnknown (s : State) : State :=
  if s.mtr.clock = none ∧ s.ses.session = .opened then s.setSes { s.ses with timeUnknown := true } else s

/-- The band found comes into force (R136). -/
def adoptBand (s : State) : State := s.setMtr { s.mtr with band := findBand s }

/-- A band evaluation: a band change with a session OPEN asks for a checkpoint (R136, R137). -/
def evaluateBand (s : State) : State :=
  let t := adoptBand (markTimeUnknown s)
  if t.mtr.band ≠ s.mtr.band ∧ s.ses.session = .opened then askCheckpoint t else t

/-! ## The clock (R133, R141) -/

/-- A slot boundary: evaluated, or held under the tariff lock with BAND_HELD on an OPEN session (R136, R141). -/
def slotBoundary (s : State) : State :=
  if s.mtr.lockHeld then
    if s.ses.session = .opened then s.setSes { s.ses with bandHeld := true } else s
  else evaluateBand s

/-- Step 3 of a meter interval (R126, R133). -/
def advanceClock (s : State) : State :=
  match s.mtr.clock with
  | none => s
  | some sec =>
    if s.mtr.tenths + 1 < 10 then s.setMtr { s.mtr with tenths := s.mtr.tenths + 1 }
    else
      let t := s.setMtr { s.mtr with tenths := 0, clock := some (sec + 1) }
      if slotOf (sec + 1) ≠ slotOf sec then slotBoundary t else t

/-! ## The tariff lock (R138 to R142) -/

/-- The lock becomes FREE with its timer stopped. -/
def freeLock (s : State) : State := s.setMtr { s.mtr with lockHeld := false, lockTimer := .stopped }

/-- A HELD lock is broken: FREE, TARIFF_LOCK_BROKEN, and a band evaluation (R140, R142). -/
def breakLock (s : State) : State :=
  if s.mtr.lockHeld then evaluateBand (raise .tariffLockBroken (freeLock s)) else s

/-- A port may commit tariff entries: port F while the lock is HELD (R2, R138). -/
def holdsLock (s : State) (p : PortId) : Bool := p == .F && s.mtr.lockHeld

/-! ## The insulation summary (R114) -/

/-- The worse of two classes, in the order GOOD, WARNING, FAULT (R114). -/
def worse (a b : ResultClass) : ResultClass :=
  match a, b with
  | .fault, _ | _, .fault => .fault
  | .warning, _ | _, .warning => .warning
  | .good, .good => .good

/-- A valid result handed to the meter (R114). -/
def updateSummary (r : IsoResult) (s : State) : State :=
  if s.ses.session = .opened then
    s.setMtr { s.mtr with
      recorded := true
      minPerVolt := min s.mtr.minPerVolt r.perVolt
      worst := some (match s.mtr.worst with | none => r.cls | some c => worse c r.cls) }
  else s

/-- The session's accumulation empty, as at its opening (R32, R114). -/
def Mtr.emptied (m : Mtr) : Mtr :=
  { m with
    chg := .zero, heat := .zero, aux := .zero, standby := .zero, lines := [], recorded := false, minPerVolt := 65535,
    worst := none }

end Sys2Proof.Machine
end

