-- ==== Sys2Proof/Machine/Session.lean ====
section
/-! DEFINITION. Machine/Session.lean: the session controller's shared operations (chapter 2): opening, closing and leaving a
session, and the plug state. -/

namespace Sys2Proof.Machine

/-- A change of session state: SESSION_CHANGE and an evaluation of the demand line (R27, R30). -/
def enterSession (st : SessionState) (s : State) : State :=
  evalDemand (raise .sessionChange (s.setSes { s.ses with session := st }))

/-- SES's checks of an AUTHORIZE, in their order (R31). -/
def authorizeStatus (s : State) (tag : Option Tag) : Status :=
  match s.ses.session with
  | .opened | .closing => .busy
  | .none => .denied
  | .plugged =>
    if tag.isNone && !s.ses.defaultAccount then .denied
    else if s.mtr.lockHeld then .busy
    else if canReserve s.nv then .ok
    else .storeFull

/-- The session's own data at its opening (R32). -/
def Ses.opening (x : Ses) (tag : Option Tag) (number : Word32) (prices : Vector Word 4) (clock : Option Word32) : Ses :=
  { x with
    session := .opened, tag := tag, number := number, prices := prices, startTime := clock.getD 0,
    timeUnknown := clock.isNone, bandHeld := false, holdWithdrawn := false, closeReason := none, endTime := 0 }

/-- The four band prices as stored (R14, R32). -/
def storedPrices (s : State) : Vector Word 4 := #v[bandPrice s 0, bandPrice s 1, bandPrice s 2, bandPrice s 3]

/-- SES opens the session (R32): slot and number, account, prices, start time, empty accounts, band, checkpoint timer; then
SESSION_CHANGE and the demand line. -/
def openSession (tag : Option Tag) (s : State) : State :=
  let a := s.setSes (s.ses.opening tag s.nv.counter (storedPrices s) s.mtr.clock)
  let b := a.setNv (reserve s.nv)
  let c := b.setMtr { s.mtr.emptied with checkpointTimer := .running Config.checkpointMs }
  let d := c.setRst { c.rst with seq := 0 }
  evalDemand (raise .sessionChange (adoptBand d))

/-- An AUTHORIZE as SES takes it, from port F or by auto-open (R31 to R33). -/
def authorizeSession (tag : Option Tag) (s : State) : State :=
  if authorizeStatus s tag = .ok then openSession tag s else s

/-- An OPEN session goes to CLOSING (R35): close data, end of attribution, final record to the store, SESSION_CHANGE, demand
line. -/
def closeSession (reason : CloseReason) (s : State) : State :=
  if s.ses.session = .opened then
    let a := s.setSes { s.ses with
      session := .closing, closeReason := some reason, endTime := clockOrZero s,
      timeUnknown := s.ses.timeUnknown || s.mtr.clock.isNone }
    let b := a.setMtr { a.mtr with checkpointTimer := .stopped }
    evalDemand (raise .sessionChange (handoverFinal b.ses.number (finalRecord b) b))
  else s

/-- What leaves with a session: tag, number, frozen prices (R36). -/
def Ses.emptied (x : Ses) : Ses :=
  { x with tag := none, number := 0, prices := Vector.replicate 4 0 }

/-- SES takes the session out of CLOSING by the plug state (R36). -/
def leaveClosing (s : State) : State :=
  if s.ses.session = .closing then
    let a := (s.setSes s.ses.emptied).setMtr s.mtr.emptied
    enterSession (if s.ses.plug = .plugged then .plugged else .none) a
  else s

/-! ## The plug state (R19 to R22, R30, R33) -/

/-- Table of R20. -/
def plugOf (a b : Bool) : Plug :=
  match a, b with
  | true, true => .plugged
  | false, false => .unplugged
  | _, _ => .partly

/-- The session entered PLUGGED from NONE: auto-open when the image enables it (R33). -/
def autoOpen (s : State) : State := if s.ses.autoOpen then authorizeSession none s else s

/-- The plug state entered PLUGGED (R30, R33). -/
def plugEnters (s : State) : State :=
  if s.ses.session = .none then autoOpen (enterSession .plugged s) else evalDemand s

/-- The session's part when the plug leaves PLUGGED (R21, R30, R35). -/
def sessionUnplugged (s : State) : State :=
  match s.ses.session with
  | .opened => closeSession .unplug s
  | .plugged => enterSession .none s
  | _ => s

/-- The plug state left PLUGGED: demand line IDLE, charger OFF, session, session-scoped reset (R21). -/
def plugLeaves (s : State) : State := scopedRestore (sessionUnplugged (immediateOff (evalDemand s)))

/-- The derived plug state is put in force (R20). -/
def putPlug (new : Plug) (s : State) : State :=
  if new = s.ses.plug then s
  else
    let t := raise .plugChange (s.setSes { s.ses with plug := new })
    if s.ses.plug = .plugged then plugLeaves t
    else if new = .plugged then plugEnters t
    else evalDemand t

/-- The plug state derived from both debounced contacts, once both have a state (R20). -/
def derivePlug (s : State) : State :=
  match s.ses.debA, s.ses.debB with
  | some a, some b => putPlug (plugOf a b) s
  | _, _ => s

end Sys2Proof.Machine
end

