-- ==== Sys2Proof/Machine/Monitor.lean ====
section
/-! DEFINITION. Machine/Monitor.lean: a measurement's course (chapters 4 and 6): request, grant, restart, discard, release, the
overdue condition, and the computation of the result. -/

namespace Sys2Proof.Machine

/-- A measurement is in flight: settling or sampling (R108, R109). -/
def Phase.inFlight : Phase → Bool
  | .settleA | .sampleA | .settleB | .sampleB => true
  | .idle | .request => false

/-- SETTLE_A begins: bridge state A, 400 ms, sums cleared (R107, R109). -/
def startSettle (s : State) : State :=
  s.setIso { s.iso with
    phase := .settleA, bridge := .a, phaseTimer := .running Config.settleMs,
    sumUpA := 0, sumUnA := 0, countA := 0, sumUpB := 0, sumUnB := 0, countB := 0 }

/-- The window becomes GRANTED and the monitor's settling starts (R71, R72, R107). -/
def grantWindow (s : State) : State := startSettle (s.setAlc { s.alc with window := .granted })

/-- ISO requests a measurement: the window waits, or is granted at once while a rest is in force (R72, R104). -/
def requestMeasurement (purpose : Purpose) (s : State) : State :=
  let t := s.setIso { s.iso with phase := .request, purpose := some purpose, restarts := 0 }
  let u := t.setAlc { t.alc with window := .waiting }
  if u.alc.record.rest then grantWindow u else u

/-- The monitor's phase returns to IDLE with the bridge OPEN and the phase timer stopped. -/
def monitorIdle (s : State) : State :=
  s.setIso { s.iso with phase := .idle, bridge := .opened, phaseTimer := .stopped }

/-- A check pulse that waited for the end of the window begins (R82). -/
def Htr.startWaitingPulse (h : Htr) : Htr :=
  { h with check := h.check.map fun ck => if ck.waiting then { ck with pulseOn := true, waiting := false } else ck }

/-- The window's state becomes IDLE, and a waiting check pulse begins (R74, R82). -/
def releaseWindow (s : State) : State :=
  (s.setAlc { s.alc with window := .idle }).setHtr s.htr.startWaitingPulse

/-- A baseline that ended without a result returns to BASELINE_WAIT; a probe stays PROBING (R121, R122). -/
def Localization.unmeasured : Localization → Localization
  | .baseline => .baselineWait
  | l => l

/-- A measurement in flight is discarded (R108). -/
def discardMeasurement (s : State) : State :=
  let t := monitorIdle s
  releaseWindow (t.setIso { t.iso with localization := t.iso.localization.unmeasured })

/-- A waiting request is withdrawn (R104). -/
def abandonMeasurement (s : State) : State :=
  let t := monitorIdle s
  let u := t.setIso { t.iso with localization := t.iso.localization.unmeasured }
  u.setAlc { u.alc with window := .idle }

/-- HTR reports a change of switch positions: a measurement in flight restarts, or is discarded at the third (R109). -/
def switchChange (s : State) : State :=
  if s.iso.phase.inFlight then
    if s.iso.restarts < 2 then startSettle (s.setIso { s.iso with restarts := s.iso.restarts + 1 })
    else discardMeasurement s
  else s

/-! ## The overdue condition (R65, R102) -/

/-- The overdue limit in 10 ms conversions: three times the period in force (R102). -/
def overdueLimit (i : Iso) : Nat := 3 * i.period * 100

/-- ISO re-tests the condition; a change to true is reported to the allocator, which suspends a HELD hold (R65, R102). A change to
false without a completion (a longer period taken into use) leaves a SUSPENDED hold SUSPENDED until the next completion: the
spec names no restoration there (log entry 36). -/
def testOverdue (s : State) : State :=
  let now := decide (overdueLimit s.iso ≤ s.iso.age)
  let t := s.setIso { s.iso with overdue := now }
  if now && !s.iso.overdue then suspendHold t else t

/-- The age rises by one conversion, up to 65,535 s (R102). -/
def raiseAge (s : State) : State := testOverdue (s.setIso { s.iso with age := min 6553500 (s.iso.age + 1) })

/-- A completed measurement: age 0, condition re-tested, hold restored (R66, R102, R111). -/
def completeMeasurement (s : State) : State :=
  restoreHold (testOverdue (s.setIso { s.iso with age := 0 }))

/-! ## The result (R110, R111) -/

/-- One side's resistance: from the intermediate figure x, less the divider in parallel, clamped to 50,000 kΩ (R110,
step 4). -/
def withoutDivider (rdiv x : Nat) : Nat := if rdiv ≤ x then 50000 else min 50000 (x * rdiv / (rdiv - x))

/-- Rp, Rn, R_iso and the per-volt figure, or none when the result is not valid (R110). -/
def bridgeResult (rref rdiv upA unA upB unB : Nat) : Option (Nat × Nat × Nat × Nat) :=
  if upB * unA ≤ upA * unB then none
  else
    let d := upB * unA - upA * unB
    let rp := if upB < 5 then 0
      else if unB = 0 then 50000
      else withoutDivider rdiv (rref * d / (unB * (unA + upA)))
    let rn := if unA < 5 then 0
      else if upA = 0 then 50000
      else withoutDivider rdiv (rref * d / (upA * (unB + upB)))
    let r := min rp rn
    some (rp, rn, r, min 65535 (r * 10000 / (upB + unB)))

/-- The class of a per-volt figure against the thresholds of entry 7 (R111). -/
def classOfFigure (s : State) (perVolt : Nat) : ResultClass :=
  if warningThreshold s ≤ perVolt then .good else if faultThreshold s ≤ perVolt then .warning else .fault

/-- The result of the last voltages, classed (R110, R111). -/
def measuredResult (s : State) : Option IsoResult :=
  (bridgeResult s.iso.rref s.iso.rdiv s.iso.upA s.iso.unA s.iso.upB s.iso.unB).map fun r =>
    ⟨r.1, r.2.1, r.2.2.1, r.2.2.2, classOfFigure s r.2.2.2⟩

end Sys2Proof.Machine
end

