-- ==== Sys2Proof/Machine/Heater.lean ====
section
/-! DEFINITION. Machine/Heater.lean: the heater controller's shared operations (chapter 5): switch positions and their report,
the pending heating mode, start-up checks, de-energization, probes, conversions, and the application of a grant record. -/

namespace Sys2Proof.Machine

/-! ## Zones -/

def Htr.setZone (h : Htr) (z : Fin 8) (x : Zone) : Htr := { h with zones := h.zones.set z x }

/-- Zone z's state becomes st. -/
def Htr.enter (h : Htr) (z : Fin 8) (st : ZoneState) : Htr := h.setZone z { h.zones[z] with state := st }

/-- Where a zone goes that leaves ENERGIZED: DWELL with the dwell of the mode in force, or OFF when that is 0 (R91). -/
def restingState (dwell : Nat) : ZoneState := if dwell = 0 then .off else .dwell dwell

/-- An ENERGIZED zone is de-energized and leaves the energized set. -/
def Htr.deenergize (h : Htr) (z : Fin 8) (st : ZoneState) : Htr :=
  let t := h.enter z st
  { t with energized := t.energized.filter (fun x => decide (x ≠ z)) }

/-! ## Switch positions (R76, Table 5-1) -/

/-- The high-side and low-side switches of a zone, true when closed. -/
def switches (h : Htr) (z : Fin 8) : Bool × Bool :=
  match h.zones[z].state with
  | .energized => (true, true)
  | .probed _ => (true, false)
  | .checking =>
    match h.check with
    | some ck => if ck.zone = z then (ck.pulseOn, ck.pulseOn) else (false, false)
    | none => (false, false)
  | _ => (false, false)

def switchMap (h : Htr) : List (Bool × Bool) := zoneIds.map (switches h)

/-- HTR reports the switch changes of one event, since the heater stood at `before`, as one report (R76, R109). -/
def reportSwitches (before : Htr) (s : State) : State :=
  if switchMap before = switchMap s.htr then s else switchChange s

/-! ## The pending heating mode (R95) -/

def ZoneState.isHot : ZoneState → Bool
  | .energized | .checking => true
  | _ => false

/-- Some zone is ENERGIZED or CHECKING. -/
def anyHot (h : Htr) : Bool := zoneIds.any fun z => h.zones[z].state.isHot

/-- The pending mode is applied when no zone is ENERGIZED or CHECKING (R95). -/
def applyPending (s : State) : State :=
  match s.htr.pendingMode with
  | none => s
  | some m =>
    if anyHot s.htr then s
    else raise .planApplied (s.setHtr { s.htr with mode := m, pendingMode := none, p := 0, s := m.start })

/-- What follows every change of the heater: the switch report, the pending mode, the demand line (R27, R76, R95). -/
def heaterChanged (before : Htr) (s : State) : State := evalDemand (applyPending (reportSwitches before s))

/-! ## Start-up checks (R82 to R84) -/

/-- A check ends with the zone in state st: the record is dropped, the slot timer stops and the boundary-due flag is set (R83,
R84). -/
def Htr.endCheck (h : Htr) (z : Fin 8) (st : ZoneState) : Htr :=
  { h.enter z st with check := none, slotTimer := .stopped, boundaryDue := true }

/-- A check under way is aborted with its zone in state st (R84). -/
def Htr.abortCheck (h : Htr) (st : ZoneState) : Htr :=
  match h.check with
  | some ck => h.endCheck ck.zone st
  | none => h

/-- I_exp (R82). -/
def expectedCurrent (rating uBus : Nat) : Nat := rating * 100 / uBus

/-- A check of zone z begins; on a bus below 50.0 V it is aborted before any pulse (R82). -/
def Htr.beginCheck (h : Htr) (z : Fin 8) (uBus : Nat) : Htr :=
  if uBus < Config.energizedAt then { h with slotTimer := .stopped, boundaryDue := true }
  else { h.enter z .checking with
    check := some ⟨z, expectedCurrent h.zones[z].rating uBus, false, none, false, false⟩ }

/-- The judgement of one pulse (R82). -/
def judgePulse (iExp i : Nat) : PulseResult :=
  if 2 * i < iExp then .low else if 2 * i ≤ 3 * iExp then .pass else .high

/-- The judgement of a pulse pair: the zone's state, or none when the pair is repeated (R83). -/
def judgePair (repeated : Bool) (a b : PulseResult) : Option ZoneState :=
  match a, b with
  | .pass, .pass => some .off
  | .low, .low => some (.faulted .open)
  | .high, .high => some (.faulted .short)
  | _, _ => if repeated then some (.faulted .unstable) else none

/-! ## De-energization outside the grant (R94) -/

/-- Every ENERGIZED zone rests, a CHECKING zone returns to UNCHECKED, and the energized set is empty (R94). -/
def Htr.allOff (h : Htr) : Htr :=
  let t := h.abortCheck .unchecked
  { t with
    zones := t.zones.map fun x => if x.state = .energized then { x with state := restingState t.mode.dwell } else x
    energized := [] }

/-- HTR de-energizes every zone at once (R94). -/
def forcedDeenergize (s : State) : State := heaterChanged s.htr (s.setHtr s.htr.allOff)

/-! ## Probes (R96, R122) -/

/-- What a probed zone will return to; none for a zone the heater does not take (R96). -/
def ZoneState.probeBase : ZoneState → Option BeforeProbe
  | .unchecked => some .unchecked
  | .off => some .off
  | .dwell n => some (.dwell n)
  | _ => none

def BeforeProbe.back : BeforeProbe → ZoneState
  | .unchecked => .unchecked
  | .off => .off
  | .dwell n => .dwell n

/-- The heater takes a zone into PROBED: lockout set, zone OFF, DWELL or UNCHECKED, rating in use above 0 (R96). -/
def probeTakes (s : State) (z : Fin 8) : Option BeforeProbe :=
  if s.iso.lockout && decide (0 < (s.zone z).rating) then (s.zone z).state.probeBase else none

/-- A probed zone leaves PROBED: to FAULTED LEAK when marked, else to its previous state (R96). -/
def Htr.leaveProbe (h : Htr) (z : Fin 8) (leak : Bool) : Htr :=
  match h.zones[z].state with
  | .probed b => h.enter z (if leak then .faulted .leak else b.back)
  | _ => h

/-- The monitor ends the probe of zone z; LEAK raises HEATER_FAULT (R96). -/
def endProbe (z : Fin 8) (leak : Bool) (s : State) : State :=
  heaterChanged s.htr (raiseIf leak .heaterFault (s.setHtr (s.htr.leaveProbe z leak)))

/-! ## Conversions (R77, R78, R93) -/

/-- A converted temperature, clamped to −500 to +1,500 (R77). -/
def convertReading (r : Thermistor) : Option Int := r.map fun t => max (-500) (min 1500 t)

/-- The want flag after a valid conversion (R78). -/
def wantAfter (target : Int) (hysteresis : Nat) (t : Int) (before : Bool) : Bool :=
  if t ≤ target - hysteresis then true else if target ≤ t then false else before

/-- A zone loses its sensor at this conversion: it was valid, or this is its first (R77). -/
def losesSensor (h : Htr) (z : Fin 8) (t : Option Int) : Bool :=
  t.isNone && (h.zones[z].temp.isSome || !h.converted)

/-- The zone is at or above its over-temperature limit, target + 10.0 °C (R93). -/
def overLimit (s : State) (z : Fin 8) (t : Option Int) : Bool :=
  match t with
  | some v => (s.zone z).state.isHot && decide (zoneTarget s z + 100 ≤ v)
  | none => false

/-- The temperature and the want flag of a zone after its conversion (R77, R78). -/
def convertedZone (s : State) (z : Fin 8) (t : Option Int) : Zone :=
  { s.zone z with
    temp := t
    want := match t with
      | some v => wantAfter (zoneTarget s z) (zoneHysteresis s z) v (s.zone z).want
      | none => (s.zone z).want }

/-- The heater after the zone's conversion (R77, R78, R93). -/
def convertZone (s : State) (z : Fin 8) (r : Thermistor) : Htr :=
  let t := convertReading r
  let h := s.htr.setZone z (convertedZone s z t)
  if overLimit s z t then
    if (s.zone z).state = .checking then h.endCheck z (.faulted .overtemp)
    else h.deenergize z (.faulted .overtemp)
  else if t.isNone && (s.zone z).state == .energized then h.deenergize z (restingState h.mode.dwell)
  else h

/-- One zone's conversion, with HEATER_FAULT when its sensor is lost or it is over its limit (R77, R93). -/
def heaterConvert (z : Fin 8) (r : Thermistor) (s : State) : State :=
  let t := convertReading r
  raiseIf (losesSensor s.htr z t || overLimit s z t) .heaterFault (s.setHtr (convertZone s z r))

/-! ## Applying a grant record (R80, R91, R92) -/

/-- The zone set as the heater applies it: empty while the lockout is set or the grade is FAULT or UNKNOWN (R91). -/
def appliedSet (s : State) (r : GrantRecord) : List (Fin 8 × Nat) := if insulationOk s then r.zones else []

/-- The rating a zone set carries for a zone (R80). -/
def carriedRating (zs : List (Fin 8 × Nat)) (z : Fin 8) : Option Nat := (zs.find? fun x => x.1 == z).map Prod.snd

/-- Step 1: the ratings in use (R80). -/
def takeRatings (s : State) (zs : List (Fin 8 × Nat)) (h : Htr) : Htr :=
  { h with zones := Vector.ofFn fun z => { h.zones[z] with rating := (carriedRating zs z).getD (zoneRating s z) } }

def inSet (zs : List (Fin 8 × Nat)) (z : Fin 8) : Bool := zs.any fun x => x.1 == z

/-- Step 2: ENERGIZED zones outside the set are de-energized; a check whose zone is outside the set, or no longer enabled, is
aborted (R84, R91). -/
def shedOutside (zs : List (Fin 8 × Nat)) (h : Htr) : Htr :=
  let t := (h.energized.filter fun z => !inSet zs z).foldl (fun g z => g.deenergize z (restingState g.mode.dwell)) h
  match t.check with
  | some ck =>
    if inSet zs ck.zone && decide (0 < t.zones[ck.zone].rating) && t.mode.mask.getLsbD ck.zone.val then t
    else t.endCheck ck.zone .unchecked
  | none => t

/-- Step 3 for one zone of the set: OFF with a valid temperature, it goes to ENERGIZED and joins the energized set (R91); which records
do so says energizeSet. -/
def energizeZone (z : Fin 8) (h : Htr) : Htr :=
  if h.zones[z].state == .off && h.zones[z].temp.isSome then
    { h.enter z .energized with energized := h.energized ++ [z] }
  else h

/-- Step 3 over the record's zone set, in its order. A record between two boundaries energizes no zone, and a record under a quiet
window is none of a boundary: a zone that has gone to OFF since the record was computed waits for a boundary (R50, R73, R90).
A boundary record energizes its zones though a check phase has begun since it was computed; that R91 stands there over R81 is log
entry 39. -/
def energizeSet (r : GrantRecord) (zs : List (Fin 8 × Nat)) (h : Htr) : Htr :=
  if r.boundary then zs.foldl (fun h x => energizeZone x.1 h) h else h

/-- A candidate in the set starts its check, unless a zone is CHECKING or a heating mode is pending (R82, R91, R95). -/
def startCheck (zs : List (Fin 8 × Nat)) (uBus : Nat) (h : Htr) : Htr :=
  match candidateOf h with
  | some z => if inSet zs z && h.check.isNone && h.pendingMode.isNone then h.beginCheck z uBus else h
  | none => h

/-- A boundary counts down a zone that was in DWELL before the record was applied (R91, R92). -/
def countDown (before now : Zone) : Zone :=
  match before.state, now.state with
  | .dwell _, .dwell n => if n ≤ 1 then { now with state := .off } else { now with state := .dwell (n - 1) }
  | _, _ => now

/-- The turn after a boundary record: its p, or the sweep step of a completed round (R86, R91; log entry 9). -/
def adoptTurn (r : GrantRecord) (h : Htr) : Htr :=
  if r.moves then
    if r.round && h.mode.sweep then { h with s := Fin.ofNat 8 (h.s.val + burstLen h), p := 0 }
    else { h with p := Fin.ofNat 8 (r.p.val % burstLen h) }
  else h

/-- The three further steps for a record computed at a boundary (R91). -/
def boundarySteps (before : Htr) (r : GrantRecord) (h : Htr) : Htr :=
  if r.boundary then
    let t := { h with zones := Vector.ofFn fun z => countDown before.zones[z] h.zones[z] }
    { adoptTurn r t with slotTimer := .running Config.slotMs, boundaryDue := false }
  else h

/-- The heater after it has applied record r (R91). -/
def appliedHeater (s : State) (r : GrantRecord) : Htr :=
  let zs := appliedSet s r
  let h1 := shedOutside zs (takeRatings s zs s.htr)
  let h2 := energizeSet r zs h1
  let h3 := startCheck zs s.iso.uBus h2
  { boundarySteps s.htr r h3 with applied := r }

/-- HTR applies a grant record (R91). -/
def applyRecord (r : GrantRecord) (s : State) : State := heaterChanged s.htr (s.setHtr (appliedHeater s r))

end Sys2Proof.Machine
end

