-- ==== Sys2Proof/Machine/Grade.lean ====
section
/-! DEFINITION. Machine/Grade.lean: the grade, the lockout and the localization (chapters 6 and 7), and what follows a valid
result. -/

namespace Sys2Proof.Machine

/-! ## Grade and lockout -/

def ResultClass.toGrade : ResultClass → Grade
  | .good => .good
  | .warning => .warning
  | .fault => .fault

/-- The localization begins a run: BASELINE_WAIT with no zone marked (R117). -/
def beginRun (i : Iso) : Iso :=
  { i with localization := .baselineWait, marked := 0, lastExamined := none, baselineClass := none }

/-- A change of grade to FAULT sets the lockout, or begins a new run under a lockout already SET in DONE_NONE (R117). -/
def setLockout (s : State) : State :=
  if s.iso.lockout then
    if s.iso.localization = .doneNone then s.setIso (beginRun s.iso) else s
  else raise .lockoutChange (s.setIso { beginRun s.iso with lockout := true })

/-- What follows a grade that left GOOD and WARNING, or became FAULT: the hold ends, the lockout is set, the session closes, every
zone is de-energized (R67, R94, R113, R117). -/
def gradeLost (old new : Grade) (s : State) : State :=
  let a := if old.isProven && !new.isProven then endHoldByGrade s else s
  let b := if new = .fault then closeSession .isolation (setLockout a) else a
  if old.isProven && !new.isProven || new = .fault then forcedDeenergize b else b

/-- A change of grade, handed to the neighbours at once (R112, R113). -/
def changeGrade (new : Grade) (s : State) : State :=
  if new = s.iso.grade then s
  else
    evalDemand
      (gradeLost s.iso.grade new
        (raise .gradeChange (s.setIso { s.iso with grade := new, candidate := none })))

/-- The grade decision of a valid PERIODIC result of class r (R112). -/
def decideGrade (r : ResultClass) (s : State) : State :=
  if s.iso.grade = .unknown then changeGrade r.toGrade s
  else if r.toGrade = s.iso.grade then s.setIso { s.iso with candidate := none }
  else if r = .fault then changeGrade .fault s
  else if s.iso.candidate = some r then changeGrade r.toGrade s
  else s.setIso { s.iso with candidate := some r }

/-! ## The localization -/

/-- The localization's own measurements take the place of the periodic ones (R103). -/
def Localization.suspendsPeriodic : Localization → Bool
  | .baselineWait | .baseline | .probing _ | .probeWait => true
  | .idle | .doneCulprit | .doneNone => false

/-- The localization conditions of a conversion (R119). -/
def localizable (s : State) : Bool :=
  decide (Config.energizedAt ≤ s.iso.uBus) && busLive s && s.alc.record.mode == .off && s.iso.phase == .idle

/-- A valid baseline result (R121). -/
def takeBaseline (c : ResultClass) (s : State) : State :=
  s.setIso { s.iso with
    baselineClass := some c, lastExamined := none
    localization := if c = .fault then .doneNone else .probeWait }

/-- A valid probe result of zone z: a culprit is counted, and the next zone is sought (R122). -/
def takeProbe (z : Fin 8) (c : ResultClass) (s : State) : State :=
  s.setIso { s.iso with
    localization := .probeWait, lastExamined := some z
    marked := if c = .fault then s.iso.marked + 1 else s.iso.marked }

/-- The zones above the last one examined, in index order (R122). -/
def zonesAfter (last : Option (Fin 8)) : List (Fin 8) :=
  match last with
  | none => zoneIds
  | some l => zoneIds.filter fun z => decide (l < z)

/-- The next zone the heater takes into PROBED, with the state it will return to (R122). -/
def nextProbe (s : State) : Option (Fin 8 × BeforeProbe) :=
  (zonesAfter s.iso.lastExamined).findSome? fun z => (probeTakes s z).map fun b => (z, b)

/-- The zone goes to PROBED, and its measurement is requested (R122). -/
def startProbe (z : Fin 8) (b : BeforeProbe) (s : State) : State :=
  let t := heaterChanged s.htr (s.setHtr (s.htr.enter z (.probed b)))
  requestMeasurement .probe (t.setIso { t.iso with localization := .probing z, lastExamined := some z })

/-- The lockout becomes CLEAR (R123, R124). -/
def clearTheLockout (s : State) : State := raise .lockoutChange (s.setIso { s.iso with lockout := false })

/-- The run ends (R123). -/
def endRun (s : State) : State :=
  if s.iso.marked = 0 then s.setIso { s.iso with localization := .doneNone }
  else
    let t := clearTheLockout (s.setIso { s.iso with localization := .doneCulprit, candidate := none })
    evalDemand (match s.iso.baselineClass with | some c => changeGrade c.toGrade t | none => t)

/-- What the localization does at a conversion (R120 to R122). -/
def localizationStep (s : State) : State :=
  if localizable s then
    match s.iso.localization with
    | .baselineWait => requestMeasurement .baseline (s.setIso { s.iso with localization := .baseline })
    | .probing _ => requestMeasurement .probe s
    | .probeWait =>
      match nextProbe s with
      | some (z, b) => startProbe z b s
      | none => endRun s
    | _ => s
  else s

/-- An energization after a long dead period restarts a run that is probing (R122). -/
def restartRun (s : State) : State :=
  match s.iso.localization with
  | .probing z => endProbe z false (s.setIso (beginRun s.iso))
  | .probeWait => s.setIso (beginRun s.iso)
  | _ => s

/-! ## Energization after a long dead period (R106) -/

def longDeadEnergization (s : State) : State :=
  let a := s.setIso { s.iso with longDead := false }
  let b := restartRun (changeGrade .unknown a)
  if b.iso.phase == .idle && !b.iso.localization.suspendsPeriodic then requestMeasurement .periodic b else b

/-! ## A valid result (R111) -/

/-- Step 3 of R111: the use of the result by its purpose. -/
def useResult (c : ResultClass) (s : State) : State :=
  match s.iso.purpose, s.iso.localization with
  | some .baseline, .baseline => takeBaseline c s
  | some .probe, .probing z => takeProbe z c s
  | _, _ => decideGrade c s

/-- After the release, the probe of a probed zone ends (R122). -/
def endProbeAfter (purpose : Option Purpose) (l : Localization) (c : ResultClass) (s : State) : State :=
  match purpose, l with
  | some .probe, .probing z => endProbe z (c == .fault) s
  | _, _ => s

/-- The five steps of a valid result; the phase has ended, so no switch change of this event reaches the measurement (R109,
R111, R122). -/
def validResult (r : IsoResult) (s : State) : State :=
  let a := (monitorIdle s).setIso { (monitorIdle s).iso with latest := some r }
  let b := useResult r.cls (updateSummary r a)
  endProbeAfter s.iso.purpose s.iso.localization r.cls (releaseWindow (completeMeasurement b))

/-- The end of SAMPLE_B: the result is computed, or the measurement is discarded (R107, R108, R110). -/
def finishMeasurement (s : State) : State :=
  let t := s.setIso { s.iso with upB := s.iso.sumUpB / 16, unB := s.iso.sumUnB / 16 }
  match measuredResult t with
  | some r => validResult r t
  | none => discardMeasurement t

end Sys2Proof.Machine
end

