-- ==== Sys2Proof/Machine/Allocator.lean ====
section
/-! DEFINITION. Machine/Allocator.lean: one allocation interval (chapter 3): the stages from the supply on offer to the published
grant record, and what its publication sets going. -/

namespace Sys2Proof.Machine

/-! ## From the supply to the grid budget (R40 to R42) -/

/-- P_sup (R40). -/
def pSup (s : State) : Nat :=
  if s.sup.pilot = .offer ∧ s.sup.supplyPresent = true ∧ s.ses.plug = .plugged then
    s.sup.nPh * s.sup.uMin * s.sup.iPil / 100
  else 0

/-- The conditions of P_in (R41). -/
def inputAllowed (s : State) : Bool :=
  s.ses.session == .opened && insulationOk s && s.alc.stage == .available && s.sup.demand == .ready
    && s.sup.withdrawal == .none && !s.commission

/-- P_in (R41). -/
def pIn (s : State) : Nat :=
  if inputAllowed s then min (pSup s) (min (siteCap s) (Config.pHw s.threePhases)) else 0

/-- B_grid (R42). -/
def bGrid (s : State) : Nat := pIn s * efficiency s / 1000

/-! ## Charger mode and budget source (R43 to R46) -/

/-- The bus live flag contradicts the mode in force (R46). -/
def contradiction (s : State) : Bool :=
  match s.alc.record.mode with
  | .charge => !busLive s
  | .busSupply => busLive s
  | .off => false

/-- The PACK source applies in an interval of mode OFF (R44). -/
def packApplies (s : State) : Bool :=
  busLive s && heatingPermitted s && heatingAllowed s && insulationOk s && !s.commission

/-- Mode, source and B of an interval (Table 3-3). -/
structure Choice where
  mode : Mode
  source : Source
  b : Nat
  deriving DecidableEq, Repr

/-- Mode OFF, with source PACK if R44 applies, else NONE. -/
def offChoice (s : State) : Choice :=
  if packApplies s then ⟨.off, .pack, packBudget s⟩ else ⟨.off, .none, 0⟩

/-- The choice of mode and source (Table 3-3, R43). -/
def choose (s : State) : Choice :=
  if contradiction s then offChoice s
  else if s.alc.changeover.isRunning then offChoice s
  else if 0 < bGrid s ∧ busLive s = true then ⟨.charge, .grid, bGrid s⟩
  else if 0 < bGrid s ∧ busLive s = false ∧ heatDemand s = true then ⟨.busSupply, .grid, bGrid s⟩
  else offChoice s

/-! ## The requests (R47, R48) -/

/-- I_acc as the interval uses it: 0 while the acceptance is STALE (R8). -/
def iAcc (s : State) : Nat := if s.alc.fresh then iAccEntry s else 0

/-- A quiet window is in force for the interval (R52, R71). -/
def windowInForce (s : State) : Bool := s.alc.window == .granted

/-- A boundary record is on its way to HTR, which has not applied it yet (R50; log entry 6). -/
def boundaryTaken (s : State) : Bool := s.htr.inbox.any (·.boundary)

/-- The interval is a slot boundary (R50, R87). -/
def slotBoundaryDue (s : State) : Bool := s.htr.boundaryDue && !windowInForce s && !boundaryTaken s

/-- The zones whose ratings make R_heat (R47). -/
def heatZones (s : State) : List (Fin 8) := if slotBoundaryDue s then turnQueue s else publishedSet s

/-- R_heat, R_aux and R_chg (R47, R48). -/
def requestOf (s : State) (ch : Choice) : Consumer → Nat
  | .heat => if ch.source = .none then 0 else ratingSum (withRatings s (heatZones s))
  | .aux => if ch.source = .grid then auxRequest s else 0
  | .chg =>
    if ch.mode = .charge ∧ chargeEnable s = true ∧ 0 < iAcc s ∧ s.iso.uBus < uMaxEntry s then
      s.iso.uBus * iAcc s / 100
    else 0

/-! ## The ranked division (R49, R50) -/

/-- The heat grant quantized by the rule that applies to the interval (R50). -/
def quantize (s : State) (g : Nat) : Quantized := if slotBoundaryDue s then prefixRule s g else keepOrShed s g

/-- What has been granted, and what remains. -/
structure Division where
  remaining : Nat
  heat : Quantized
  gAux : Nat
  gChg : Nat
  deriving DecidableEq, Repr

/-- HEAT and AUX are taken with want = 0 while a rest is in force in CHARGE mode (R49). -/
def restDrops (s : State) (ch : Choice) : Bool := s.alc.resting && ch.mode == .charge

/-- min(R, cap), or 0 under a rest in CHARGE mode (R49, step 1). -/
def wantOf (s : State) (ch : Choice) (c : Consumer) : Nat :=
  if restDrops s ch && c != .chg then 0 else min (requestOf s ch c) (capOf s c)

/-- Steps 2 and 3: the grant before quantization (R49). -/
def grantBeforeFloor (s : State) (ch : Choice) (c : Consumer) (remaining : Nat) : Nat :=
  let g := min (wantOf s ch c) remaining
  if g < floorOf s c then 0 else g

/-- One consumer served (R49). -/
def serve (s : State) (ch : Choice) (d : Division) (c : Consumer) : Division :=
  let g := grantBeforeFloor s ch c d.remaining
  match c with
  | .heat => { d with heat := quantize s g, remaining := d.remaining - ratingSum (quantize s g).zones }
  | .aux => { d with gAux := g, remaining := d.remaining - g }
  | .chg => { d with gChg := g, remaining := d.remaining - g }

/-- A consumer inserted behind those of its rank and below (R49). -/
def insertByRank (s : State) (c : Consumer) : List Consumer → List Consumer
  | [] => [c]
  | x :: rest => if rankOf s x ≤ rankOf s c then x :: insertByRank s c rest else c :: x :: rest

/-- The consumers in ascending rank, equal ranks in the order HEAT, AUX, CHG (R4, R49). -/
def serviceOrder (s : State) : List Consumer :=
  insertByRank s .chg (insertByRank s .aux [.heat])

/-- The division of B (R49). -/
def divide (s : State) (ch : Choice) : Division :=
  (serviceOrder s).foldl (serve s ch) ⟨ch.b, ⟨[], false, false, s.htr.p, false⟩, 0, 0⟩

/-! ## Ramp, holds and set-point (R51 to R53) -/

/-- S after the ramp (R51). -/
def ramped (s : State) (gChg : Nat) : Nat :=
  if s.alc.record.s < gChg then min gChg (s.alc.record.s + rampStep s) else gChg

/-- S of the record: 0 under a quiet window, a rest or a bus below 50.0 V (R52, R53). -/
def setPower (s : State) (gChg : Nat) : Nat :=
  if windowInForce s || s.alc.resting || decide (s.iso.uBus < Config.energizedAt) then 0 else ramped s gChg

/-- I_set (R53). -/
def setCurrent (s : State) (power : Nat) : Nat :=
  if s.iso.uBus < Config.energizedAt then 0 else min (power * 100 / s.iso.uBus) (iAcc s)

/-! ## The grant record (R54) -/

/-- The grant record of the interval, from the inputs as they stand (R38, R54). -/
def computeRecord (s : State) : GrantRecord :=
  let ch := choose s
  let d := divide s ch
  let power := setPower s d.gChg
  { seq := s.alc.record.seq + 1
    source := ch.source
    mode := ch.mode
    b := ch.b
    gHeat := ratingSum d.heat.zones
    zones := d.heat.zones
    boundary := slotBoundaryDue s
    moves := d.heat.moves
    p := d.heat.p
    round := d.heat.round
    gAux := d.gAux
    gChg := d.gChg
    s := power
    iSet := setCurrent s power
    target := supplyTarget s
    uMax := uMaxEntry s
    unused := d.remaining + (d.gChg - power)
    hold := s.alc.hold
    rest := s.alc.resting
    window := windowInForce s
    stage := s.alc.stage
    cause := s.alc.cause }

/-- The acceptance freshness after a record of the given mode is published (R8). -/
def freshAfter (old new : Mode) (a : Alc) : Alc :=
  if new = .charge then
    if old = .charge then a else { a with fresh := true, freshTimer := .running Config.freshnessMs }
  else { a with fresh := true, freshTimer := .stopped }

/-- The changeover timer after a record of the given mode is published (R45). -/
def changeoverAfter (old new : Mode) (t : Timer) : Timer :=
  if new = .off ∧ old ≠ .off then .running Config.changeoverMs else t

/-- The record becomes the record in force; the link sends it and mirrors 54–56 show it (R54, R57). HTR receives it (R55). -/
def publish (r : GrantRecord) (s : State) : State :=
  let gap := changeoverAfter s.alc.record.mode r.mode s.alc.changeover
  let a := freshAfter s.alc.record.mode r.mode s.alc
  let t := s.setAlc { a with
    record := r, changeover := gap, link := linkOf r, uBusRead := s.iso.uBus
    mirror54 := mirror54Of r
    mirror55 := mirror55Of r
    mirror56 := mirror56Of r s.iso.uBus (s.sup.demand == .ready) gap.isRunning }
  t.setHtr { t.htr with inbox := t.htr.inbox ++ [r] }

/-- The first step of an interval: a WAITING window becomes GRANTED unless the hold is HELD (R71). -/
def windowStep (s : State) : State :=
  if s.alc.window = .waiting ∧ s.alc.hold ≠ .held then s.setAlc { s.alc with window := .granted } else s

/-- STAGE_FAULT with cause BUS at a contradiction (R46). -/
def contradictionStep (s : State) : State := if contradiction s then stageFaultWith .bus s else s

/-- At the publication: the monitor's settling starts under a window granted by this interval, or by the rest that the record brings
into force (R71, R72). -/
def windowAtPublication (waiting : Bool) (s : State) : State :=
  if s.alc.window = .granted ∧ waiting = true then startSettle s
  else if s.alc.window = .waiting ∧ s.alc.record.rest = true then grantWindow s
  else s

/-- One allocation interval (R38 to R55). -/
def allocate (s : State) : State :=
  let a := contradictionStep (windowStep s)
  let b := publish (computeRecord a) a
  watchRecord (windowAtPublication (s.alc.window == .waiting) b)

end Sys2Proof.Machine
end

