-- ==== Sys2Proof/Machine/Boot.lean ====
section
/-! DEFINITION. Machine/Boot.lean: resets and power loss: the start state of every block from the configuration image and the
non-volatile memory (R16 to R18, R39, R75, R101, R145, R171, R172, R178, R183), and the port reset (R169). -/

namespace Sys2Proof.Machine

/-! ## The ports -/

def portIndex : PortId → Nat
  | .V => 0
  | .P => 1
  | .F => 2

/-- A port's windows in the image (R183). -/
def imageWindowsOf (image : Vector Word 200) (p : PortId) : Vector Window 4 :=
  Vector.ofFn fun i =>
    windowOf (imageWord image (8 * portIndex p + 2 * i.val)) (imageWord image (8 * portIndex p + 2 * i.val + 1))

/-- A port's start state before RESTART (R164, R171, R172, R175). -/
def bootPort (imageOk : Bool) (image : Vector Word 200) (p : PortId) (resetLine : Bool) : PortState :=
  let windows := if imageOk then imageWindowsOf image p else builtInWindows
  let mode := imageWord image (25 + 2 * portIndex p)
  { PortState.reset with
    windows := windows
    imageWindows := windows
    resetAsserted := resetLine
    pending := 0
    mask := if imageOk then imageWord image (24 + 2 * portIndex p) &&& 0x3FFF else 0x3FFF
    clearMode := if imageOk && flag mode 0 then .ackClears else .readClears
    lineMode := if imageOk && flag mode 1 then .pulse else .level
    attention := false }

/-- RESTART at the end of a power-on reset: it joins whatever the mask says, or is owed while the reset line is asserted
(R175, R178). -/
def PortState.takeRestart (pt : PortState) : PortState :=
  if pt.resetAsserted then { pt with restartOwed := true } else pt.join .restart

/-! ## The other blocks -/

def bootSes (pins : Pins) (imageOk : Bool) (image : Vector Word 200) : Ses :=
  { Ses.reset with
    rawA := pins.contactA
    rawB := pins.contactB
    scopedReset := imageOk && flag (imageWord image 30) 0
    defaultAccount := imageOk && flag (imageWord image 30) 1
    autoOpen := imageOk && flag (imageWord image 30) 2
    imageFault := !imageOk }

/-- The stage state from the two lines (R59). -/
def stageOf (ready fault : Bool) : StageState :=
  if fault then .faulted else if ready then .available else .notReady

def bootAlc (pins : Pins) : Alc :=
  let stage := stageOf pins.stageReady pins.stageFault
  let r := { GrantRecord.reset with stage := stage }
  { Alc.reset with
    record := r, stageReady := pins.stageReady, stageFault := pins.stageFault, stage := stage, mirror54 := mirror54Of r }

def bootHtr (plan : Vector Entry 53) (stage : StageState) : Htr :=
  let mode := heatingModeOf plan[8]
  { Htr.reset with
    zones := Vector.ofFn fun z : Fin 8 => Zone.reset (plan[zoneEntry z]).w2.toNat
    mode := mode
    s := mode.start
    applied := { GrantRecord.reset with stage := stage } }

def bootIso (plan : Vector Entry 53) (imageOk : Bool) (image : Vector Word 200) : Iso :=
  { Iso.reset with
    period := plan[7].w2.toNat
    periodTimer := .running (1000 * plan[7].w2.toNat)
    rref := if imageOk then clampTo 300 500 (imageWord image 34).toNat else Config.builtInRref
    rdiv := if imageOk then clampTo 3000 8000 (imageWord image 35).toNat else Config.builtInRdiv }

def bootMtr (imageOk : Bool) (image : Vector Word 200) : Mtr :=
  { Mtr.reset with
    gain1 := if imageOk then imageWord image 31 else Config.unityGain
    gain2 := if imageOk then imageWord image 32 else Config.unityGain
    gain3 := if imageOk then imageWord image 33 else Config.unityGain }

/-- Every block's start state, from the non-volatile memory as the restore left it (R171, R178). -/
def startState (pins : Pins) (nv : Nv) (free : Nat) (queue : List Instr) : State :=
  let image := nv.image
  let ok := imagePasses image
  let plan := loadPlan (Config.pHw pins.threePhases) ok image
  let alc := bootAlc pins
  { powered := true
    threePhases := pins.threePhases
    commission := pins.commission
    plan := plan
    planDefaults := defaultsOf plan
    portV := (bootPort ok image .V pins.resetV).takeRestart
    portP := (bootPort ok image .P pins.resetP).takeRestart
    portF := (bootPort ok image .F pins.resetF).takeRestart
    recordBuffer := none
    imageBuffer := if pins.commission then some image else none
    ses := bootSes pins ok image
    sup := .reset
    alc := alc
    htr := bootHtr plan alc.stage
    iso := bootIso plan ok image
    mtr := bootMtr ok image
    rst := .reset
    nv := nv
    free := free
    pending := queue }

/-! ## Power-on reset and power loss -/

/-- The non-volatile memory as a power-on reset finds it: a write in flight has been cut off (R36, R155). -/
def nvAtReset (cut : WriteCut) (s : State) : Nv := if s.powered then cutWrite s.free cut s.rst.writer s.nv else s.nv

/-- A power-on reset: restore, start state, RESTART, and the STORE_LOW the restore calls for (R155, R156, R178). -/
def powerOn (pins : Pins) (cut : WriteCut) (s : State) : State :=
  let nv := nvAtReset cut s
  let t := startState pins (restore nv) (if s.powered then s.free + 200 else s.free) s.pending
  if restoreAdds nv then raiseStoreLow t else t

/-- Loss of supply: the write in flight is cut off; in a part that has no supply yet, the loss falls inside the restore of a
power-on reset that had begun (R155, R156). -/
def losePower (cut : WriteCut) (s : State) : State :=
  { s with
    powered := false
    nv := if s.powered then cutWrite s.free cut s.rst.writer s.nv else restoreTo s.free cut s.nv
    free := s.free + 200 }

/-! ## Port reset (R169, R178) -/

/-- The port's own state at the assertion of its reset line (R169). -/
def PortState.atReset (pt : PortState) : PortState :=
  { pt.clearAccess.clearNotices with windows := pt.imageWindows, lastStatus := .ok, resetAsserted := true }

/-- What the port's reset releases: port V the departure hold, port P the rest, port F the tariff lock and the record buffer
(R68, R70, R142, R169). -/
def releaseOwned (p : PortId) (s : State) : State :=
  match p with
  | .V => dropHoldWithNotice s
  | .P => endRestWithNotice s
  | .F => breakLock (s.setRecordBuffer none)

/-- The assertion of a port's reset line (R169). -/
def resetPort (p : PortId) (s : State) : State :=
  if (s.port p).resetAsserted then s else releaseOwned p (s.setPort p (s.port p).atReset)

/-- The release of a port's reset line; a RESTART that is owed joins the set (R178). -/
def PortState.released (pt : PortState) : PortState :=
  let t := { pt with resetAsserted := false, restartOwed := false }
  if pt.restartOwed then t.join .restart else t

def releasePort (p : PortId) (s : State) : State :=
  if (s.port p).resetAsserted then s.setPort p (s.port p).released else s

/-! ## The meanings -/

def execPowerOnReset (pins : Pins) (cut : WriteCut) (s : State) : Result := .next (powerOn pins cut s)

def execPortReset (p : PortId) (s : State) : Result := live s (resetPort p)

def execPortResetRelease (p : PortId) (s : State) : Result := live s (releasePort p)

def execPowerLoss (cut : WriteCut) (s : State) : Result := .next (losePower cut s)

end Sys2Proof.Machine
end

