-- ==== Sys2Proof/Machine/Access.lean ====
section
/-! DEFINITION. Machine/Access.lean: the requests that every port admits (chapter 10, R176): malformed frames, NO OPERATION, entry
access, windows and notices. -/

namespace Sys2Proof.Machine

/-! ## Commits (R1, R2, R166) -/

/-- Port F's commit of a heating mode makes it pending (R11, R95). -/
def commitHeatingMode (s : State) : State :=
  heaterChanged s.htr (s.setHtr { s.htr with pendingMode := some (heatingModeOf (s.entry 8)) })

/-- A commit of entry 5 restarts the acceptance freshness timer while CHARGE is in force (R8). -/
def renewAcceptance (s : State) : State :=
  if s.alc.record.mode = .charge then
    s.setAlc { s.alc with fresh := true, freshTimer := .running Config.freshnessMs }
  else s

/-- What a stored commit sets going at once (R8, R11, R27). -/
def afterCommit (n : Fin 53) (s : State) : State :=
  if n = 4 then evalDemand s else if n = 5 then renewAcceptance s else if n = 8 then commitHeatingMode s else s

/-- The plan memory's part of a commit: tariff lock, field ranges, store (R2). -/
def commit (p : PortId) (n : Fin 53) (e : Entry) (s : State) : State × Status :=
  if isTariff n && !holdsLock s p then (s, .lockRequired)
  else (afterCommit n (storeEntry n e s), rangeStatus (Config.pHw s.threePhases) n e)

/-- The staged entry presented for commit at the third word (R166). -/
def present (p : PortId) (e : Entry) (s : State) : State × Status :=
  match if mirrorsOnly s p then none else mapWindow (s.port p) (s.port p).pointer with
  | none => (s, .outOfWindow)
  | some w =>
    if h : (w.entryOf (s.port p).pointer).toNat < 53 then
      if w.protect then (s, .readOnly) else commit p ⟨_, h⟩ e s
    else (s, .readOnly)

/-- Whatever the outcome of a commit, the port moves to the next local number (R166). -/
def PortState.nextEntry (pt : PortState) : PortState :=
  { pt with sub := 0, staging := .zero, staged := 0, pointer := pt.pointer + 1 }

/-! ## Malformed frames (R161, R163) -/

/-- The words a malformed frame returned: none when it ended inside its first word, else the status word and then 0, since a discarded
frame has no data (R161; log entry 14). -/
def cutFrameWords (pt : PortState) : FrameCut → List Word
  | .commandWord => []
  | .operands len | .tooSoon len => clocked len [statusWord pt]

def execFrameIncomplete (p : PortId) (how : FrameCut) (s : State) : Result :=
  live s fun s =>
    if (s.port p).resetAsserted then s
    else s.setPort p { s.port p with lastStatus := .sequence, returned := cutFrameWords (s.port p) how }

/-- A command word whose code Table 12-1 does not define; WellFormed says which those are (R163, R180). -/
def execUnknownCommand (f : Frame) (_code : BitVec 8) (s : State) : Result :=
  request f.port f.len anyPort s fun s => refuse s .unknownCommand

def execNoOperation (f : Frame) (s : State) : Result := request f.port f.len anyPort s fun s => ⟨s, .ok, []⟩

/-! ## Pointers (R164) -/

def execSetReadPointer (f : Frame) (arg : BitVec 8) (s : State) : Result :=
  request f.port f.len anyPort s fun s =>
    match argLocal arg with
    | none => refuse s .denied
    | some k =>
      let pt := { s.port f.port with pointer := k, direction := .read, sub := 0, staging := .zero, staged := 0 }
      ⟨s.setPort f.port (takeSnapshot s f.port k pt), if (readable s f.port k).isSome then .ok else .outOfWindow, []⟩

def execSetWritePointer (f : Frame) (arg : BitVec 8) (s : State) : Result :=
  request f.port f.len anyPort s fun s =>
    match argLocal arg with
    | none => refuse s .denied
    | some k =>
      ⟨s.setPort f.port { s.port f.port with
          pointer := k, direction := .write, sub := 0, staging := .zero, staged := 0, holding := .zero,
          snapshot := .none }, .ok, []⟩

/-- GET POINTER's word (R180). -/
def Direction.code : Direction → Nat
  | .none => 0
  | .read => 1
  | .write => 2

def pointerWord (pt : PortState) : Word :=
  fieldAt pt.pointer.toNat 0 ||| fieldAt pt.direction.code 8 ||| fieldAt pt.sub.val 12

def execGetPointer (f : Frame) (s : State) : Result :=
  request f.port f.len anyPort s fun s => ⟨s, .ok, [pointerWord (s.port f.port)]⟩

/-! ## READ WORD (R165) -/

/-- The port after a READ WORD: the sub-counter advances, and past the third word the pointer increments with a new snapshot. -/
def advanceRead (s : State) (p : PortId) : PortState :=
  let pt := s.port p
  if pt.sub = 2 then takeSnapshot s p (pt.pointer + 1) { pt with sub := 0, pointer := pt.pointer + 1 }
  else { pt with sub := nextSub pt.sub }

def execReadWord (f : Frame) (s : State) : Result :=
  request f.port f.len anyPort s fun s =>
    let pt := s.port f.port
    match pt.direction, pt.snapshot with
    | .read, .mapped => ⟨s.setPort f.port (advanceRead s f.port), .ok, [pt.holding.word pt.sub]⟩
    | .read, .unmapped => ⟨s.setPort f.port (advanceRead s f.port), .outOfWindow, [0]⟩
    | _, _ => ⟨s, .sequence, [0]⟩

/-! ## WRITE WORD (R166) -/

def execWriteWord (f : Frame) (w : Word) (s : State) : Result :=
  request f.port f.len anyPort s fun s =>
    let pt := s.port f.port
    match pt.direction with
    | .write =>
      let e := pt.staging.setWord pt.sub w
      if pt.sub = 2 then
        let r := present f.port e s
        ⟨r.1.setPort f.port (r.1.port f.port).nextEntry, r.2, []⟩
      else ⟨s.setPort f.port { pt with staging := e, staged := pt.staged + 1, sub := nextSub pt.sub }, .ok, []⟩
    | _ => refuse s .sequence

/-! ## Windows (R168) -/

def execProtectWindow (f : Frame) (arg : BitVec 8) (s : State) : Result :=
  request f.port f.len anyPort s fun s =>
    match argWindow arg with
    | none => refuse s .denied
    | some i =>
      let pt := s.port f.port
      ⟨s.setPort f.port { pt with windows := pt.windows.set i { pt.windows[i] with protect := true } }, .ok, []⟩

def execCloseWindow (f : Frame) (arg : BitVec 8) (s : State) : Result :=
  request f.port f.len anyPort s fun s =>
    match argWindow arg with
    | none => refuse s .denied
    | some i =>
      let pt := s.port f.port
      ⟨s.setPort f.port { pt with windows := pt.windows.set i { pt.windows[i] with enable := false } }, .ok, []⟩

/-! ## Notices (R176) -/

def execReadNotices (f : Frame) (s : State) : Result :=
  request f.port f.len anyPort s fun s =>
    let pt := s.port f.port
    match pt.clearMode with
    | .readClears => ⟨s.setPort f.port (pt.withSet 0), .ok, [pt.pending]⟩
    | .ackClears => ⟨s, .ok, [pt.pending]⟩

def execAckNotices (f : Frame) (w : Word) (s : State) : Result :=
  request f.port f.len anyPort s fun s =>
    let pt := s.port f.port
    match pt.clearMode with
    | .ackClears => ⟨s.setPort f.port (pt.withSet (pt.pending &&& ~~~ w)), .ok, []⟩
    | .readClears => refuse s .notPermitted

/-- The 2 µs pulse ends (R177). -/
def execAttentionPulseEnd (p : PortId) (s : State) : Result :=
  live s fun s =>
    if (s.port p).pulsing then s.setPort p { s.port p with pulsing := false, attention := false } else s

end Sys2Proof.Machine
end

