-- ==== Sys2Proof/Machine/Holds.lean ====
section
/-! DEFINITION. Machine/Holds.lean: the departure hold and the rest: their requests and timers (chapter 4). -/

namespace Sys2Proof.Machine

/-- The checks of DEPARTURE HOLD, in their order (R63). -/
def holdStatus (s : State) : Status :=
  if s.alc.hold ≠ .none then .busy
  else if s.iso.grade.isProven = false then .denied
  else if s.iso.lockout then .denied
  else if overdueLimit s.iso ≤ s.iso.age then .denied
  else .ok

def execDepartureHold (f : Frame) (s : State) : Result :=
  request f.port f.len [.V] s fun s =>
    if holdStatus s = .ok then
      ⟨s.setAlc { s.alc with hold := .held, holdTimer := .running Config.holdMs }, .ok, []⟩
    else refuse s (holdStatus s)

def execReleaseHold (f : Frame) (s : State) : Result :=
  request f.port f.len [.V] s fun s => if s.alc.hold = .none then refuse s .denied else ⟨dropHold s, .ok, []⟩

/-- The 30 min timer expires (R64). -/
def execHoldTimerExpiry (s : State) : Result :=
  live s fun s => if s.alc.holdTimer.isRunning then dropHoldWithNotice s else s

/-- The duration of a rest: the operand clamped to 1–120 s (R69). -/
def restSeconds (w : Word) : Nat := clampTo 1 120 w.toNat

def execRest (f : Frame) (w : Word) (s : State) : Result :=
  request f.port f.len [.P] s fun s =>
    ⟨s.setAlc { s.alc with resting := true, restTimer := .running (1000 * restSeconds w) },
      if restSeconds w = w.toNat then .ok else .okClamped, []⟩

def execEndRest (f : Frame) (s : State) : Result :=
  request f.port f.len [.P] s fun s => if s.alc.resting then ⟨endRest s, .ok, []⟩ else refuse s .denied

/-- The rest timer expires (R70). -/
def execRestTimerExpiry (s : State) : Result :=
  live s fun s => if s.alc.restTimer.isRunning then endRestWithNotice s else s

end Sys2Proof.Machine
end

