-- ==== Sys2Proof/Machine/SessionCommands.lean ====
section
/-! DEFINITION. Machine/SessionCommands.lean: port F's session and tariff requests, and the plug contacts' events (chapters 2
and 8). -/

namespace Sys2Proof.Machine

/-! ## Session requests -/

/-- The tag an AUTHORIZE carries: none with argument 0, the operand words with argument 1 (R31, R180). -/
def tagOperand (arg : BitVec 8) (t0 t1 t2 t3 : Word) : Option Tag := if arg = 1 then some ⟨t0, t1, t2, t3⟩ else none

def execAuthorize (f : Frame) (arg : BitVec 8) (t0 t1 t2 t3 : Word) (s : State) : Result :=
  request f.port f.len [.F] s fun s =>
    if arg = 0 ∨ arg = 1 then
      let tag := tagOperand arg t0 t1 t2 t3
      ⟨authorizeSession tag s, authorizeStatus s tag, []⟩
    else refuse s .denied

def execEndSession (f : Frame) (s : State) : Result :=
  request f.port f.len [.F] s fun s =>
    if s.ses.session = .opened then ⟨closeSession .ended s, .ok, []⟩ else refuse s .noSession

/-! ## Clock and tariff lock -/

/-- SET TIME's effect on the meter (R134). -/
def setClock (sec : Word32) (s : State) : State := s.setMtr { s.mtr with clock := some sec, tenths := 0 }

def execSetTime (f : Frame) (hi lo : Word) (s : State) : Result :=
  request f.port f.len [.F] s fun s => ⟨evaluateBand (setClock (join32 hi lo) s), .ok, []⟩

def execLockTariff (f : Frame) (s : State) : Result :=
  request f.port f.len [.F] s fun s =>
    if s.mtr.lockHeld then refuse s .busy
    else ⟨s.setMtr { s.mtr with lockHeld := true, lockTimer := .running Config.tariffLockMs }, .ok, []⟩

def execUnlockTariff (f : Frame) (s : State) : Result :=
  request f.port f.len [.F] s fun s =>
    if s.mtr.lockHeld then ⟨evaluateBand (freeLock s), .ok, []⟩ else refuse s .denied

/-- The 5 s lock timer expires (R140). -/
def execTariffLockExpiry (s : State) : Result :=
  live s fun s => if s.mtr.lockTimer.isRunning then breakLock s else s

/-! ## Plug contacts (R19, R20) -/

/-- A contact's timer after its raw level changed to `raw`: before its first debounced state it restarts; later it runs while the
level differs (R19). -/
def contactTimer (deb : Option Bool) (raw : Bool) : Timer :=
  if deb = some raw then .stopped else .running Config.debounceMs

def contactChange (contact : Contact) (raw : Bool) (s : State) : State :=
  match contact with
  | .A =>
    if s.ses.rawA = raw then s
    else s.setSes { s.ses with rawA := raw, timerA := contactTimer s.ses.debA raw }
  | .B =>
    if s.ses.rawB = raw then s
    else s.setSes { s.ses with rawB := raw, timerB := contactTimer s.ses.debB raw }

def execPlugContactChange (contact : Contact) (engaged : Bool) (s : State) : Result :=
  live s (contactChange contact engaged)

/-- The debounced states after the timers named, if running, have expired (R19). -/
def debounced (x : Ses) (a b : Bool) : Ses :=
  let ea := a && x.timerA.isRunning
  let eb := b && x.timerB.isRunning
  { x with
    debA := if ea then some x.rawA else x.debA
    timerA := if ea then .stopped else x.timerA
    debB := if eb then some x.rawB else x.debB
    timerB := if eb then .stopped else x.timerB }

def execDebounceExpiry (a b : Bool) (s : State) : Result :=
  live s fun s => derivePlug (s.setSes (debounced s.ses a b))

end Sys2Proof.Machine
end

