-- ==== Sys2Proof/Machine/StoreCommands.lean ====
section
/-! DEFINITION. Machine/StoreCommands.lean: collection, the image requests, and the completions of the store's writes (chapters 9
and 10). -/

namespace Sys2Proof.Machine

/-! ## Collection (R157 to R159) -/

def execCollect (f : Frame) (s : State) : Result :=
  request f.port f.len [.F] s fun s =>
    match oldest s.nv.slots with
    | none => ⟨s.setRecordBuffer none, .noRecord, []⟩
    | some (i, n) => ⟨s.setRecordBuffer (some ⟨n, copyOf s.nv.slots[i].content, 0⟩), .ok, []⟩

def execReadRecordWord (f : Frame) (s : State) : Result :=
  request f.port f.len [.F] s fun s =>
    match s.recordBuffer with
    | none => ⟨s, .noRecord, [0]⟩
    | some b =>
      match b.words[b.index]? with
      | some w => ⟨s.setRecordBuffer (some { b with index := b.index + 1 }), .ok, [w]⟩
      | none => ⟨s, .noRecord, [0]⟩

/-- The buffer after the release of record n: emptied when it holds a copy of it (R159). -/
def bufferWithout (n : Word32) (b : Option RecordCopy) : Option RecordCopy := b.filter fun c => c.number != n

def execRelease (f : Frame) (hi lo : Word) (s : State) : Result :=
  request f.port f.len [.F] s fun s =>
    match oldest s.nv.slots with
    | none => refuse s .noRecord
    | some (i, n) =>
      if n = join32 hi lo then
        ⟨(s.setNv (markSlot i .free s.nv)).setRecordBuffer (bufferWithout n s.recordBuffer), .ok, []⟩
      else refuse s .noRecord

/-! ## The image requests (R163, R173, R174) -/

/-- The image buffer; port F keeps one in the commissioning state (R171). -/
def theImageBuffer (s : State) : Vector Word 200 := s.imageBuffer.getD (Vector.replicate 200 0)

def execImageRead (f : Frame) (arg : BitVec 8) (s : State) : Result :=
  request f.port f.len [.F] s fun s =>
    if !s.commission then refuse s .notPermitted
    else if imageBusy s.rst then ⟨s, .busy, [0]⟩
    else match argImage arg with
      | none => ⟨s, .denied, [0]⟩
      | some i => ⟨s, .ok, [(theImageBuffer s)[i]]⟩

def execImageWrite (f : Frame) (arg : BitVec 8) (w : Word) (s : State) : Result :=
  request f.port f.len [.F] s fun s =>
    if !s.commission then refuse s .notPermitted
    else if imageBusy s.rst then refuse s .busy
    else match argImage arg with
      | none => refuse s .denied
      | some i => ⟨s.setImageBuffer (some ((theImageBuffer s).set i w)), .ok, []⟩

/-- An image store joins the writer (R174). -/
def queueImage (v : Vector Word 200) (s : State) : State :=
  match s.rst.writer with
  | .idle => s.setRst { s.rst with writer := .image v }
  | _ => s.setRst { s.rst with waitImage := some v }

def execImageStore (f : Frame) (s : State) : Result :=
  request f.port f.len [.F] s fun s =>
    if !s.commission then refuse s .notPermitted
    else if imageBusy s.rst then refuse s .busy
    else
      let v := sealImage (theImageBuffer s)
      ⟨queueImage v (s.setImageBuffer (some v)), .ok, []⟩

/-! ## Checkpoints and completions (R143, R152, R153, R174) -/

/-- The 60 s checkpoint timer expires (R143). -/
def execCheckpointTimerExpiry (s : State) : Result :=
  live s fun s => if s.mtr.checkpointTimer.isRunning && s.ses.session == .opened then askCheckpoint s else s

def checkpointDone (s : State) : State :=
  match s.rst.writer with
  | .checkpoint a seq c => nextWrite (s.setNv (setArea a (Area.written seq c) s.nv))
  | _ => s

def execCheckpointWriteComplete (s : State) : Result := live s checkpointDone

/-- The final record stands in its slot, marked RECORD, and both areas are void (R153). -/
def finalWritten (n : Word32) (ws : List Word) (nv : Nv) : Nv :=
  match slotReserved nv.slots n with
  | some i => voidAreas true true (markSlot i (.record n) (fillSlot i ws nv))
  | none => voidAreas true true nv

/-- A final write's completion: record, areas, session, notices, writer (R153, R154, R36). -/
def finalDone (s : State) : State :=
  match s.rst.writer with
  | .final n ws =>
    let a := s.setNv (finalWritten n ws s.nv)
    let b := nextWrite (a.setRst { a.rst with nextArea := .A })
    raiseStoreLow (raise .recordReady (leaveClosing b))
  | _ => s

def execFinalWriteComplete (s : State) : Result := live s finalDone

def imageDone (s : State) : State :=
  match s.rst.writer with
  | .image v => nextWrite (s.setNv { s.nv with image := v })
  | _ => s

def execImageWriteComplete (s : State) : Result := live s imageDone

end Sys2Proof.Machine
end

