-- ==== Sys2Proof/Machine/SupplyEvents.lean ====
section
/-! DEFINITION. Machine/SupplyEvents.lean: the pilot and the phase voltages (R23 to R26). -/

namespace Sys2Proof.Machine

/-! ## The pilot (R23 to R25) -/

/-- The period's frequency lies within 450–550 Hz (R23). -/
def validPeriod (periodNs : Nat) : Bool := decide (450 * periodNs ≤ 1000000000 ∧ 1000000000 ≤ 550 * periodNs)

/-- The period's duty in 0.1 %, rounded down (R23). -/
def dutyOf (periodNs highNs : Nat) : Nat := highNs * 1000 / periodNs

/-- The history with a duty added; at most the eight most recent are kept (R23). -/
def addDuty (h : List Nat) (d : Nat) : List Nat := (h ++ [d]).drop (h.length + 1 - 8)

/-- Table 2-1: the pilot state of an average duty. -/
def pilotOf (d : Nat) : Pilot :=
  if d < 80 then .fault else if d < 100 then .pause else if d ≤ 960 then .offer else .fault

/-- Table 2-1: I_pil of an average duty. -/
def currentOf (d : Nat) : Nat := if 100 ≤ d ∧ d ≤ 960 then min 640 ((d - 100) * 4 / 5) else 0

/-- A pilot state is put in force; a change raises PILOT_CHANGE (R24, R25). -/
def putPilot (pilot : Pilot) (i : Nat) (s : State) : State :=
  raiseIf (decide (pilot ≠ s.sup.pilot)) .pilotChange (s.setSup { s.sup with pilot := pilot, iPil := i })

/-- A decode of the average of the history (R24, R25). -/
def decodePilot (s : State) : State :=
  let d := s.sup.history.sum / 8
  putPilot (pilotOf d) (currentOf d) (s.setSup { s.sup with decoded := true, holdTimer := .stopped, edgeSeen := false })

/-- The hold timer starts, when it is stopped and the values in force are a decode's (R25). -/
def startHold (x : Sup) : Sup :=
  if x.holdTimer.isRunning then x
  else if x.decoded then { x with holdTimer := .running Config.pilotHoldMs, edgeSeen := false }
  else x

/-- An edge on the pilot line is noted during the hold (R25). -/
def noteEdge (x : Sup) : Sup := if x.holdTimer.isRunning then { x with edgeSeen := true } else x

/-- A pilot period completes: the rising edge that ends it is noted, its duty joins or empties the history, and a full history is
decoded (R23 to R25; log entry 10). -/
def pilotPeriodDone (periodNs highNs : Nat) (s : State) : State :=
  let x := noteEdge s.sup
  if validPeriod periodNs then
    let t := s.setSup { x with
      history := addDuty x.history (dutyOf periodNs highNs), silenceTimer := .running Config.pilotSilenceMs }
    if t.sup.history.length = 8 then decodePilot t else t
  else s.setSup (startHold { x with history := [] })

def execPilotPeriod (periodNs highNs : Nat) (s : State) : Result := live s (pilotPeriodDone periodNs highNs)

/-- 200 ms have passed since the latest valid period (R25). -/
def pilotSilent (s : State) : State :=
  if s.sup.silenceTimer.isRunning then s.setSup (startHold { s.sup with silenceTimer := .stopped }) else s

def execPilotSilenceTimeout (s : State) : Result := live s pilotSilent

/-- The hold timer expires (R25). -/
def pilotLost (s : State) : State :=
  if s.sup.holdTimer.isRunning then
    putPilot (if s.sup.edgeSeen then .fault else .absent) 0
      (s.setSup { s.sup with holdTimer := .stopped, decoded := false, edgeSeen := false })
  else s

def execPilotHoldExpiry (s : State) : Result := live s pilotLost

def execPilotEdge (s : State) : Result := live s fun s => s.setSup (noteEdge s.sup)

/-! ## Phase voltages (R26) -/

/-- The voltages of the admitted phases that are present (R26). -/
def presentVoltages (threePhases : Bool) (u1 u2 u3 : Nat) : List Nat :=
  (if threePhases then [u1, u2, u3] else [u1]).filter fun u => decide (Config.phasePresentAt ≤ u)

/-- The lowest of a list of voltages, 0 of none (R26). -/
def lowest : List Nat → Nat
  | [] => 0
  | [u] => u
  | u :: rest => min u (lowest rest)

def phaseWindow (u1 u2 u3 : Nat) (s : State) : State :=
  let us := presentVoltages s.threePhases u1 u2 u3
  s.setSup { s.sup with
    u1 := u1, u2 := u2, u3 := u3, nPh := us.length, uMin := lowest us, supplyPresent := decide (1 ≤ us.length) }

def execPhaseWindowEnd (u1 u2 u3 : Nat) (s : State) : Result := live s (phaseWindow u1 u2 u3)

end Sys2Proof.Machine
end

