-- ==== Sys2Proof/Machine/AllocatorEvents.lean ====
section
/-! DEFINITION. Machine/AllocatorEvents.lean: the allocator's timers and the stage lines (chapter 3, R8). -/

namespace Sys2Proof.Machine

def execAllocationInterval (s : State) : Result := live s allocate

/-- The 500 ms changeover timer expires (R45). -/
def execChangeoverExpiry (s : State) : Result := live s fun s => s.setAlc { s.alc with changeover := .stopped }

/-- The 2 s acceptance freshness timer expires (R8). -/
def acceptanceExpired (s : State) : State :=
  if s.alc.freshTimer.isRunning then
    raise .acceptanceStale (s.setAlc { s.alc with fresh := false, freshTimer := .stopped })
  else s

def execAcceptanceFreshnessExpiry (s : State) : Result := live s acceptanceExpired

/-- The READY line changes to the given level (R58). -/
def readyChanged (asserted : Bool) (s : State) : State :=
  if s.alc.stageReady = asserted then s
  else
    let t := s.setAlc { s.alc with stageReady := asserted }
    match asserted, s.alc.stage with
    | true, .notReady => t.setAlc { t.alc with stage := .available }
    | false, .available =>
      let u := t.setAlc { t.alc with stage := .notReady }
      if s.alc.record.mode = .off then u else stageFaultWith .ready u
    | _, _ => t

def execStageReadyChange (asserted : Bool) (s : State) : Result := live s (readyChanged asserted)

/-- The FAULT line changes to the given level (R59). -/
def faultChanged (asserted : Bool) (s : State) : State :=
  if s.alc.stageFault = asserted then s
  else if asserted then
    stageFaultWith .stage (s.setAlc { s.alc with stageFault := true, stage := .faulted, recovery := .stopped })
  else s.setAlc { s.alc with stageFault := false, stage := .recovering, recovery := .running Config.recoveryMs }

def execStageFaultChange (asserted : Bool) (s : State) : Result := live s (faultChanged asserted)

/-- The 5 s recovery timer expires (R59). -/
def recovered (s : State) : State :=
  if s.alc.recovery.isRunning then
    s.setAlc { s.alc with
      recovery := .stopped, stage := if s.alc.stageReady then .available else .notReady }
  else s

def execStageRecoveryExpiry (s : State) : Result := live s recovered

end Sys2Proof.Machine
end

