-- ==== Sys2Proof/Machine/HeaterEvents.lean ====
section
/-! DEFINITION. Machine/HeaterEvents.lean: the heater's events and CLEAR ZONE (chapter 5). -/

namespace Sys2Proof.Machine

/-- HTR takes the oldest published record it has not applied (R55, R91). -/
def applyNext (s : State) : State :=
  match s.htr.inbox with
  | r :: rest => applyRecord r (s.setHtr { s.htr with inbox := rest })
  | [] => s

def execGrantRecordApply (s : State) : Result := live s applyNext

/-- A check pulse is due to begin: it begins, or waits for the end of a quiet window (R73, R82). -/
def pulseDue (s : State) : State :=
  match s.htr.check with
  | some ck =>
    if ck.pulseOn then s
    else if s.alc.window = .granted then s.setHtr { s.htr with check := some { ck with waiting := true } }
    else heaterChanged s.htr (s.setHtr { s.htr with check := some { ck with pulseOn := true, waiting := false } })
  | none => s

def execCheckPulseStart (s : State) : Result := live s pulseDue

/-- The check after a pulse judged r has ended: the first result is kept, a pair is judged, or the pair is repeated (R82,
R83). -/
def afterPulse (ck : CheckRecord) (r : PulseResult) (h : Htr) : Htr :=
  match ck.first with
  | none => { h with check := some { ck with first := some r, pulseOn := false } }
  | some a =>
    match judgePair ck.repeated a r with
    | some st => h.endCheck ck.zone st
    | none => { h with check := some { ck with repeated := true, first := none, pulseOn := false } }

/-- The pulse's end marks its zone FAULTED (R83). -/
def pulseFaults (ck : CheckRecord) (r : PulseResult) : Bool :=
  match ck.first with
  | none => false
  | some a => ((judgePair ck.repeated a r).map ZoneState.isFaulted).getD false

/-- A check pulse ends with averaged current i (R82, R83). -/
def pulseEnded (i : Nat) (s : State) : State :=
  match s.htr.check with
  | some ck =>
    if ck.pulseOn then
      let r := judgePulse ck.iExp i
      heaterChanged s.htr (raiseIf (pulseFaults ck r) .heaterFault (s.setHtr (afterPulse ck r s.htr)))
    else s
  | none => s

def execCheckPulseEnd (current : Nat) (s : State) : Result := live s (pulseEnded current)

/-- The conversions of all eight zones, one event (R77). -/
def convertAll (readings : Vector Thermistor 8) (s : State) : State :=
  let t := zoneIds.foldl (fun u z => heaterConvert z readings[z] u) s
  heaterChanged s.htr (t.setHtr { t.htr with converted := true })

def execHeaterConversion (readings : Vector Thermistor 8) (s : State) : Result := live s (convertAll readings)

/-- The 2 s slot timer expires (R87). -/
def slotExpired (s : State) : State :=
  if s.htr.slotTimer.isRunning then s.setHtr { s.htr with slotTimer := .stopped, boundaryDue := true } else s

def execSlotTimerExpiry (s : State) : Result := live s slotExpired

/-- A FAULTED zone returns to UNCHECKED (R97). -/
def execClearZone (f : Frame) (arg : BitVec 8) (s : State) : Result :=
  request f.port f.len [.P] s fun s =>
    match argZone arg with
    | none => refuse s .denied
    | some z =>
      if (s.zone z).state.isFaulted then ⟨heaterChanged s.htr (s.setHtr (s.htr.enter z .unchecked)), .ok, []⟩
      else refuse s .denied

end Sys2Proof.Machine
end

