-- ==== Sys2Proof/Machine/MonitorEvents.lean ====
section
/-! DEFINITION. Machine/MonitorEvents.lean: the insulation monitor's events and CLEAR LOCKOUT (chapters 6 and 7). -/

namespace Sys2Proof.Machine

/-- A conversion that finds the bus energized (R102, R105, R106, R119). -/
def energizedConversion (s : State) : State :=
  let a := raiseAge (s.setIso { s.iso with deadTimer := .stopped, energizedLast := true })
  localizationStep (if a.iso.longDead then longDeadEnergization a else a)

/-- A conversion that finds the bus dead (R104, R105, R108). -/
def deadConversion (s : State) : State :=
  let a := s.setIso { s.iso with
    deadTimer := if s.iso.energizedLast then .running Config.deadBusMs else s.iso.deadTimer
    energizedLast := false }
  if s.iso.phase.inFlight then discardMeasurement a
  else if s.iso.phase = .request then abandonMeasurement a
  else a

/-- The 10 ms conversion of Up and Un (R100). -/
def busConverted (up un : Nat) (s : State) : State :=
  let a := s.setIso { s.iso with uBus := up + un }
  if Config.energizedAt ≤ up + un then energizedConversion a else deadConversion a

def execBusConversion (up un : Nat) (s : State) : Result := live s (busConverted up un)

/-- The 60 s dead-bus timer expires (R105). -/
def execDeadBusExpiry (s : State) : Result :=
  live s fun s =>
    if s.iso.deadTimer.isRunning then s.setIso { s.iso with deadTimer := .stopped, longDead := true } else s

/-- The measurement period timer expires and restarts (R103). -/
def periodExpired (s : State) : State :=
  let a := testOverdue (s.setIso { s.iso with
    period := periodEntry s, periodTimer := .running (1000 * periodEntry s) })
  if a.iso.phase == .idle && a.iso.energizedLast && !a.iso.localization.suspendsPeriodic then
    requestMeasurement .periodic a
  else a

def execPeriodExpiry (s : State) : Result := live s periodExpired

/-- The phase timer expires (R107). -/
def phaseEnded (s : State) : State :=
  match s.iso.phase with
  | .settleA => s.setIso { s.iso with phase := .sampleA, phaseTimer := .running Config.sampleMs }
  | .sampleA => s.setIso { s.iso with
      phase := .settleB, phaseTimer := .running Config.settleMs, bridge := .b
      upA := s.iso.sumUpA / 16, unA := s.iso.sumUnA / 16 }
  | .settleB => s.setIso { s.iso with phase := .sampleB, phaseTimer := .running Config.sampleMs }
  | .sampleB => finishMeasurement s
  | .idle | .request => s

def execMeasurementPhaseEnd (s : State) : Result := live s phaseEnded

/-- One of the 16 samples of a sampling phase (R107). -/
def sampled (up un : Nat) (s : State) : State :=
  match s.iso.phase with
  | .sampleA =>
    if s.iso.countA < 16 then
      s.setIso { s.iso with
        sumUpA := s.iso.sumUpA + up, sumUnA := s.iso.sumUnA + un, countA := s.iso.countA + 1 }
    else s
  | .sampleB =>
    if s.iso.countB < 16 then
      s.setIso { s.iso with
        sumUpB := s.iso.sumUpB + up, sumUnB := s.iso.sumUnB + un, countB := s.iso.countB + 1 }
    else s
  | _ => s

def execBridgeSample (up un : Nat) (s : State) : Result := live s (sampled up un)

/-! ## CLEAR LOCKOUT (R124) -/

/-- CLEAR LOCKOUT's checks pass: lockout SET, latest valid result GOOD or WARNING. -/
def mayClear (s : State) : Bool :=
  s.iso.lockout && (match s.iso.latest with | some r => r.cls != .fault | none => false)

/-- A localization measurement requested or in flight becomes PERIODIC (R115, R124). -/
def periodicPurpose (i : Iso) : Option Purpose := if i.phase = .idle then i.purpose else i.purpose.map fun _ => .periodic

/-- The cancellation of the run: IDLE, the count at 0, the measurement PERIODIC, the probed zone returned (R124). -/
def cancelRun (s : State) : State :=
  let t := s.setIso { s.iso with
    localization := .idle, baselineClass := none, marked := 0, lastExamined := none, purpose := periodicPurpose s.iso }
  match s.iso.localization with
  | .probing z => endProbe z false t
  | _ => t

def execClearLockout (f : Frame) (s : State) : Result :=
  request f.port f.len [.V] s fun s =>
    if mayClear s then ⟨evalDemand (cancelRun (clearTheLockout s)), .ok, []⟩ else refuse s .denied

/-! ## The meter's interval (R126) -/

def meterTick (p1 p2 p3 : Int) (s : State) : State := advanceClock (bookEnergy (pAc s p1 p2 p3) s)

def execMeterInterval (p1 p2 p3 : Int) (s : State) : Result := live s (meterTick p1 p2 p3)

end Sys2Proof.Machine
end

