-- ==== Sys2Proof/Machine/Dispatch.lean ====
section
/-! DEFINITION. Machine/Dispatch.lean: exec, one arm per command, each a direct call of its meaning. -/

namespace Sys2Proof.Machine

def exec (i : Instr) (s : State) : Host.Outcome State Fault Refusal :=
  match i with
  | .powerOnReset pins cut => Sys2Proof.Machine.execPowerOnReset pins cut s
  | .portReset port => Sys2Proof.Machine.execPortReset port s
  | .portResetRelease port => Sys2Proof.Machine.execPortResetRelease port s
  | .frameIncomplete port how => Sys2Proof.Machine.execFrameIncomplete port how s
  | .unknownCommand frame code => Sys2Proof.Machine.execUnknownCommand frame code s
  | .noOperation frame => Sys2Proof.Machine.execNoOperation frame s
  | .setReadPointer frame arg => Sys2Proof.Machine.execSetReadPointer frame arg s
  | .setWritePointer frame arg => Sys2Proof.Machine.execSetWritePointer frame arg s
  | .readWord frame => Sys2Proof.Machine.execReadWord frame s
  | .writeWord frame w => Sys2Proof.Machine.execWriteWord frame w s
  | .getPointer frame => Sys2Proof.Machine.execGetPointer frame s
  | .protectWindow frame arg => Sys2Proof.Machine.execProtectWindow frame arg s
  | .closeWindow frame arg => Sys2Proof.Machine.execCloseWindow frame arg s
  | .readNotices frame => Sys2Proof.Machine.execReadNotices frame s
  | .ackNotices frame w => Sys2Proof.Machine.execAckNotices frame w s
  | .departureHold frame => Sys2Proof.Machine.execDepartureHold frame s
  | .releaseHold frame => Sys2Proof.Machine.execReleaseHold frame s
  | .clearLockout frame => Sys2Proof.Machine.execClearLockout frame s
  | .rest frame w => Sys2Proof.Machine.execRest frame w s
  | .endRest frame => Sys2Proof.Machine.execEndRest frame s
  | .clearZone frame arg => Sys2Proof.Machine.execClearZone frame arg s
  | .authorize frame arg t0 t1 t2 t3 => Sys2Proof.Machine.execAuthorize frame arg t0 t1 t2 t3 s
  | .endSession frame => Sys2Proof.Machine.execEndSession frame s
  | .setTime frame hi lo => Sys2Proof.Machine.execSetTime frame hi lo s
  | .lockTariff frame => Sys2Proof.Machine.execLockTariff frame s
  | .unlockTariff frame => Sys2Proof.Machine.execUnlockTariff frame s
  | .collect frame => Sys2Proof.Machine.execCollect frame s
  | .readRecordWord frame => Sys2Proof.Machine.execReadRecordWord frame s
  | .release frame hi lo => Sys2Proof.Machine.execRelease frame hi lo s
  | .imageRead frame arg => Sys2Proof.Machine.execImageRead frame arg s
  | .imageWrite frame arg w => Sys2Proof.Machine.execImageWrite frame arg w s
  | .imageStore frame => Sys2Proof.Machine.execImageStore frame s
  | .plugContactChange contact engaged => Sys2Proof.Machine.execPlugContactChange contact engaged s
  | .debounceExpiry a b => Sys2Proof.Machine.execDebounceExpiry a b s
  | .pilotPeriod periodNs highNs => Sys2Proof.Machine.execPilotPeriod periodNs highNs s
  | .pilotSilenceTimeout => Sys2Proof.Machine.execPilotSilenceTimeout s
  | .pilotHoldExpiry => Sys2Proof.Machine.execPilotHoldExpiry s
  | .phaseWindowEnd u1 u2 u3 => Sys2Proof.Machine.execPhaseWindowEnd u1 u2 u3 s
  | .allocationInterval => Sys2Proof.Machine.execAllocationInterval s
  | .changeoverExpiry => Sys2Proof.Machine.execChangeoverExpiry s
  | .acceptanceFreshnessExpiry => Sys2Proof.Machine.execAcceptanceFreshnessExpiry s
  | .stageReadyChange asserted => Sys2Proof.Machine.execStageReadyChange asserted s
  | .stageFaultChange asserted => Sys2Proof.Machine.execStageFaultChange asserted s
  | .stageRecoveryExpiry => Sys2Proof.Machine.execStageRecoveryExpiry s
  | .holdTimerExpiry => Sys2Proof.Machine.execHoldTimerExpiry s
  | .restTimerExpiry => Sys2Proof.Machine.execRestTimerExpiry s
  | .grantRecordApply => Sys2Proof.Machine.execGrantRecordApply s
  | .checkPulseStart => Sys2Proof.Machine.execCheckPulseStart s
  | .checkPulseEnd current => Sys2Proof.Machine.execCheckPulseEnd current s
  | .heaterConversion readings => Sys2Proof.Machine.execHeaterConversion readings s
  | .slotTimerExpiry => Sys2Proof.Machine.execSlotTimerExpiry s
  | .busConversion up un => Sys2Proof.Machine.execBusConversion up un s
  | .deadBusExpiry => Sys2Proof.Machine.execDeadBusExpiry s
  | .periodExpiry => Sys2Proof.Machine.execPeriodExpiry s
  | .measurementPhaseEnd => Sys2Proof.Machine.execMeasurementPhaseEnd s
  | .bridgeSample up un => Sys2Proof.Machine.execBridgeSample up un s
  | .meterInterval p1 p2 p3 => Sys2Proof.Machine.execMeterInterval p1 p2 p3 s
  | .tariffLockExpiry => Sys2Proof.Machine.execTariffLockExpiry s
  | .checkpointTimerExpiry => Sys2Proof.Machine.execCheckpointTimerExpiry s
  | .checkpointWriteComplete => Sys2Proof.Machine.execCheckpointWriteComplete s
  | .finalWriteComplete => Sys2Proof.Machine.execFinalWriteComplete s
  | .imageWriteComplete => Sys2Proof.Machine.execImageWriteComplete s
  | .attentionPulseEnd port => Sys2Proof.Machine.execAttentionPulseEnd port s
  | .powerLoss cut => Sys2Proof.Machine.execPowerLoss cut s
  | .pilotEdge => Sys2Proof.Machine.execPilotEdge s

end Sys2Proof.Machine
end

