-- ==== Sys2Proof/Safety.lean ====
section
/-! DEFINITION. Safety.lean: the terms in which the statements speak of a run: a port that takes frames, a frame's answer, the
notices of an event, and the safety conditions the spec gives of the whole part. -/

namespace Sys2Proof.Machine

/-! ## Frames of a change -/

/-- Port p of a supplied part takes frames: its reset line is released (R169). -/
def Ready (p : PortId) (s : State) : Prop := s.powered = true ∧ (s.port p).resetAsserted = false

/-- The state t with the answer of a frame of len words on port p that began in state s: the last status, and the words that the
frame returned: the status word, the data, and 0 in every further word, as far as it clocked them (R161, R162). -/
def answer (p : PortId) (len : Nat) (st : Status) (data : List Word) (s t : State) : State :=
  t.setPort p { t.port p with lastStatus := st, returned := clocked len (statusWord (s.port p) :: data) }

/-- The request with its frame len words long (R161); any other command as it is. -/
def reframed (len : Nat) : Instr → Instr
  | .unknownCommand ⟨p, _⟩ code => .unknownCommand ⟨p, len⟩ code
  | .noOperation ⟨p, _⟩ => .noOperation ⟨p, len⟩
  | .setReadPointer ⟨p, _⟩ arg => .setReadPointer ⟨p, len⟩ arg
  | .setWritePointer ⟨p, _⟩ arg => .setWritePointer ⟨p, len⟩ arg
  | .readWord ⟨p, _⟩ => .readWord ⟨p, len⟩
  | .writeWord ⟨p, _⟩ w => .writeWord ⟨p, len⟩ w
  | .getPointer ⟨p, _⟩ => .getPointer ⟨p, len⟩
  | .protectWindow ⟨p, _⟩ arg => .protectWindow ⟨p, len⟩ arg
  | .closeWindow ⟨p, _⟩ arg => .closeWindow ⟨p, len⟩ arg
  | .readNotices ⟨p, _⟩ => .readNotices ⟨p, len⟩
  | .ackNotices ⟨p, _⟩ w => .ackNotices ⟨p, len⟩ w
  | .departureHold ⟨p, _⟩ => .departureHold ⟨p, len⟩
  | .releaseHold ⟨p, _⟩ => .releaseHold ⟨p, len⟩
  | .clearLockout ⟨p, _⟩ => .clearLockout ⟨p, len⟩
  | .rest ⟨p, _⟩ w => .rest ⟨p, len⟩ w
  | .endRest ⟨p, _⟩ => .endRest ⟨p, len⟩
  | .clearZone ⟨p, _⟩ arg => .clearZone ⟨p, len⟩ arg
  | .authorize ⟨p, _⟩ arg t0 t1 t2 t3 => .authorize ⟨p, len⟩ arg t0 t1 t2 t3
  | .endSession ⟨p, _⟩ => .endSession ⟨p, len⟩
  | .setTime ⟨p, _⟩ hi lo => .setTime ⟨p, len⟩ hi lo
  | .lockTariff ⟨p, _⟩ => .lockTariff ⟨p, len⟩
  | .unlockTariff ⟨p, _⟩ => .unlockTariff ⟨p, len⟩
  | .collect ⟨p, _⟩ => .collect ⟨p, len⟩
  | .readRecordWord ⟨p, _⟩ => .readRecordWord ⟨p, len⟩
  | .release ⟨p, _⟩ hi lo => .release ⟨p, len⟩ hi lo
  | .imageRead ⟨p, _⟩ arg => .imageRead ⟨p, len⟩ arg
  | .imageWrite ⟨p, _⟩ arg w => .imageWrite ⟨p, len⟩ arg w
  | .imageStore ⟨p, _⟩ => .imageStore ⟨p, len⟩
  | c => c

/-- Two ports differ at most in the pending set, the attention line and its pulse. -/
def NoticesOnly (x y : PortState) : Prop :=
  y = { x with pending := y.pending, attention := y.attention, pulsing := y.pulsing }

/-- No port changed in anything but its notices. -/
def PortsKeptButNotices (s t : State) : Prop :=
  NoticesOnly s.portV t.portV ∧ NoticesOnly s.portP t.portP ∧ NoticesOnly s.portF t.portF

/-- The straps, the supply, the buffers, the free values and the queue are as they were. -/
def RestKept (s t : State) : Prop :=
  t.powered = s.powered ∧ t.threePhases = s.threePhases ∧ t.commission = s.commission
    ∧ t.planDefaults = s.planDefaults ∧ t.recordBuffer = s.recordBuffer ∧ t.imageBuffer = s.imageBuffer
    ∧ t.free = s.free ∧ t.pending = s.pending

/-- The kind stands in the port's pending set. -/
def Told (k : Notice) (pt : PortState) : Prop := pt.holds k = true

/-- A port whose mask takes the kind and whose reset line is released (R175). -/
def Takes (k : Notice) (pt : PortState) : Prop := pt.resetAsserted = false ∧ flag pt.mask k.index = true

/-- Every port that takes the kind holds it. -/
def ToldAll (k : Notice) (s t : State) : Prop := ∀ p, Takes k (s.port p) → Told k (t.port p)

/-! ## The plug (R20) -/

/-- The plug state of two contact levels (R20). -/
def plugTable (a b : Bool) : Plug := if a && b then .plugged else if a || b then .partly else .unplugged

/-! ## The plan (R2) -/

/-- Every plan entry, and every kept default, holds field values within the ranges of its class. -/
def PlanSafe (s : State) : Prop :=
  (∀ n : Fin 53, inRange (Config.pHw s.threePhases) n s.plan[n] = true)
    ∧ ∀ n : Fin 4, inRange (Config.pHw s.threePhases) ⟨n.val, by omega⟩ s.planDefaults[n] = true

/-! ## The attention lines (R175, R177) -/

/-- In LEVEL mode the line is high exactly while the set is not empty; under an asserted reset line set and line stay empty and
low. -/
def PortState.LineSafe (pt : PortState) : Prop :=
  (pt.lineMode = .level → pt.attention = (pt.pending != 0) ∧ pt.pulsing = false)
    ∧ (pt.resetAsserted = true → pt.pending = 0 ∧ pt.attention = false ∧ pt.pulsing = false)

def LinesSafe (s : State) : Prop := s.portV.LineSafe ∧ s.portP.LineSafe ∧ s.portF.LineSafe

/-! ## The demand line (R27) -/

/-- The demand line is READY only while the session is OPEN, the grade is GOOD or WARNING, and the lockout is clear. -/
def DemandSafe (s : State) : Prop :=
  s.sup.demand = .ready → s.ses.session = .opened ∧ s.iso.grade.isProven = true ∧ s.iso.lockout = false

/-! ## The departure hold (R65, R102) -/

/-- The overdue condition is what R102 says of the age and the limit, the period in force is one of entry 7's, and the hold is
never HELD while the condition is true. -/
def HoldSafe (s : State) : Prop :=
  5 ≤ s.iso.period ∧ (5 ≤ periodEntry s)
    ∧ s.iso.overdue = decide (overdueLimit s.iso ≤ s.iso.age)
    ∧ (s.alc.hold = .held → s.iso.overdue = false)

/-! ## The zones (R75, R91, R94) -/

/-- The check record names the one CHECKING zone, and the energized set lists the ENERGIZED zones, each once (R75). -/
def ZonesSound (s : State) : Prop :=
  (∀ z : Fin 8, (s.zone z).state = .checking ↔ ∃ ck, s.htr.check = some ck ∧ ck.zone = z)
    ∧ (∀ z : Fin 8, (s.zone z).state = .energized ↔ z ∈ s.htr.energized)
    ∧ s.htr.energized.Nodup

/-- While the lockout is set or the grade is FAULT or UNKNOWN, no zone is ENERGIZED or CHECKING (R94, R113, R118). -/
def HeatSafe (s : State) : Prop :=
  s.iso.lockout = true ∨ s.iso.grade = .fault ∨ s.iso.grade = .unknown →
    ∀ z : Fin 8, (s.zone z).state ≠ .energized ∧ (s.zone z).state ≠ .checking

/-- The sum of the ratings in use of the ENERGIZED zones. -/
def heatDrawn (s : State) : Nat := (s.htr.energized.map fun z => (s.zone z).rating).sum

/-- A record's G_heat is the sum of its zone set (R50). -/
def GrantRecord.Summed (r : GrantRecord) : Prop := r.gHeat = ratingSum r.zones

/-- The ENERGIZED zones draw at most the G_heat of the record last applied (R91). -/
def DrawSafe (s : State) : Prop :=
  (∀ r ∈ s.htr.inbox, r.Summed) ∧ heatDrawn s ≤ s.htr.applied.gHeat

/-! ## Switch changes (R76, R109) -/

/-- One report of switch changes from state s, where `moved` says that some zone's switches moved: a measurement in flight restarts from
SETTLE_A with its window kept, is discarded at the third report with its window released, and is otherwise left alone. -/
def SwitchesReported (moved : Prop) (s t : State) : Prop :=
  let disturbed := moved ∧ s.iso.phase.inFlight = true
  (¬ disturbed → t.iso = s.iso ∧ t.alc = s.alc)
    ∧ (disturbed → s.iso.restarts < 2 → t.alc = s.alc
      ∧ t.iso = { s.iso with
          restarts := s.iso.restarts + 1, phase := .settleA, bridge := .a, phaseTimer := .running 400
          sumUpA := 0, sumUnA := 0, countA := 0, sumUpB := 0, sumUnB := 0, countB := 0 })
    ∧ (disturbed → 2 ≤ s.iso.restarts → t.alc = { s.alc with window := .idle }
      ∧ t.iso = { s.iso with
          phase := .idle, bridge := .opened, phaseTimer := .stopped
          localization := if s.iso.localization = .baseline then .baselineWait else s.iso.localization }
      ∧ ∀ ck, t.htr.check = some ck → ck.waiting = false)

/-! ## The session's account (R130, R131) -/

/-- The Wh of the four accounts together. -/
def accountWh (m : Mtr) : Nat := m.chg.wh + m.heat.wh + m.aux.wh + m.standby.wh

/-- The energy of the four accounts together, in 0.1 J. -/
def accountEnergy (m : Mtr) : Nat := accountWh m * Config.unitsPerWh + residueSum m

/-- The Wh of the band lines sum to the Wh of the accounts, no band has two lines, every line has its band's frozen price and costs its
Wh times that price, and every residue is below one watt-hour. -/
def AccountsSound (s : State) : Prop :=
  (s.mtr.lines.map (·.wh)).sum = accountWh s.mtr
    ∧ (s.mtr.lines.map (·.band)).Nodup
    ∧ (∀ l ∈ s.mtr.lines, l.price = s.ses.prices[l.band] ∧ l.cost = l.wh * l.price.toNat)
    ∧ s.mtr.chg.residue < Config.unitsPerWh ∧ s.mtr.heat.residue < Config.unitsPerWh
    ∧ s.mtr.aux.residue < Config.unitsPerWh ∧ s.mtr.standby.residue < Config.unitsPerWh
    ∧ s.mtr.unassigned.residue < Config.unitsPerWh ∧ s.mtr.unassigned.wh ≤ 32767

/-! ## The writer (R143, R144, R150, R152, R174) -/

/-- The meter asked for a checkpoint of the session as it stands in t: its timer restarted, and the copy was dropped behind a final
write, started into the next area by an idle writer, or waits, in place of an older copy. -/
def CheckpointAsked (s t : State) : Prop :=
  let copy : Checkpoint := ⟨t.ses.number, sessionWords t 0 (t.mtr.clock.getD 0)⟩
  t.mtr.checkpointTimer = .running 60000
    ∧ (if finalPending s.rst = true then t.rst = s.rst ∧ t.nv = s.nv
      else if s.rst.writer = .idle then
        t.rst = { s.rst with
          writer := .checkpoint s.rst.nextArea (s.rst.seq + 1) copy, seq := s.rst.seq + 1, nextArea := s.rst.nextArea.other }
        ∧ t.nv = setArea s.rst.nextArea { s.nv.area s.rst.nextArea with valid := false } s.nv
      else t.rst = { s.rst with waitCheckpoint := some copy } ∧ t.nv = s.nv)

/-- After a completion that left the queue r the writer took the next write, in the order final, image, checkpoint, or went
IDLE. -/
def TookNextWrite (r r' : Rst) : Prop :=
  match r.waitFinal, r.waitImage, r.waitCheckpoint with
  | some f, _, _ => r' = { r with writer := .final f.1 f.2, waitFinal := none }
  | none, some v, _ => r' = { r with writer := .image v, waitImage := none }
  | none, none, some c => r' = { r with
      writer := .checkpoint r.nextArea (r.seq + 1) c, waitCheckpoint := none, seq := r.seq + 1, nextArea := r.nextArea.other }
  | none, none, none => r' = { r with writer := .idle }

end Sys2Proof.Machine
end

