-- ==== Sys2Proof/WellFormed.lean ====
section
/-! DEFINITION. WellFormed.lean: the commands that can be sent: what a field event brings must be a quantity its source can
give. Every meaning is total; this says which commands the spec speaks of. -/

namespace Sys2Proof

/-- A converted quantity fits one word (R179). -/
def fitsWord (n : Nat) : Bool := decide (n < 65536)

/-- A cut falls inside the words of a write, of which there are at most 200 (R174). -/
def WriteCut.inside : WriteCut → Bool
  | .words n => decide (n ≤ 200)
  | .written | .marked | .voided .. => true

/-- A request's frame clocks all its words; on a port whose role does not admit it the frame may be shorter, and its missing operands
read as 0 (R161). -/
def framed (c : Instr) : Bool :=
  match frameWords c, requestPort c with
  | some ws, some p =>
    decide (ws.length ≤ frameLength c)
      || (decide (1 ≤ frameLength c) && !(requestRoles c).contains p && (ws.drop (frameLength c)).all (· == 0))
  | _, _ => true

/-- The command is one that the spec's masters and field layer can send. -/
def wellFormed (c : Instr) : Bool := framed c && match c with
  | .unknownCommand _ code => !definedCodes.contains code.toNat
  | .authorize _ arg t0 t1 t2 t3 => arg == 1 || (t0 == 0 && t1 == 0 && t2 == 0 && t3 == 0)
  | .frameIncomplete _ (.operands len) => decide (1 ≤ len ∧ len ≤ 4)
  | .debounceExpiry a b => a || b
  | .pilotPeriod periodNs highNs => decide (0 < periodNs) && decide (highNs ≤ periodNs)
  | .phaseWindowEnd u1 u2 u3 => fitsWord u1 && fitsWord u2 && fitsWord u3
  | .checkPulseEnd current => fitsWord current
  | .busConversion up un | .bridgeSample up un => fitsWord (up + un)
  | .powerOnReset _ cut | .powerLoss cut => cut.inside
  | .portReset _ | .portResetRelease _ | .frameIncomplete .. | .noOperation .. | .setReadPointer .. | .setWritePointer ..
  | .readWord .. | .writeWord .. | .getPointer .. | .protectWindow .. | .closeWindow .. | .readNotices .. | .ackNotices ..
  | .departureHold .. | .releaseHold .. | .clearLockout .. | .rest .. | .endRest .. | .clearZone .. | .endSession ..
  | .setTime .. | .lockTariff .. | .unlockTariff .. | .collect .. | .readRecordWord .. | .release .. | .imageRead ..
  | .imageWrite .. | .imageStore .. | .plugContactChange .. | .pilotSilenceTimeout | .pilotHoldExpiry
  | .allocationInterval | .changeoverExpiry | .acceptanceFreshnessExpiry | .stageReadyChange _ | .stageFaultChange _
  | .stageRecoveryExpiry | .holdTimerExpiry | .restTimerExpiry | .grantRecordApply | .checkPulseStart
  | .heaterConversion _ | .slotTimerExpiry | .deadBusExpiry | .periodExpiry | .measurementPhaseEnd | .meterInterval ..
  | .tariffLockExpiry | .checkpointTimerExpiry | .checkpointWriteComplete | .finalWriteComplete | .imageWriteComplete
  | .attentionPulseEnd _ | .pilotEdge => true

end Sys2Proof
end

