-- ==== Sys2Proof/Certificates/Slice0/Obligations.lean ====
section
/-! DEFINITION. Obligations.lean: what the provers are asked to prove of the model. -/

open Sys2Proof Sys2Proof.Machine

/-! ## The block as a whole -/

/-- A step with command c at the front of the queue is exec of c on the state with the queue's rest. On an empty queue the block
idles; that clause is the model's choice, log entry 1. -/
def Obligations.StepRunsFrontCommand : Prop :=
  (∀ (c : Instr) (rest : List Instr) (s : State),
    step { s with pending := c :: rest } = exec c { s with pending := rest })
  ∧ ∀ s : State, s.pending = [] → step s = .next s

/-- The frames of the requests spell the requests (Table 12-1, R161, R180): a frame that carries a well-formed request's words and any
further words is that request, on every port, in the commissioning state and out of it. Cut short before its last operand word it is
malformed on a port that admits the request. On one that does not it is still that request, to be refused; which such requests are
well-formed (their missing operands stand as 0) is the model's choice, log entry 32. -/
def Obligations.FramesSpellRequests : Prop :=
  (∀ (c : Instr) (p : PortId) (ws extra : List Word) (commission : Bool),
    wellFormed c = true → requestPort c = some p → frameWords c = some ws → frameLength c = ws.length + extra.length →
    frameCommand p commission (ws ++ extra) = c)
  ∧ (∀ (c : Instr) (p : PortId) (ws : List Word) (commission : Bool) (k : Nat),
    wellFormed c = true → requestPort c = some p → frameWords c = some ws → 0 < k → k < ws.length →
    (p ∈ requestRoles c → (∀ len arg w, c = .imageWrite ⟨p, len⟩ arg w → commission = true) →
      frameCommand p commission (ws.take k) = .frameIncomplete p (.operands k))
    ∧ (p ∉ requestRoles c → frameLength c = k → frameCommand p commission (ws.take k) = c))
  ∧ ∀ (p : PortId) (commission : Bool), frameCommand p commission [] = .frameIncomplete p .commandWord

/-! ## Requests and roles (R161 to R163, R169) -/

/-- While a port's reset line is asserted, the frames begun on it change nothing (R169; that the last status stays too is the model's
reading, log entry 16). A request on a port whose role does not admit it is refused NOT_PERMITTED and changes nothing but that port's
frame (R163). Nor do malformed frames, undefined codes, NO OPERATION and GET POINTER (R161, R164, R180); what a malformed
frame returned is the model's reading, log entry 14. -/
def Obligations.FramesWithoutEffect : Prop :=
  (∀ (c : Instr) (p : PortId) (s : State), requestPort c = some p → (s.port p).resetAsserted = true → exec c s = .next s)
  ∧ (∀ (c : Instr) (p : PortId) (s : State), requestPort c = some p → p ∉ requestRoles c → Ready p s →
    exec c s = .next (answer p (frameLength c) .notPermitted [] s s))
  ∧ ∀ (p : PortId) (len : Nat) (s : State), Ready p s →
    (∀ code, definedCodes.contains code.toNat = false →
      exec (.unknownCommand ⟨p, len⟩ code) s = .next (answer p len .unknownCommand [] s s))
    ∧ exec (.noOperation ⟨p, len⟩) s = .next (answer p len .ok [] s s)
    ∧ (∃ w, exec (.getPointer ⟨p, len⟩) s = .next (answer p len .ok [w] s s)
        ∧ (w.extractLsb' 0 6) = (s.port p).pointer ∧ (w.extractLsb' 6 2) = 0#2
        ∧ field w 8 2 = (match (s.port p).direction with | .none => 0 | .read => 1 | .write => 2)
        ∧ (w.extractLsb' 10 2) = 0#2 ∧ field w 12 2 = (s.port p).sub.val ∧ (w.extractLsb' 14 2) = 0#2)
    ∧ ∀ how, exec (.frameIncomplete p how) s = .next (s.setPort p { s.port p with
        lastStatus := .sequence
        returned := match how with
          | .commandWord => []
          | .operands n | .tooSoon n => clocked n [statusWord (s.port p)] })

/-- A frame returns as many words as it clocks: the status word of its beginning, then the one word of a request that returns data, and
0 in every other word, operand words and words past the request's last among them (R161). Its length changes nothing else: a frame that
ends before its data word loses the data and not the effect (R162). The words stand in a field of the model's own, log entry 15. -/
def Obligations.FramesReturnWords : Prop :=
  ∀ (c : Instr) (p : PortId) (s : State), requestPort c = some p → (∀ how, c ≠ .frameIncomplete p how) → Ready p s →
    ∃ (t : State) (w : Word),
      ((match c with
        | .readWord .. | .getPointer .. | .readNotices .. | .readRecordWord .. | .imageRead .. => True
        | _ => w = 0)
      ∧ ∀ n, exec (reframed n c) s = .next (t.setPort p { t.port p with
          returned := (List.range n).map fun i => [statusWord (s.port p), w].getD i 0 }))

/-! ## Entry access (R164 to R168) -/

/-- SET READ POINTER and SET WRITE POINTER (R164). PROTECT WINDOW and CLOSE WINDOW narrow one window of the port's own, and deny an
argument above 3 (R168). -/
def Obligations.PointersAndWindows : Prop :=
  (∀ (p : PortId) (len : Nat) (arg : BitVec 8) (s : State), Ready p s →
    (63 < arg.toNat →
      exec (.setReadPointer ⟨p, len⟩ arg) s = .next (answer p len .denied [] s s)
      ∧ exec (.setWritePointer ⟨p, len⟩ arg) s = .next (answer p len .denied [] s s))
    ∧ (arg.toNat ≤ 63 →
      exec (.setWritePointer ⟨p, len⟩ arg) s = .next (answer p len .ok [] s (s.setPort p { s.port p with
        pointer := arg.setWidth 6, direction := .write, sub := 0, staging := ⟨0, 0, 0⟩, staged := 0,
        holding := ⟨0, 0, 0⟩, snapshot := .none }))
      ∧ (readable s p (arg.setWidth 6) = none →
        exec (.setReadPointer ⟨p, len⟩ arg) s = .next (answer p len .outOfWindow [] s (s.setPort p { s.port p with
          pointer := arg.setWidth 6, direction := .read, sub := 0, staging := ⟨0, 0, 0⟩, staged := 0,
          holding := ⟨0, 0, 0⟩, snapshot := .unmapped })))
      ∧ ∀ n, readable s p (arg.setWidth 6) = some n →
        exec (.setReadPointer ⟨p, len⟩ arg) s = .next (answer p len .ok [] s (s.setPort p { s.port p with
          pointer := arg.setWidth 6, direction := .read, sub := 0, staging := ⟨0, 0, 0⟩, staged := 0,
          holding := s.readEntry n, snapshot := .mapped }))))
  ∧ ∀ (p : PortId) (len : Nat) (arg : BitVec 8) (s : State), Ready p s →
    (3 < arg.toNat →
      exec (.protectWindow ⟨p, len⟩ arg) s = .next (answer p len .denied [] s s)
      ∧ exec (.closeWindow ⟨p, len⟩ arg) s = .next (answer p len .denied [] s s))
    ∧ ∀ i : Fin 4, arg.toNat = i.val →
      exec (.protectWindow ⟨p, len⟩ arg) s = .next (answer p len .ok [] s (s.setPort p { s.port p with
        windows := (s.port p).windows.set i { (s.port p).windows[i] with protect := true } }))
      ∧ exec (.closeWindow ⟨p, len⟩ arg) s = .next (answer p len .ok [] s (s.setPort p { s.port p with
        windows := (s.port p).windows.set i { (s.port p).windows[i] with enable := false } }))

/-- A window maps local number k when it is enabled, k lies in start–stop, and no lower-numbered window contains k; the plan
entry is (k + offset) mod 64 (R167). In the commissioning state ports V and P reach entries 53–63 alone (R170). Entries 0–52 read as
stored. Mirrors 54–56 read as last refreshed, and the other mirrors show their owners' state in the fields of Table 12-4 (R15); that they
always do is the model's reading, log entry 5; that mirror 60 shows the ENERGIZED zones alone, and not a zone in CHECKING, is log entry
21. -/
def Obligations.ReadableEntry : Prop :=
  (∀ (s : State) (p : PortId) (k n : BitVec 6),
    readable s p k = some n ↔
      ∃ i : Fin 4, (s.port p).windows[i].enable = true
        ∧ (s.port p).windows[i].start.toNat ≤ k.toNat ∧ k.toNat ≤ (s.port p).windows[i].stop.toNat
        ∧ (∀ j : Fin 4, j < i → ¬ ((s.port p).windows[j].enable = true
            ∧ (s.port p).windows[j].start.toNat ≤ k.toNat ∧ k.toNat ≤ (s.port p).windows[j].stop.toNat))
        ∧ n.toNat = (k.toNat + (s.port p).windows[i].offset.toNat) % 64
        ∧ (s.commission = true ∧ p ≠ .F → 53 ≤ n.toNat))
  ∧ (∀ s : State,
    let e (n : Nat) : Entry := s.readEntry (BitVec.ofNat 6 n)
    (∀ n : Fin 53, e n.val = s.plan[n])
    ∧ ((e 53).w0 = word s.sup.iPil ∧ (e 53).w2 = word s.sup.uMin
      ∧ field (e 53).w1 0 2 = (match s.sup.pilot with | .absent => 0 | .offer => 1 | .pause => 2 | .fault => 3)
      ∧ (s.sup.nPh ≤ 3 → field (e 53).w1 4 2 = s.sup.nPh))
    ∧ (e 54 = s.alc.mirror54 ∧ e 55 = s.alc.mirror55 ∧ e 56 = s.alc.mirror56)
    ∧ (((e 57).w0 = match s.iso.latest with | none => 0 | some r => word r.perVolt)
      ∧ field (e 57).w1 0 2 = (match s.iso.grade with | .unknown => 0 | .good => 1 | .warning => 2 | .fault => 3)
      ∧ flag (e 57).w1 2 = s.iso.lockout
      ∧ field (e 57).w1 4 3 = (match s.iso.localization with
        | .idle => 0 | .baselineWait => 1 | .baseline => 2 | .probing _ => 3 | .doneCulprit => 4 | .doneNone => 5
        | .probeWait => 6)
      ∧ field (e 57).w1 8 3 = (match s.iso.localization with | .probing z => z.val | _ => 0)
      ∧ (s.iso.age ≤ 6553500 → (e 57).w2.toNat = s.iso.age / 100))
    ∧ (∀ z : Fin 8, (match z.val % 3 with
          | 0 => (e (58 + z.val / 3)).w0 | 1 => (e (58 + z.val / 3)).w1 | _ => (e (58 + z.val / 3)).w2) =
        match (s.zone z).temp with | none => 0x8000 | some v => BitVec.ofInt 16 v)
    ∧ (∀ z : Fin 8, flag (e 60).w2 z.val = decide (z ∈ s.htr.energized))
    ∧ (∀ z : Fin 8, field (if z.val < 4 then (e 61).w0 else (e 61).w1) (4 * (z.val % 4)) 4 =
        match (s.zone z).state with
        | .unchecked => 0 | .checking => 1 | .off => 2 | .energized => 3 | .dwell _ => 4 | .probed _ => 5
        | .faulted .open => 8 | .faulted .short => 9 | .faulted .unstable => 10 | .faulted .overtemp => 11
        | .faulted .leak => 12)
    ∧ (e 61).w2.toNat = s.htr.p.val
    ∧ (field (e 62).w1 0 16 = s.ses.number.toNat % 65536
      ∧ field (e 62).w0 0 2 = (match s.ses.plug with | .unplugged => 0 | .partly => 1 | .plugged => 2)
      ∧ field (e 62).w0 4 2 = (match s.ses.session with | .none => 0 | .plugged => 1 | .opened => 2 | .closing => 3)
      ∧ flag (e 62).w0 15 = s.ses.imageFault
      ∧ (e 62).w2.toNat = (List.finRange 64).countP fun i => match s.nv.slots[i].mark with | .record _ => true | _ => false)
    ∧ ((e 63).w0.toNat = (if s.ses.session = .opened ∨ s.ses.session = .closing
        then min 65535 (accountWh s.mtr / 10) else 0)
      ∧ field (e 63).w1 0 7 = (match s.mtr.clock with | none => 0 | some sec => sec.toNat % 86400 / 900)
      ∧ field (e 63).w1 8 2 = s.mtr.band.val
      ∧ (s.mtr.unassigned.wh ≤ 32767 →
        field (e 63).w2 0 15 = s.mtr.unassigned.wh ∧ flag (e 63).w2 15 = s.mtr.clock.isSome)))

/-- READ WORD (R165): the holding word of the sub-counter, 0 where the snapshot is UNMAPPED, and past the third word a new
snapshot of the next local number; SEQUENCE out of direction READ, and by the model's reading in a snapshot state that direction
READ never has, log entry 30. WRITE WORD (R2, R166): out of direction WRITE it is refused SEQUENCE; the first two words are
staged, and nothing else changes. A third word whose entry is refused answers OUT_OF_WINDOW, READ_ONLY or LOCK_REQUIRED, in that
order: the port moves on to the next local number, and nothing else changes. -/
def Obligations.WordsReadAndStaged : Prop :=
  (∀ (p : PortId) (len : Nat) (s : State), Ready p s →
    ((s.port p).direction ≠ .read ∨ (s.port p).snapshot = .none →
      exec (.readWord ⟨p, len⟩) s = .next (answer p len .sequence [0] s s))
    ∧ ((s.port p).direction = .read → (s.port p).snapshot ≠ .none →
      ∃ pt : PortState,
        exec (.readWord ⟨p, len⟩) s = .next (answer p len
            (if (s.port p).snapshot = .mapped then .ok else .outOfWindow)
            [if (s.port p).snapshot = .mapped then (s.port p).holding.word (s.port p).sub else 0] s (s.setPort p pt))
        ∧ ((s.port p).sub ≠ 2 → pt = { s.port p with sub := (s.port p).sub + 1 })
        ∧ ((s.port p).sub = 2 →
          match readable s p ((s.port p).pointer + 1) with
          | some n => pt = { s.port p with
              sub := 0, pointer := (s.port p).pointer + 1, holding := s.readEntry n, snapshot := .mapped }
          | none => pt = { s.port p with
              sub := 0, pointer := (s.port p).pointer + 1, holding := ⟨0, 0, 0⟩, snapshot := .unmapped })))
  ∧ (∀ (p : PortId) (len : Nat) (w : Word) (s : State), Ready p s →
    ((s.port p).direction ≠ .write → exec (.writeWord ⟨p, len⟩ w) s = .next (answer p len .sequence [] s s))
    ∧ ((s.port p).direction = .write → (s.port p).sub ≠ 2 →
      exec (.writeWord ⟨p, len⟩ w) s = .next (answer p len .ok [] s (s.setPort p { s.port p with
        staging := (s.port p).staging.setWord (s.port p).sub w
        staged := (s.port p).staged + 1
        sub := (s.port p).sub + 1 }))))
  ∧ (∀ (p : PortId) (len : Nat) (w : Word) (s : State), Ready p s → (s.port p).direction = .write → (s.port p).sub = 2 →
    ∀ st : Status,
      (match mapWindow (s.port p) (s.port p).pointer with
        | none => st = .outOfWindow
        | some win =>
          if s.commission = true ∧ p ≠ .F then st = .outOfWindow
          else if win.protect = true ∨ 53 ≤ (win.entryOf (s.port p).pointer).toNat then st = .readOnly
          else 17 ≤ (win.entryOf (s.port p).pointer).toNat ∧ ¬ (p = .F ∧ s.mtr.lockHeld = true) ∧ st = .lockRequired) →
      exec (.writeWord ⟨p, len⟩ w) s = .next (answer p len st [] s (s.setPort p { s.port p with
        sub := 0, staging := ⟨0, 0, 0⟩, staged := 0, pointer := (s.port p).pointer + 1 })))

/-- A third WRITE WORD whose entry is stored (R1, R2): the whole entry within its ranges, OK or OK_CLAMPED, no other entry. Entries
4, 5 and 8 set more going (R8, R11, R27); of any other entry the commit changes the plan and the port alone. The ranges in
numbers, and which words and bits carry no field, are in FieldRanges. -/
def Obligations.CommitStoresEntry : Prop :=
  ∀ (p : PortId) (len : Nat) (w : Word) (s : State) (win : Window) (n : Fin 53),
    Ready p s → (s.port p).direction = .write → (s.port p).sub = 2 →
    mapWindow (s.port p) (s.port p).pointer = some win → win.protect = false →
    (win.entryOf (s.port p).pointer).toNat = n.val → (s.commission = true → p = .F) →
    (17 ≤ n.val → p = .F ∧ s.mtr.lockHeld = true) →
    let e := (s.port p).staging.setWord 2 w
    let stored := rangeStep (Config.pHw s.threePhases) n e
    ∃ t, exec (.writeWord ⟨p, len⟩ w) s = .next t
      ∧ t.plan = s.plan.set n stored
      ∧ (t.port p).lastStatus = (if stored = dropUnused (classOf n) e then .ok else .okClamped)
      ∧ (t.port p).pointer = (s.port p).pointer + 1 ∧ (t.port p).sub = 0 ∧ (t.port p).staged = 0
      ∧ (t.port p).staging = ⟨0, 0, 0⟩
      ∧ t.ses = s.ses ∧ t.mtr = s.mtr ∧ t.rst = s.rst ∧ t.nv = s.nv ∧ RestKept s t
      ∧ (n.val ≠ 8 → t.htr = s.htr ∧ ∀ q, q ≠ p → t.port q = s.port q) ∧ t.iso = s.iso
      ∧ (n.val ≠ 4 → n.val ≠ 8 → t.sup = s.sup)
      ∧ (n.val = 4 → t.sup = (evalDemand (s.setPlan (s.plan.set n stored))).sup)
      ∧ t.alc = (if n.val = 5 ∧ s.alc.record.mode = .charge then
          { s.alc with fresh := true, freshTimer := .running 2000 } else s.alc)
      ∧ (n.val = 8 → t.htr.zones = s.htr.zones ∧ t.htr.energized = s.htr.energized
        ∧ ((anyHot s.htr = true ∧ t.htr.pendingMode = some (heatingModeOf stored) ∧ t.htr.mode = s.htr.mode)
          ∨ (anyHot s.htr = false ∧ t.htr.pendingMode = none ∧ t.htr.mode = heatingModeOf stored ∧ t.htr.p = 0
            ∧ t.htr.s = (heatingModeOf stored).start ∧ ToldAll .planApplied s t)))

/-- The field ranges of the entry classes in numbers, and what becomes of a field outside its range (R2, R4 to R7, R9 to R14, R181);
which words and bits carry no field, and are dropped before the ranges are looked at (R2, Table 12-4); and an entry so brought
within its ranges is within them. -/
def Obligations.FieldRanges : Prop :=
  ∀ (threePhases : Bool) (n : Fin 53) (e : Entry),
    let pHw := Config.pHw threePhases
    let st := rangeStep pHw n e
    let kept := dropUnused (classOf n) e
    pHw = (if threePhases = true then 22000 else 7400) ∧ inRange pHw n st = true
    ∧ (rangeStatus pHw n e = if st = kept then .ok else .okClamped)
    ∧ (n.val ≤ 2 → kept = e ∧ st.w0.toNat = max 1 (min 3 e.w0.toNat) ∧ st.w1.toNat = min 22000 e.w1.toNat
      ∧ st.w2.toNat = min 22000 e.w2.toNat)
    ∧ (n.val = 3 → kept = e ∧ st.w0.toNat = min pHw e.w0.toNat ∧ st.w1.toNat = max 850 (min 990 e.w1.toNat)
      ∧ st.w2.toNat = max 100 (min 5000 e.w2.toNat))
    ∧ (n.val = 4 → kept = ⟨e.w0, e.w1 &&& 0x0003, 0⟩ ∧ st.w0.toNat = min 10000 e.w0.toNat ∧ st.w1 = kept.w1 ∧ st.w2 = 0)
    ∧ (n.val = 5 → kept = ⟨e.w0, e.w1, e.w2 &&& 0x0003⟩ ∧ st.w0.toNat = min 1000 e.w0.toNat
      ∧ st.w1.toNat = min 8000 e.w1.toNat ∧ st.w2 = kept.w2)
    ∧ (n.val = 6 → kept = ⟨e.w0, e.w1, 0⟩ ∧ st.w0.toNat = min 6000 e.w0.toNat
      ∧ st.w1.toNat = max 2000 (min 4500 e.w1.toNat) ∧ st.w2 = 0)
    ∧ (n.val = 7 → kept = e ∧ st.w0.toNat = max 100 (min 5000 e.w0.toNat)
      ∧ st.w1.toNat = max 50 (min (st.w0.toNat - 1) e.w1.toNat) ∧ st.w2.toNat = max 5 (min 60 e.w2.toNat))
    ∧ (n.val = 8 → kept = ⟨e.w0 &&& 0x7F3F, e.w1 &&& 0x00FF, 0⟩
      ∧ field st.w0 0 4 = (let l := field e.w0 0 4; if l < 2 then 1 else if l < 4 then 2 else if l < 8 then 4 else 8)
      ∧ flag st.w0 4 = flag e.w0 4 ∧ flag st.w0 5 = flag e.w0 5 ∧ field st.w0 6 2 = 0
      ∧ field st.w0 8 4 = field e.w0 8 4 % 8 ∧ field st.w0 12 3 = min 3 (field e.w0 12 3) ∧ flag st.w0 15 = false
      ∧ st.w1 = kept.w1 ∧ st.w2 = 0)
    ∧ (9 ≤ n.val → n.val ≤ 16 → kept = e ∧ st.w0.toInt = max (-200) (min 450 e.w0.toInt)
      ∧ st.w1.toNat = max 5 (min 100 e.w1.toNat) ∧ st.w2.toNat = min 2000 e.w2.toNat)
    ∧ (17 ≤ n.val → n.val ≤ 48 → kept = ⟨e.w0, e.w1, e.w2 &&& 0x0001⟩ ∧ st.w0.toNat = min 95 e.w0.toNat
      ∧ st.w1.toNat = min 3 e.w1.toNat ∧ st.w2 = kept.w2)
    ∧ (49 ≤ n.val → kept = ⟨e.w0, 0, 0⟩ ∧ st = kept)

/-! ## Notices (R175 to R178) -/

/-- READ NOTICES and ACK NOTICES in both clear modes: what they return, what they remove, and no other effect than on the port's
set and line; and the end of an attention pulse, which puts the line low (R176, R177; without a pulse it changes nothing, the model's
choice, log entry 34). -/
def Obligations.NoticesReadAndAcknowledged : Prop :=
  ∀ (p : PortId) (len : Nat) (w : Word) (s : State), Ready p s →
    exec (.attentionPulseEnd p) s = .next
      (if (s.port p).pulsing = true then s.setPort p { s.port p with pulsing := false, attention := false } else s) ∧
    ((s.port p).clearMode = .ackClears →
      exec (.readNotices ⟨p, len⟩) s = .next (answer p len .ok [(s.port p).pending] s s)
      ∧ ∃ x : PortState, exec (.ackNotices ⟨p, len⟩ w) s = .next (answer p len .ok [] s (s.setPort p x))
        ∧ NoticesOnly (s.port p) x ∧ x.pulsing = (s.port p).pulsing
        ∧ (∀ i, i < 16 → flag x.pending i = (flag (s.port p).pending i && !flag w i))
        ∧ x.attention = (if (s.port p).lineMode = .level then decide (x.pending ≠ 0) else (s.port p).attention))
    ∧ ((s.port p).clearMode = .readClears →
      exec (.ackNotices ⟨p, len⟩ w) s = .next (answer p len .notPermitted [] s s)
      ∧ ∃ x : PortState, exec (.readNotices ⟨p, len⟩) s = .next (answer p len .ok [(s.port p).pending] s (s.setPort p x))
        ∧ NoticesOnly (s.port p) x ∧ x.pending = 0 ∧ x.pulsing = (s.port p).pulsing
        ∧ x.attention = (if (s.port p).lineMode = .level then false else (s.port p).attention))

/-- A raised kind joins the set of every port that takes it, leaves every other kind and every other port as they were, and moves
nothing but the notices (R175, R177). -/
def Obligations.RaisedKindJoins : Prop :=
  ∀ (k : Notice) (s : State),
    PortsKeptButNotices s (raise k s)
    ∧ (∃ v p f, raise k s = { s with portV := v, portP := p, portF := f })
    ∧ (∀ p, Takes k (s.port p) → flag ((raise k s).port p).pending k.index = true)
    ∧ (∀ p, ¬ Takes k (s.port p) → (raise k s).port p = s.port p)
    ∧ (∀ p i, i < 16 → i ≠ k.index → flag ((raise k s).port p).pending i = flag (s.port p).pending i)
    ∧ (∀ p, Takes k (s.port p) → flag (s.port p).pending k.index = true → (raise k s).port p = s.port p)
    ∧ ∀ p, Takes k (s.port p) → flag (s.port p).pending k.index = false →
        ((raise k s).port p).attention = true
          ∧ ((raise k s).port p).pulsing = ((s.port p).pulsing || decide ((s.port p).lineMode = .pulse))

/-- The lines follow the sets: every command keeps that (R175, R177). -/
def Obligations.LinesSafeKept : Prop :=
  ∀ (s t : State), LinesSafe s → step s = .next t → LinesSafe t

/-- The assertion of a port's reset line (R169): the port's own state, and the hold, rest or lock it owns; a lock that is broken has the
band evaluated, with its TIME_UNKNOWN and its checkpoint (R136, R137, R142, R143). The release of the line: the port takes frames again, and a RESTART that is owed joins its set (R178); the release of a line that is not asserted changes nothing,
the model's choice, log entry 34. -/
def Obligations.PortResets : Prop :=
  (∀ (p : PortId) (s : State), s.powered = true → (s.port p).resetAsserted = false →
    ∃ t, exec (.portReset p) s = .next t
      ∧ t.port p = { s.port p with
          pointer := 0, direction := .none, sub := 0, staging := ⟨0, 0, 0⟩, staged := 0, holding := ⟨0, 0, 0⟩,
          snapshot := .none, windows := (s.port p).imageWindows, lastStatus := .ok, pending := 0, attention := false,
          pulsing := false, resetAsserted := true }
      ∧ PortsKeptButNotices (s.setPort p (t.port p)) t
      ∧ t.recordBuffer = (if p = .F then none else s.recordBuffer)
      ∧ t.alc = (match p with
          | .V => if s.alc.hold = .none then s.alc else { s.alc with hold := .none, holdTimer := .stopped }
          | .P => if s.alc.resting = true then { s.alc with resting := false, restTimer := .stopped } else s.alc
          | .F => s.alc)
      ∧ t.mtr.lockHeld = (if p = .F then false else s.mtr.lockHeld)
      ∧ (p ≠ .F ∨ s.mtr.lockHeld = false → t.mtr = s.mtr ∧ t.ses = s.ses ∧ t.rst = s.rst ∧ t.nv = s.nv)
      ∧ (p = .F → s.mtr.lockHeld = true →
        t.mtr = { s.mtr with
          lockHeld := false, lockTimer := .stopped, band := findBand s, checkpointTimer := t.mtr.checkpointTimer }
        ∧ t.ses = (if s.mtr.clock = none ∧ s.ses.session = .opened then { s.ses with timeUnknown := true } else s.ses)
        ∧ (s.ses.session = .opened ∧ t.mtr.band ≠ s.mtr.band → CheckpointAsked s t)
        ∧ (¬ (s.ses.session = .opened ∧ t.mtr.band ≠ s.mtr.band) →
          t.rst = s.rst ∧ t.nv = s.nv ∧ t.mtr.checkpointTimer = s.mtr.checkpointTimer)
        ∧ ToldAll .tariffLockBroken (s.setPort p (t.port p)) t)
      ∧ (p = .V → s.alc.hold ≠ .none → ToldAll .holdChange (s.setPort p (t.port p)) t)
      ∧ (p = .P → s.alc.resting = true → ToldAll .holdChange (s.setPort p (t.port p)) t)
      ∧ t.plan = s.plan ∧ t.planDefaults = s.planDefaults ∧ t.sup = s.sup ∧ t.htr = s.htr ∧ t.iso = s.iso
      ∧ t.imageBuffer = s.imageBuffer)
  ∧ (∀ (p : PortId) (s : State), s.powered = true →
    ((s.port p).resetAsserted = false → exec (.portResetRelease p) s = .next s)
    ∧ ((s.port p).resetAsserted = true →
      ∃ x : PortState, exec (.portResetRelease p) s = .next (s.setPort p x)
        ∧ x.resetAsserted = false ∧ x.restartOwed = false
        ∧ NoticesOnly { s.port p with resetAsserted := false, restartOwed := false } x
        ∧ ((s.port p).restartOwed = false → x.pending = (s.port p).pending ∧ x.attention = (s.port p).attention)
        ∧ ((s.port p).restartOwed = true → Told .restart x
          ∧ ∀ i, i < 16 → i ≠ 13 → flag x.pending i = flag (s.port p).pending i)))

/-! ## The plan (R1, R2, R16) -/

/-- Every plan entry holds field values within the ranges of its entry class, after every step (R2). -/
def Obligations.PlanSafeKept : Prop := ∀ (s t : State), PlanSafe s → step s = .next t → PlanSafe t

/-! ## Plug and session (R19 to R36) -/

/-- A plug contact's raw level changes: its own timer starts, restarts or stops, and nothing else changes (R19). A debounce expiry takes
the raw levels of the contacts whose timers ran, and the plug state follows once both contacts have a state; where it does not
change, nothing else does (R19, R20). That an expiry named for a timer that is stopped takes nothing, and that a change to the level a
contact has changes nothing, are the model's choices, log entries 4 and 34. -/
def Obligations.ContactsDebounced : Prop :=
  (∀ (level : Bool) (s : State), s.powered = true →
    exec (.plugContactChange .A level) s = .next (if s.ses.rawA = level then s else { s with ses := { s.ses with
      rawA := level, timerA := if s.ses.debA = some level then .stopped else .running 100 } })
    ∧ exec (.plugContactChange .B level) s = .next (if s.ses.rawB = level then s else { s with ses := { s.ses with
      rawB := level, timerB := if s.ses.debB = some level then .stopped else .running 100 } }))
  ∧ (∀ (a b : Bool) (s : State), s.powered = true →
    let x := debounced s.ses a b
    (x.debA = if a = true ∧ s.ses.timerA ≠ .stopped then some s.ses.rawA else s.ses.debA)
    ∧ (x.debB = if b = true ∧ s.ses.timerB ≠ .stopped then some s.ses.rawB else s.ses.debB)
    ∧ (∃ t, exec (.debounceExpiry a b) s = .next t
      ∧ (∀ la lb, x.debA = some la → x.debB = some lb → t.ses.plug = plugTable la lb)
      ∧ (x.debA = none ∨ x.debB = none ∨ (∃ la lb, x.debA = some la ∧ x.debB = some lb ∧ plugTable la lb = s.ses.plug) →
        t = { s with ses := x })
      ∧ (∀ la lb, x.debA = some la → x.debB = some lb → plugTable la lb ≠ s.ses.plug → ToldAll .plugChange s t)))

/-- The plug leaves PLUGGED (R8, R21, R22, R30, R35, R45, R56): charger OFF at once, demand line IDLE, session on, entries 0–3
restored under the option; the zones, the grade and every other entry stay. How the immediate OFF is held, and what mirror 56 shows of
it, are the model's readings, log entries 22 and 23. -/
def Obligations.UnplugTurnsOff : Prop :=
  ∀ (a b la lb : Bool) (s : State), s.powered = true → s.ses.plug = .plugged →
    (debounced s.ses a b).debA = some la → (debounced s.ses a b).debB = some lb → ¬ (la = true ∧ lb = true) →
    ∃ t, exec (.debounceExpiry a b) s = .next t
      ∧ t.sup = { s.sup with demand := .idle, withdrawal := .none }
      ∧ t.alc.record = { s.alc.record with mode := .off, s := 0, iSet := 0 }
      ∧ t.alc.link = .off ∧ t.alc.fresh = true ∧ t.alc.freshTimer = .stopped
      ∧ t.alc.changeover = (if s.alc.record.mode = .off then s.alc.changeover else .running 500)
      ∧ t.alc.mirror56.w0 = 0 ∧ t.alc.mirror54 = s.alc.mirror54 ∧ t.alc.mirror55 = s.alc.mirror55
      ∧ t.alc.hold = s.alc.hold ∧ t.alc.resting = s.alc.resting ∧ t.alc.window = s.alc.window ∧ t.alc.stage = s.alc.stage
      ∧ t.ses.session = (match s.ses.session with | .opened => .closing | .closing => .closing | _ => .none)
      ∧ (s.ses.session = .opened → t.ses.closeReason = some .unplug ∧ finalPending t.rst = true
        ∧ t.ses.endTime = s.mtr.clock.getD 0 ∧ t.mtr.checkpointTimer = .stopped)
      ∧ (s.ses.session ≠ .opened → t.ses.closeReason = s.ses.closeReason ∧ t.rst = s.rst ∧ t.mtr = s.mtr)
      ∧ accountEnergy t.mtr = accountEnergy s.mtr ∧ t.mtr.lines = s.mtr.lines ∧ t.nv = s.nv
      ∧ (∀ n : Fin 53, t.plan[n] =
          if h : n.val < 4 then (if s.ses.scopedReset = true then s.planDefaults[n.val] else s.plan[n]) else s.plan[n])
      ∧ t.htr = s.htr ∧ t.iso = s.iso ∧ PortsKeptButNotices s t ∧ RestKept s t
      ∧ ToldAll .plugChange s t
      ∧ (s.ses.session = .opened ∨ s.ses.session = .plugged → ToldAll .sessionChange s t)

/-- The plug enters PLUGGED (R30, R33): a session in NONE goes to PLUGGED, or is opened on the default account under auto-open; a
session in another state stays. -/
def Obligations.PlugInMovesSession : Prop :=
  ∀ (a b : Bool) (s : State), s.powered = true → s.ses.plug ≠ .plugged →
    (debounced s.ses a b).debA = some true → (debounced s.ses a b).debB = some true →
    ∃ t, exec (.debounceExpiry a b) s = .next t ∧ t.ses.plug = .plugged ∧ ToldAll .plugChange s t
      ∧ (s.ses.session ≠ .none → t.ses.session = s.ses.session ∧ t.nv = s.nv ∧ t.mtr = s.mtr ∧ t.rst = s.rst)
      ∧ (s.ses.session = .none → ToldAll .sessionChange s t ∧
        (if s.ses.autoOpen = true ∧ s.ses.defaultAccount = true ∧ s.mtr.lockHeld = false ∧ canReserve s.nv = true then
          t.ses.session = .opened ∧ t.ses.tag = none ∧ t.ses.number = s.nv.counter ∧ t.nv.counter = s.nv.counter + 1
        else t.ses.session = .plugged ∧ t.nv = s.nv ∧ t.mtr = s.mtr))
      ∧ t.plan = s.plan ∧ t.alc = s.alc ∧ t.htr = s.htr ∧ t.iso = s.iso ∧ PortsKeptButNotices s t ∧ RestKept s t

/-- AUTHORIZE is refused with the first status that applies, in the order of R31, and a refused one changes nothing (R31, R163). One
that passes its checks opens the session (R32, R147): the lowest-numbered FREE slot is RESERVED with the counter's number, the prices
are frozen, the start time is the clock's, the accounts start empty, and the band is evaluated. -/
def Obligations.AuthorizeRefusedOrOpens : Prop :=
  (∀ (len : Nat) (arg : BitVec 8) (t0 t1 t2 t3 : Word) (s : State), Ready .F s →
    let refused (st : Status) : Prop := exec (.authorize ⟨.F, len⟩ arg t0 t1 t2 t3) s = .next (answer .F len st [] s s)
    (arg ≠ 0 ∧ arg ≠ 1 → refused .denied)
    ∧ (arg = 0 ∨ arg = 1 →
      if s.ses.session = .opened ∨ s.ses.session = .closing then refused .busy
      else if s.ses.session = .none then refused .denied
      else if arg = 0 ∧ s.ses.defaultAccount = false then refused .denied
      else if s.mtr.lockHeld = true then refused .busy
      else (∀ i : Fin 64, s.nv.slots[i].mark ≠ .free) ∨ s.nv.counter = 0 → refused .storeFull))
  ∧ ∀ (len : Nat) (arg : BitVec 8) (t0 t1 t2 t3 : Word) (s : State) (i : Fin 64), Ready .F s →
    s.ses.session = .plugged → (arg = 1 ∨ arg = 0 ∧ s.ses.defaultAccount = true) → s.mtr.lockHeld = false →
    s.nv.slots[i].mark = .free → (∀ j, j < i → s.nv.slots[j].mark ≠ .free) → s.nv.counter ≠ 0 →
    ∃ t, exec (.authorize ⟨.F, len⟩ arg t0 t1 t2 t3) s = .next t
      ∧ t.portF.lastStatus = .ok
      ∧ t.ses = { s.ses with
          session := .opened, tag := if arg = 1 then some ⟨t0, t1, t2, t3⟩ else none, number := s.nv.counter,
          prices := #v[(s.entry 49).w0, (s.entry 50).w0, (s.entry 51).w0, (s.entry 52).w0],
          startTime := s.mtr.clock.getD 0, timeUnknown := s.mtr.clock.isNone, bandHeld := false, holdWithdrawn := false,
          closeReason := none, endTime := 0 }
      ∧ t.nv = { s.nv with
          slots := s.nv.slots.set i { s.nv.slots[i] with mark := .reserved s.nv.counter }, counter := s.nv.counter + 1 }
      ∧ t.mtr = { s.mtr with
          chg := ⟨0, 0⟩, heat := ⟨0, 0⟩, aux := ⟨0, 0⟩, standby := ⟨0, 0⟩, lines := [], recorded := false,
          minPerVolt := 65535, worst := none, checkpointTimer := .running 60000, band := findBand s }
      ∧ t.rst = { s.rst with seq := 0 }
      ∧ ToldAll .sessionChange s t
      ∧ t.plan = s.plan ∧ t.alc = s.alc ∧ t.htr = s.htr ∧ t.iso = s.iso ∧ RestKept s t

/-- END SESSION closes an OPEN session with reason ENDED; in any other state it is refused NO_SESSION and changes nothing; on ports V
and P it is refused NOT_PERMITTED (R34). -/
def Obligations.EndSession : Prop :=
  ∀ (p : PortId) (len : Nat) (s : State), Ready p s →
    (p ≠ .F → exec (.endSession ⟨p, len⟩) s = .next (answer p len .notPermitted [] s s))
    ∧ (p = .F → s.ses.session ≠ .opened → exec (.endSession ⟨p, len⟩) s = .next (answer p len .noSession [] s s))
    ∧ (p = .F → s.ses.session = .opened →
      ∃ t, exec (.endSession ⟨p, len⟩) s = .next t ∧ t.portF.lastStatus = .ok
        ∧ t.ses = { s.ses with
            session := .closing, closeReason := some .ended, endTime := s.mtr.clock.getD 0,
            timeUnknown := s.ses.timeUnknown || s.mtr.clock.isNone }
        ∧ t.mtr = { s.mtr with checkpointTimer := .stopped }
        ∧ t.rst.waitCheckpoint = none
        ∧ (∃ ws, (if s.rst.writer = .idle then t.rst.writer = .final s.ses.number ws ∧ t.rst.waitFinal = s.rst.waitFinal
            else t.rst.writer = s.rst.writer ∧ t.rst.waitFinal = some (s.ses.number, ws))
          ∧ ws = withCrc (sessionWords { s with ses := t.ses } 1 t.ses.endTime))
        ∧ t.sup = { s.sup with
            demand := if s.ses.plug = .plugged then .present else .idle, withdrawal := .none }
        ∧ ToldAll .sessionChange s t
        ∧ t.plan = s.plan ∧ t.alc = s.alc ∧ t.htr = s.htr ∧ t.iso = s.iso ∧ t.nv = s.nv ∧ RestKept s t)

/-- An OPEN session leaves OPEN only for CLOSING, and CLOSING is left only at the completion of the final write, or by a power-on
reset (R30, R34 to R36). -/
def Obligations.SessionLeavesInOrder : Prop :=
  ∀ (c : Instr) (s t : State), exec c s = .next t → (∀ pins cut, c ≠ .powerOnReset pins cut) →
    (s.ses.session = .opened → t.ses.session = .opened ∨ t.ses.session = .closing)
    ∧ (s.ses.session = .closing → t.ses.session = .closing ∨ c = .finalWriteComplete)
    ∧ (s.ses.session = .opened → t.ses.tag = s.ses.tag ∧ t.ses.number = s.ses.number ∧ t.ses.prices = s.ses.prices
        ∧ t.ses.startTime = s.ses.startTime)

/-- The demand line is READY only while the session is OPEN, the grade is GOOD or WARNING, and the lockout is clear, after every
step (R27). -/
def Obligations.DemandSafeKept : Prop := ∀ (s t : State), DemandSafe s → step s = .next t → DemandSafe t

/-- The demand line that an evaluation sets (R27 to R29). The withdrawal of READY: while the van is fit and wants nothing, the first record
with mode OFF is marked, and the record after the marked one puts the line to PRESENT; demand that returns cancels it (R29). -/
def Obligations.DemandLineEvaluated : Prop :=
  (∀ s : State,
    let t := evalDemand s
    let permits := s.ses.session = .opened ∧ (s.iso.grade = .good ∨ s.iso.grade = .warning) ∧ s.iso.lockout = false
    let wants := chargeEnable s = true ∨ 0 < auxRequest s ∨ ∃ z : Fin 8,
      inMask s z = true ∧ 0 < (s.zone z).rating ∧ (s.zone z).temp.isSome = true ∧ (s.zone z).want = true
        ∧ ∀ k, (s.zone z).state ≠ .faulted k
    t = { s with sup := t.sup } ∧ t.sup = { s.sup with demand := t.sup.demand, withdrawal := t.sup.withdrawal }
    ∧ (s.ses.plug ≠ .plugged → t.sup.demand = .idle ∧ t.sup.withdrawal = .none)
    ∧ (s.ses.plug = .plugged → s.commission = true ∨ ¬ permits → t.sup.demand = .present ∧ t.sup.withdrawal = .none)
    ∧ (s.ses.plug = .plugged → s.commission = false → permits → wants →
        t.sup.demand = .ready ∧ t.sup.withdrawal = .none)
    ∧ (s.ses.plug = .plugged → s.commission = false → permits → ¬ wants →
        if s.sup.demand = .ready then
          t.sup.demand = .ready
            ∧ t.sup.withdrawal = (if s.sup.withdrawal = .none then .waiting else s.sup.withdrawal)
        else t.sup.demand = .present ∧ t.sup.withdrawal = .none))
  ∧ (∀ s : State, s.powered = true → s.ses.plug = .plugged → s.commission = false → permission s = true →
    s.sup.demand = .ready →
    ∃ t, exec .allocationInterval s = .next t
      ∧ (s.sup.withdrawal = .waiting → wantsPower s = false →
          t.sup.demand = .ready ∧ t.sup.withdrawal = (if t.alc.record.mode = .off then .marked else .waiting))
      ∧ (s.sup.withdrawal = .marked → wantsPower s = false → t.sup.demand = .present ∧ t.sup.withdrawal = .none)
      ∧ (wantsPower s = true → t.sup.demand = .ready ∧ t.sup.withdrawal = .none)
      ∧ (s.sup.withdrawal ≠ .none → t.alc.record.source ≠ .grid))

/-! ## The pilot and the phases (R23 to R26) -/

/-- A pilot period completes (R23 to R25): its duty joins the history or a period outside 450–550 Hz empties it, and a full history is
decoded by Table 2-1. The silence timeout, an edge, and the expiry of the pilot hold (R25). The end of a phase window (R26):
presence from 100.0 V, n_ph and U_min over the phases that the strap admits. The model's readings here: a period's own edge counts in
the hold (log entry 10), periods come in ns (26), and an expiry of a stopped timer changes nothing (4). -/
def Obligations.PilotAndPhases : Prop :=
  (∀ (period high : Nat) (s : State), s.powered = true →
    let valid := 450 * period ≤ 1000000000 ∧ 1000000000 ≤ 550 * period
    let history := (s.sup.history ++ [high * 1000 / period]).drop (s.sup.history.length + 1 - 8)
    let edge := if s.sup.holdTimer = .stopped then s.sup.edgeSeen else true
    (¬ valid → exec (.pilotPeriod period high) s = .next { s with sup := { s.sup with
      history := []
      holdTimer := if s.sup.holdTimer = .stopped ∧ s.sup.decoded = true then .running 200 else s.sup.holdTimer
      edgeSeen := if s.sup.holdTimer = .stopped ∧ s.sup.decoded = true then false else edge } })
    ∧ (valid → s.sup.history.length < 7 → exec (.pilotPeriod period high) s = .next { s with sup := { s.sup with
      history := history, silenceTimer := .running 200, edgeSeen := edge } })
    ∧ (valid → 7 ≤ s.sup.history.length →
      let d := history.sum / 8
      let pilot : Pilot := if d < 80 then .fault else if d ≤ 99 then .pause else if d ≤ 960 then .offer else .fault
      ∃ t, exec (.pilotPeriod period high) s = .next t
        ∧ t = { s with sup := t.sup, portV := t.portV, portP := t.portP, portF := t.portF }
        ∧ t.sup = { s.sup with
            history := history, silenceTimer := .running 200, pilot := pilot, decoded := true, holdTimer := .stopped,
            edgeSeen := false, iPil := if pilot = .offer then min 640 ((d - 100) * 4 / 5) else 0 }
        ∧ history.length = 8
        ∧ (pilot = s.sup.pilot → t.portV = s.portV ∧ t.portP = s.portP ∧ t.portF = s.portF)
        ∧ (pilot ≠ s.sup.pilot → ToldAll .pilotChange s t) ∧ PortsKeptButNotices s t))
  ∧ (∀ s : State, s.powered = true →
    exec .pilotSilenceTimeout s = .next (if s.sup.silenceTimer = .stopped then s else { s with sup := { s.sup with
        silenceTimer := .stopped
        holdTimer := if s.sup.holdTimer = .stopped ∧ s.sup.decoded = true then .running 200 else s.sup.holdTimer
        edgeSeen := if s.sup.holdTimer = .stopped ∧ s.sup.decoded = true then false else s.sup.edgeSeen } })
    ∧ exec .pilotEdge s = .next { s with sup := { s.sup with
        edgeSeen := if s.sup.holdTimer = .stopped then s.sup.edgeSeen else true } }
    ∧ (s.sup.holdTimer = .stopped → exec .pilotHoldExpiry s = .next s)
    ∧ (s.sup.holdTimer ≠ .stopped →
      let pilot : Pilot := if s.sup.edgeSeen = true then .fault else .absent
      ∃ t, exec .pilotHoldExpiry s = .next t
        ∧ t = { s with sup := t.sup, portV := t.portV, portP := t.portP, portF := t.portF }
        ∧ t.sup = { s.sup with
            pilot := pilot, iPil := 0, holdTimer := .stopped, decoded := false, edgeSeen := false }
        ∧ (pilot = s.sup.pilot → t.portV = s.portV ∧ t.portP = s.portP ∧ t.portF = s.portF)
        ∧ (pilot ≠ s.sup.pilot → ToldAll .pilotChange s t) ∧ PortsKeptButNotices s t))
  ∧ ∀ (u1 u2 u3 : Nat) (s : State), s.powered = true →
    let present := (if s.threePhases = true then [u1, u2, u3] else [u1]).filter (fun u => decide (1000 ≤ u))
    ∃ t, exec (.phaseWindowEnd u1 u2 u3) s = .next t
      ∧ t = { s with sup := { s.sup with
          u1 := u1, u2 := u2, u3 := u3, nPh := present.length, uMin := t.sup.uMin,
          supplyPresent := decide (1 ≤ present.length) } }
      ∧ (present = [] → t.sup.uMin = 0)
      ∧ (present ≠ [] → t.sup.uMin ∈ present ∧ ∀ u ∈ present, t.sup.uMin ≤ u)

/-! ## The power allocator (R38 to R61) -/

/-- In every grant record G_heat + G_aux + g_chg ≤ B, S ≤ g_chg, B is the grid budget or the pack heating budget by the source,
G_heat is the sum of the zone set, and what is granted to none or held back is unused (R50, R53, R54). S rises by at most the ramp
step, falls at once, and is 0 under a quiet window, a rest and a bus below 50.0 V; I_set is S over U_bus, clamped to I_acc, which
counts as 0 while STALE (R8, R51 to R53). The division of B (R47 to R50): each consumer is offered what those before it in rank left, up
to its request and its cap, and takes nothing below its floor; a rest in CHARGE drops HEAT and AUX (R49, R52); HEAT takes whole
zones, by the prefix rule at a slot boundary and by keep-or-shed between two. That a boundary is not due while one waits for the
heater is the model's reading, log entry 6. -/
def Obligations.GrantRecordBalances : Prop :=
  (∀ s : State,
    let r := computeRecord s
    r.gHeat + r.gAux + r.gChg ≤ r.b ∧ r.s ≤ r.gChg ∧ r.gHeat = ratingSum r.zones
      ∧ r.unused = r.b - r.gHeat - r.gAux - r.s
      ∧ r.b = (match r.source with | .grid => bGrid s | .pack => packBudget s | .none => 0)
      ∧ (r.source ≠ .grid → r.gAux = 0) ∧ (r.mode ≠ .charge → r.gChg = 0) ∧ (r.source = .none → r.gHeat = 0)
      ∧ r.gHeat ≤ capOf s .heat ∧ r.gAux ≤ capOf s .aux ∧ r.gChg ≤ capOf s .chg
      ∧ (0 < r.gAux → floorOf s .aux ≤ r.gAux) ∧ (0 < r.gChg → floorOf s .chg ≤ r.gChg)
      ∧ r.seq = s.alc.record.seq + 1)
  ∧ (∀ s : State,
    let r := computeRecord s
    let iAcc := if s.alc.fresh = true then (s.entry 5).w0.toNat else 0
    (s.alc.window = .granted ∨ s.alc.resting = true ∨ s.iso.uBus < 500 → r.s = 0)
    ∧ (¬ (s.alc.window = .granted ∨ s.alc.resting = true ∨ s.iso.uBus < 500) →
      r.s = if s.alc.record.s < r.gChg then min r.gChg (s.alc.record.s + (s.entry 3).w2.toNat) else r.gChg)
    ∧ r.iSet = (if s.iso.uBus < 500 then 0 else min (r.s * 100 / s.iso.uBus) iAcc)
    ∧ r.gChg ≤ s.iso.uBus * iAcc / 100)
  ∧ (∀ s : State,
    let r := computeRecord s
    let granted : Consumer → Nat := fun c => match c with | .heat => r.gHeat | .aux => r.gAux | .chg => r.gChg
    let place : Consumer → Nat := fun c => match c with | .heat => 0 | .aux => 1 | .chg => 2
    let before (d c : Consumer) : Bool := rankOf s d < rankOf s c || rankOf s d == rankOf s c && place d < place c
    let left (c : Consumer) : Nat := r.b - ((([.heat, .aux, .chg] : List Consumer).filter (before · c)).map granted).sum
    let iAcc := if s.alc.fresh = true then (s.entry 5).w0.toNat else 0
    let heatZones := if r.boundary = true then turnQueue s else publishedSet s
    let asked : Consumer → Nat := fun c => match c with
      | .heat => if r.source = .none then 0 else (heatZones.map fun z => (s.entry (zoneEntry z)).w2.toNat).sum
      | .aux => if r.source = .grid then (s.entry 4).w0.toNat else 0
      | .chg => if r.mode = .charge ∧ flag (s.entry 4).w1 0 = true ∧ s.iso.uBus < (s.entry 5).w1.toNat then
          s.iso.uBus * iAcc / 100 else 0
    let offered (c : Consumer) : Nat :=
      let want := if s.alc.resting = true ∧ r.mode = .charge ∧ c ≠ .chg then 0 else min (asked c) (capOf s c)
      if min want (left c) < floorOf s c then 0 else min want (left c)
    let heat := if r.boundary = true then prefixRule s (offered .heat) else keepOrShed s (offered .heat)
    r.gAux = offered .aux ∧ r.gChg = offered .chg
      ∧ r.zones = heat.zones ∧ r.moves = heat.moves ∧ r.p = heat.p ∧ r.round = heat.round
      ∧ (r.boundary = true ↔ s.htr.boundaryDue = true ∧ s.alc.window ≠ .granted ∧ ∀ x ∈ s.htr.inbox, x.boundary = false)
      ∧ (s.alc.resting = true → r.mode = .charge → r.zones = [] ∧ r.gHeat = 0 ∧ r.gAux = 0))

/-- The turn queue that the heater publishes (R81, R88). The prefix rule (R86, R89): from the turn position on, wrapping over the
block, the zones that are eligible and want heat are taken one after the other until one does not fit; the turn position becomes that
zone's, or stays after L positions, and a round is completed where the walk passes from position L − 1 to 0. That a zone whose stored
rating is 0 is passed over is the model's reading, log entry 7; that with L = 1 a stopped walk completes a round too, log entry 37. The
keep-or-shed rule (R90): the published set, less the zones rated 0, keeps its longest beginning that fits. -/
def Obligations.HeatQuantized : Prop :=
  ∀ (s : State) (g : Nat),
    let h := s.htr
    let len := h.mode.burst.len
    let rating (z : Fin 8) : Nat := (s.entry (zoneEntry z)).w2.toNat
    let order := (List.range len).map fun i => zoneAt h ((h.p.val + i) % len)
    let enabled (z : Fin 8) : Prop := 0 < (s.zone z).rating ∧ h.mode.mask.getLsbD z.val = true
    let candidate (z : Fin 8) : Prop := enabled z ∧ (s.zone z).state = .unchecked
      ∧ ∀ y, y < z → enabled y → (s.zone y).state ≠ .unchecked
    let checking : Prop := ∃ z, enabled z ∧ ((s.zone z).state = .unchecked ∨ (s.zone z).state = .checking)
    let offered : Prop := h.check = none ∧ s.alc.record.source ≠ .none ∧ (s.iso.grade = .good ∨ s.iso.grade = .warning)
      ∧ s.iso.lockout = false ∧ 500 ≤ s.iso.uBus ∧ h.pendingMode = none
    let wants (z : Fin 8) : Bool := (s.zone z).state == .off && decide (0 < (s.zone z).rating) && (s.zone z).temp.isSome
      && h.mode.mask.getLsbD z.val && z.val / len == h.s.val / len && (s.zone z).want
    let takes (z : Fin 8) : Bool := wants z && decide (0 < rating z)
    let r := prefixRule s g
    let k := keepOrShed s g
    (checking → (∀ z, candidate z → offered → turnQueue s = [z])
      ∧ ((∀ z, ¬ candidate z) ∨ ¬ offered → turnQueue s = []))
    ∧ (¬ checking → h.pendingMode ≠ none → turnQueue s = [])
    ∧ (¬ checking → h.pendingMode = none → turnQueue s = order.filter wants)
    ∧ r.boundary = true
    ∧ (checking ∨ h.pendingMode ≠ none → r.moves = false ∧ r.p = h.p ∧ r.round = false
      ∧ r.zones = ((turnQueue s).map fun z => (z, rating z)).filter fun x => decide (0 < x.2 ∧ x.2 ≤ g))
    ∧ (¬ checking → h.pendingMode = none → r.moves = true ∧ ∃ n, n ≤ len
      ∧ r.zones = ((order.take n).filter takes).map (fun z => (z, rating z)) ∧ ratingSum r.zones ≤ g
      ∧ (n = len → r.p = h.p ∧ r.round = true)
      ∧ (n < len → (∀ z, order[n]? = some z → takes z = true ∧ g < ratingSum r.zones + rating z)
        ∧ r.p.val = (h.p.val + n) % len ∧ r.round = decide ((h.p.val + n) % len < h.p.val ∨ len = 1)))
    ∧ k.boundary = false ∧ k.moves = false ∧ k.p = h.p ∧ k.round = false
    ∧ ∃ n,
      let published := match h.check with | some ck => [ck.zone] | none => h.energized
      let set := (published.map fun z => (z, rating z)).filter fun x => decide (0 < x.2)
      n ≤ set.length ∧ k.zones = set.take n ∧ ratingSum k.zones ≤ g
        ∧ (n < set.length → g < ratingSum (set.take (n + 1)))

/-- P_sup, P_in and B_grid (R40 to R42); and the mode and the source of a record are those of Table 3-3 (R43, R44, R46). -/
def Obligations.BudgetAndModeChosen : Prop :=
  (∀ s : State,
    let pSup := if s.sup.pilot = .offer ∧ s.sup.supplyPresent = true ∧ s.ses.plug = .plugged then
      s.sup.nPh * s.sup.uMin * s.sup.iPil / 100 else 0
    let allowed := s.ses.session = .opened ∧ (s.iso.grade = .good ∨ s.iso.grade = .warning) ∧ s.iso.lockout = false
      ∧ s.alc.stage = .available ∧ s.sup.demand = .ready ∧ s.sup.withdrawal = .none ∧ s.commission = false
    let cap := min (s.entry 3).w0.toNat (if s.threePhases = true then 22000 else 7400)
    (allowed → bGrid s = min pSup cap * (s.entry 3).w1.toNat / 1000) ∧ (¬ allowed → bGrid s = 0))
  ∧ (∀ s : State,
    let r := computeRecord s
    let live := flag (s.entry 5).w2 0 = true
    let contradiction := (s.alc.record.mode = .charge ∧ ¬ live) ∨ (s.alc.record.mode = .busSupply ∧ live)
    let gap := s.alc.changeover ≠ .stopped
    let pack := live ∧ flag (s.entry 4).w1 1 = true ∧ flag (s.entry 5).w2 1 = true
      ∧ (s.iso.grade = .good ∨ s.iso.grade = .warning) ∧ s.iso.lockout = false ∧ s.commission = false
    (¬ contradiction → ¬ gap → 0 < bGrid s → live → r.mode = .charge ∧ r.source = .grid)
    ∧ (¬ contradiction → ¬ gap → 0 < bGrid s → ¬ live → heatDemand s = true → r.mode = .busSupply ∧ r.source = .grid)
    ∧ (contradiction ∨ gap ∨ bGrid s = 0 ∨ (¬ live ∧ heatDemand s = false) →
      r.mode = .off ∧ (pack → r.source = .pack) ∧ (¬ pack → r.source = .none)))

/-- One allocation interval (R38, R54 to R57, R71, R72): the record is computed under a window that the interval grants, becomes the
record in force, goes to the heater and the link, and refreshes mirrors 54 to 56; a contradiction raises STAGE_FAULT with cause BUS.
That the heater takes records through a queue, and which moment mirror 56 shows the demand line and the changeover timer at, are
the model's readings, log entries 6 and 22. -/
def Obligations.IntervalPublishes : Prop :=
  ∀ s : State, s.powered = true →
    let grants := s.alc.window = .waiting ∧ s.alc.hold ≠ .held
    let clash := (s.alc.record.mode = .charge ∧ busLive s = false) ∨ (s.alc.record.mode = .busSupply ∧ busLive s = true)
    let r := computeRecord { s with alc := { s.alc with
      window := if grants then .granted else s.alc.window, cause := if clash then .bus else s.alc.cause } }
    let settles := s.alc.window = .waiting ∧ (s.alc.hold ≠ .held ∨ s.alc.resting = true)
    ∃ t, exec .allocationInterval s = .next t
      ∧ t.alc.record = r ∧ t.alc.link = linkOf r ∧ t.htr = { s.htr with inbox := s.htr.inbox ++ [r] }
      ∧ t.alc.changeover = (if r.mode = .off ∧ s.alc.record.mode ≠ .off then .running 500 else s.alc.changeover)
      ∧ t.alc.fresh = (if r.mode = .charge ∧ s.alc.record.mode = .charge then s.alc.fresh else true)
      ∧ t.alc.freshTimer = (if r.mode = .charge then
          (if s.alc.record.mode = .charge then s.alc.freshTimer else .running 2000) else .stopped)
      ∧ t.alc.mirror54.w1 = word r.b ∧ t.alc.mirror54.w2 = word r.unused
      ∧ (let w := t.alc.mirror54.w0
        field w 0 2 = (match r.source with | .none => 0 | .grid => 1 | .pack => 2)
        ∧ field w 2 2 = (match r.mode with | .off => 0 | .charge => 1 | .busSupply => 2)
        ∧ field w 4 3 = (match s.alc.stage with | .available => 0 | .notReady => 1 | .faulted => 2 | .recovering => 3)
        ∧ field w 8 2 = (match t.alc.cause with | .none => 0 | .stage => 1 | .ready => 2 | .bus => 3)
        ∧ flag w 7 = false ∧ field w 10 6 = 0)
      ∧ t.alc.mirror55 = ⟨word r.gHeat, word r.gAux, word r.s⟩
      ∧ t.alc.mirror56.w0 = word r.iSet ∧ t.alc.mirror56.w1 = word s.iso.uBus
      ∧ (let w := t.alc.mirror56.w2
        field w 0 2 = (match s.alc.hold with | .none => 0 | .held => 1 | .suspended => 2)
        ∧ flag w 2 = s.alc.resting ∧ flag w 3 = decide (s.alc.window = .granted ∨ grants)
        ∧ flag w 4 = decide (s.sup.demand = .ready) ∧ flag w 5 = decide (t.alc.changeover ≠ .stopped) ∧ field w 6 10 = 0)
      ∧ t.alc.window = (if settles then .granted else s.alc.window)
      ∧ t.iso = (if settles then { s.iso with
          phase := .settleA, bridge := .a, phaseTimer := .running 400, sumUpA := 0, sumUnA := 0, countA := 0, sumUpB := 0,
          sumUnB := 0, countB := 0 } else s.iso)
      ∧ t.alc.cause = (if clash then .bus else s.alc.cause) ∧ (clash → ToldAll .stageFault s t)
      ∧ t.alc.hold = s.alc.hold ∧ t.alc.resting = s.alc.resting ∧ t.alc.stage = s.alc.stage
      ∧ (s.sup.withdrawal = .none → t.sup = s.sup)
      ∧ t.plan = s.plan ∧ t.ses = s.ses ∧ t.mtr = s.mtr ∧ t.rst = s.rst ∧ t.nv = s.nv
      ∧ (¬ clash → t.portV = s.portV ∧ t.portP = s.portP ∧ t.portF = s.portF)
      ∧ PortsKeptButNotices s t ∧ RestKept s t

/-- No step goes directly between CHARGE and BUS_SUPPLY, and a step into either starts from OFF with the changeover timer stopped
(R45, R46). -/
def Obligations.ModesNeverMeet : Prop :=
  ∀ (c : Instr) (s t : State), exec c s = .next t →
    ¬ (s.alc.record.mode = .charge ∧ t.alc.record.mode = .busSupply)
      ∧ ¬ (s.alc.record.mode = .busSupply ∧ t.alc.record.mode = .charge)
      ∧ (s.alc.record.mode = .off → t.alc.record.mode ≠ .off → c = .allocationInterval ∧ s.alc.changeover = .stopped)
      ∧ (t.alc.record.mode = .off → s.alc.record.mode ≠ .off →
          t.alc.changeover = .running 500 ∨ ∃ pins cut, c = .powerOnReset pins cut)

/-- The expiries of the changeover timer (R45) and of the acceptance freshness timer (R8); the stage lines and the recovery timer (R58 to
R60). That an expiry of a stopped freshness or recovery timer, and a line change to the level it has, change nothing is the model's
choice, log entries 4 and 34. -/
def Obligations.StageLinesAndTimers : Prop :=
  (∀ s : State, s.powered = true →
    exec .changeoverExpiry s = .next { s with alc := { s.alc with changeover := .stopped } }
    ∧ (s.alc.freshTimer = .stopped → exec .acceptanceFreshnessExpiry s = .next s)
    ∧ (s.alc.freshTimer ≠ .stopped → exec .acceptanceFreshnessExpiry s =
        .next (raise .acceptanceStale { s with alc := { s.alc with fresh := false, freshTimer := .stopped } })))
  ∧ (∀ s : State, s.powered = true →
    (∀ level, s.alc.stageReady = level → exec (.stageReadyChange level) s = .next s)
    ∧ (s.alc.stageReady = false → exec (.stageReadyChange true) s = .next { s with alc := { s.alc with
        stageReady := true, stage := if s.alc.stage = .notReady then .available else s.alc.stage } })
    ∧ (s.alc.stageReady = true → exec (.stageReadyChange false) s = .next
        (if s.alc.stage = .available then
          (if s.alc.record.mode = .off then { s with alc := { s.alc with stageReady := false, stage := .notReady } }
          else raise .stageFault
            { s with alc := { s.alc with stageReady := false, stage := .notReady, cause := .ready } })
        else { s with alc := { s.alc with stageReady := false } }))
    ∧ (∀ level, s.alc.stageFault = level → exec (.stageFaultChange level) s = .next s)
    ∧ (s.alc.stageFault = false → exec (.stageFaultChange true) s = .next (raise .stageFault { s with alc := { s.alc with
        stageFault := true, stage := .faulted, recovery := .stopped, cause := .stage } }))
    ∧ (s.alc.stageFault = true → exec (.stageFaultChange false) s = .next { s with alc := { s.alc with
        stageFault := false, stage := .recovering, recovery := .running 5000 } })
    ∧ exec .stageRecoveryExpiry s = .next (if s.alc.recovery = .stopped then s else { s with alc := { s.alc with
        recovery := .stopped, stage := if s.alc.stageReady = true then .available else .notReady } }))

/-! ## The departure hold and the rest (R62 to R70) -/

/-- DEPARTURE HOLD, RELEASE HOLD and the hold timer (R63, R64). REST, END REST and the rest timer (R69, R70): a duration outside 1–120 s is
clamped. That an expiry of a stopped hold or rest timer changes nothing is the model's choice, log entry 4. -/
def Obligations.HoldAndRestRequests : Prop :=
  (∀ (len : Nat) (s : State), Ready .V s →
    let fit := (s.iso.grade = .good ∨ s.iso.grade = .warning) ∧ s.iso.lockout = false ∧ s.iso.age < overdueLimit s.iso
    (s.alc.hold ≠ .none → exec (.departureHold ⟨.V, len⟩) s = .next (answer .V len .busy [] s s))
    ∧ (s.alc.hold = .none → ¬ fit → exec (.departureHold ⟨.V, len⟩) s = .next (answer .V len .denied [] s s))
    ∧ (s.alc.hold = .none → fit → exec (.departureHold ⟨.V, len⟩) s = .next (answer .V len .ok [] s
        { s with alc := { s.alc with hold := .held, holdTimer := .running 1800000 } }))
    ∧ (s.alc.hold = .none → exec (.releaseHold ⟨.V, len⟩) s = .next (answer .V len .denied [] s s))
    ∧ (s.alc.hold ≠ .none → exec (.releaseHold ⟨.V, len⟩) s = .next (answer .V len .ok [] s
        { s with alc := { s.alc with hold := .none, holdTimer := .stopped } }))
    ∧ exec .holdTimerExpiry s = .next
        (if s.alc.holdTimer = .stopped ∨ s.alc.hold = .none then s
        else raise .holdChange { s with alc := { s.alc with hold := .none, holdTimer := .stopped } }))
  ∧ (∀ (len : Nat) (w : Word) (s : State), Ready .P s →
    let seconds := if w.toNat < 1 then 1 else if 120 < w.toNat then 120 else w.toNat
    exec (.rest ⟨.P, len⟩ w) s = .next (answer .P len (if seconds = w.toNat then .ok else .okClamped) [] s
        { s with alc := { s.alc with resting := true, restTimer := .running (1000 * seconds) } })
    ∧ (s.alc.resting = false → exec (.endRest ⟨.P, len⟩) s = .next (answer .P len .denied [] s s))
    ∧ (s.alc.resting = true → exec (.endRest ⟨.P, len⟩) s = .next (answer .P len .ok [] s
        { s with alc := { s.alc with resting := false, restTimer := .stopped } }))
    ∧ exec .restTimerExpiry s = .next
        (if s.alc.restTimer = .stopped ∨ s.alc.resting = false then s
        else raise .holdChange { s with alc := { s.alc with resting := false, restTimer := .stopped } }))

/-- The departure hold is never HELD while the age is at or above the overdue limit, after every step (R65, R102). -/
def Obligations.HoldSafeKept : Prop := ∀ (s t : State), HoldSafe s → step s = .next t → HoldSafe t

/-! ## The heater (R75 to R97) -/

/-- The conversions of the eight zones (R77, R78, R93): every zone's temperature and want flag; an ENERGIZED or CHECKING zone at its
limit goes to FAULTED OVERTEMP, an ENERGIZED zone without a sensor rests, and any other zone keeps its state. The switch changes of
all eight zones make one report to the monitor (R76, R109). -/
def Obligations.ConversionTakesReadings : Prop :=
  ∀ (readings : Vector Thermistor 8) (s : State), s.powered = true →
    ∃ t, exec (.heaterConversion readings) s = .next t
      ∧ (∀ z : Fin 8,
        let temp := readings[z].map fun v => if v < -500 then -500 else if 1500 < v then 1500 else v
        let hot := (s.zone z).state = .energized ∨ (s.zone z).state = .checking
        let tooHot := ∃ v, temp = some v ∧ zoneTarget s z + 100 ≤ v
        (t.zone z).temp = temp ∧ (t.zone z).rating = (s.zone z).rating
        ∧ (∀ v, temp = some v →
          (v ≤ zoneTarget s z - zoneHysteresis s z → (t.zone z).want = true)
          ∧ (zoneTarget s z - zoneHysteresis s z < v → zoneTarget s z ≤ v → (t.zone z).want = false)
          ∧ (zoneTarget s z - zoneHysteresis s z < v → v < zoneTarget s z → (t.zone z).want = (s.zone z).want))
        ∧ (temp = none → (t.zone z).want = (s.zone z).want)
        ∧ (hot → tooHot → (t.zone z).state = .faulted .overtemp ∧ ToldAll .heaterFault s t)
        ∧ ((s.zone z).state = .energized → temp = none →
          (t.zone z).state = if s.htr.mode.dwell = 0 then .off else .dwell s.htr.mode.dwell)
        ∧ (¬ (hot ∧ tooHot) → ¬ ((s.zone z).state = .energized ∧ temp = none) → (t.zone z).state = (s.zone z).state)
        ∧ (temp = none → ((s.zone z).temp.isSome = true ∨ s.htr.converted = false) → ToldAll .heaterFault s t))
      ∧ (ZonesSound s →
        let tooHot (z : Fin 8) : Prop := ∃ v, readings[z] = some v ∧ zoneTarget s z + 100 ≤ max (-500) (min 1500 v)
        SwitchesReported ((∃ z, (s.zone z).state = .energized ∧ (tooHot z ∨ readings[z] = none))
          ∨ ∃ ck, s.htr.check = some ck ∧ ck.pulseOn = true ∧ tooHot ck.zone) s t)
      ∧ t.htr.converted = true ∧ t.htr.inbox = s.htr.inbox ∧ t.htr.applied = s.htr.applied
      ∧ t.plan = s.plan ∧ t.ses = s.ses ∧ t.mtr = s.mtr ∧ t.rst = s.rst ∧ t.nv = s.nv
      ∧ t.alc.record = s.alc.record ∧ t.alc.hold = s.alc.hold ∧ t.iso.grade = s.iso.grade
      ∧ t.iso.lockout = s.iso.lockout ∧ PortsKeptButNotices s t ∧ RestKept s t

/-- The heater applies the oldest grant record it has received (R80, R91, R92): under a boundary record the zones of the set that are OFF
with a valid temperature go to ENERGIZED in the record's order, behind those that stay, and under any other none does (R73, R90); the
ENERGIZED zones outside it rest, a check outside it is aborted, a candidate in it starts its check (R81, R82, R84), and a boundary counts
the dwells down and restarts the slot. The switch changes make one report to the monitor (R76, R109). The model's readings: records come
through a queue (log entry 6), p is taken modulo the L in force (9), a boundary's steps stand over an abort's (19), no check begins while a
mode is pending (20), and a boundary record energizes its zones in a check phase begun since (39). -/
def Obligations.GrantRecordApplied : Prop :=
  ∀ s : State, s.powered = true → ZonesSound s →
    (s.htr.inbox = [] → exec .grantRecordApply s = .next s)
    ∧ ∀ r rest, s.htr.inbox = r :: rest →
      let set := if (s.iso.grade = .good ∨ s.iso.grade = .warning) ∧ s.iso.lockout = false then r.zones else []
      let ratingInUse (z : Fin 8) : Nat := (carriedRating set z).getD (zoneRating s z)
      let kept (z : Fin 8) : Prop := inSet set z = true ∧ 0 < ratingInUse z ∧ inMask s z = true
      let unchecked (z : Fin 8) : Prop := (s.zone z).state = .unchecked ∨ (s.zone z).state = .checking ∧ ¬ kept z
      let begins (z : Fin 8) : Prop := unchecked z ∧ kept z ∧ s.htr.pendingMode = none
        ∧ (∀ y, y < z → unchecked y → 0 < ratingInUse y → inMask s y = false)
        ∧ ∀ y, (s.zone y).state = .checking → ¬ kept y
      ∃ t, exec .grantRecordApply s = .next t
        ∧ t.htr.inbox = rest ∧ t.htr.applied = r
        ∧ (∀ z : Fin 8, (t.zone z).rating = ratingInUse z
          ∧ (t.zone z).temp = (s.zone z).temp ∧ (t.zone z).want = (s.zone z).want
          ∧ match (s.zone z).state with
            | .energized => (t.zone z).state = if inSet set z = true then .energized
                else if s.htr.mode.dwell = 0 then .off else .dwell s.htr.mode.dwell
            | .off => (t.zone z).state =
                if r.boundary = true ∧ inSet set z = true ∧ (s.zone z).temp.isSome = true then .energized else .off
            | .dwell n => (t.zone z).state = if r.boundary = true then (if n ≤ 1 then .off else .dwell (n - 1)) else .dwell n
            | .checking => (kept z → (t.zone z).state = .checking) ∧ (¬ kept z → (t.zone z).state = .unchecked)
            | .unchecked => (begins z ∧ 500 ≤ s.iso.uBus → (t.zone z).state = .checking
                  ∧ t.htr.check = some ⟨z, ratingInUse z * 100 / s.iso.uBus, false, none, false, false⟩)
                ∧ (¬ (begins z ∧ 500 ≤ s.iso.uBus) → (t.zone z).state = .unchecked)
            | st => (t.zone z).state = st)
        ∧ ((set.map Prod.fst).Nodup → t.htr.energized = s.htr.energized.filter (inSet set)
          ++ (set.map Prod.fst).filter fun z => r.boundary && (s.zone z).state == .off && (s.zone z).temp.isSome)
        ∧ SwitchesReported ((∃ z, (s.zone z).state = .energized ∧ inSet set z = false)
          ∨ (r.boundary = true ∧ ∃ z, inSet set z = true ∧ (s.zone z).state = .off ∧ (s.zone z).temp.isSome = true)
          ∨ ∃ ck, s.htr.check = some ck ∧ ck.pulseOn = true ∧ ¬ kept ck.zone) s t
        ∧ (r.boundary = true → t.htr.slotTimer = .running 2000 ∧ t.htr.boundaryDue = false)
        ∧ (r.boundary = false →
          ((∃ z, (s.zone z).state = .checking ∧ ¬ kept z) ∨ (∃ z, begins z ∧ s.iso.uBus < 500) →
            t.htr.slotTimer = .stopped ∧ t.htr.boundaryDue = true)
          ∧ ((∀ z, (s.zone z).state = .checking → kept z) → (∀ z, begins z → 500 ≤ s.iso.uBus) →
            t.htr.slotTimer = s.htr.slotTimer ∧ t.htr.boundaryDue = s.htr.boundaryDue))
        ∧ (s.htr.pendingMode = none →
          if r.boundary = true ∧ r.moves = true then
            if r.round = true ∧ s.htr.mode.sweep = true then
              t.htr.p = 0 ∧ t.htr.s.val = (s.htr.s.val + s.htr.mode.burst.len) % 8
            else t.htr.p.val = r.p.val % s.htr.mode.burst.len ∧ t.htr.s = s.htr.s
          else t.htr.p = s.htr.p ∧ t.htr.s = s.htr.s)
        ∧ t.plan = s.plan ∧ t.ses = s.ses ∧ t.mtr = s.mtr ∧ t.rst = s.rst ∧ t.nv = s.nv
        ∧ t.alc.record = s.alc.record ∧ t.alc.hold = s.alc.hold ∧ t.iso.grade = s.iso.grade
        ∧ t.iso.lockout = s.iso.lockout ∧ PortsKeptButNotices s t ∧ RestKept s t

/-- A start-up check pulse begins, or waits for the end of a quiet window; the end of a pulse is judged (R73, R82, R83); and each is a
switch change reported to the monitor (R76, R109). The slot timer's expiry (R87), and CLEAR ZONE (R97). That a pulse event with no check, a
start during a pulse and an end without one change nothing is the model's choice, log entry 34; so is that of the stopped slot timer, log
entry 4. -/
def Obligations.CheckPulsesSlotsAndClearZone : Prop :=
  (∀ (i : Nat) (s : State), s.powered = true →
    (s.htr.check = none → exec .checkPulseStart s = .next s ∧ exec (.checkPulseEnd i) s = .next s)
    ∧ ∀ ck, s.htr.check = some ck →
      (ck.pulseOn = true → exec .checkPulseStart s = .next s)
      ∧ (ck.pulseOn = false → exec (.checkPulseEnd i) s = .next s)
      ∧ (ck.pulseOn = false → s.alc.window = .granted → exec .checkPulseStart s =
        .next { s with htr := { s.htr with check := some { ck with waiting := true } } })
      ∧ (ck.pulseOn = false → s.alc.window ≠ .granted →
        ∃ t, exec .checkPulseStart s = .next t ∧ t.htr.zones = s.htr.zones
          ∧ (s.iso.phase.inFlight = false → t.iso = s.iso ∧ t.alc = s.alc)
          ∧ ((s.zone ck.zone).state = .checking → SwitchesReported True s t
            ∧ t.htr = { s.htr with check := some { ck with pulseOn := true, waiting := false } }))
      ∧ (ck.pulseOn = true → (s.zone ck.zone).state = .checking →
        let r : PulseResult := if 2 * i < ck.iExp then .low else if 2 * i ≤ 3 * ck.iExp then .pass else .high
        ∃ t, exec (.checkPulseEnd i) s = .next t
          ∧ (∀ z, z ≠ ck.zone → t.zone z = s.zone z) ∧ t.plan = s.plan ∧ t.ses = s.ses ∧ t.mtr = s.mtr ∧ t.rst = s.rst
          ∧ t.nv = s.nv ∧ t.alc.record = s.alc.record ∧ PortsKeptButNotices s t ∧ RestKept s t
          ∧ SwitchesReported True s t
          ∧ match ck.first with
            | none => (t.zone ck.zone).state = .checking ∧ (s.iso.phase.inFlight = false ∨ ck.waiting = false →
                t.htr.check = some { ck with first := some r, pulseOn := false })
            | some a =>
              if a = r then
                (t.zone ck.zone).state =
                    (match r with | .pass => .off | .low => .faulted .open | .high => .faulted .short)
                  ∧ t.htr.check = none ∧ t.htr.slotTimer = .stopped ∧ t.htr.boundaryDue = true
                  ∧ (r ≠ .pass → ToldAll .heaterFault s t)
              else if ck.repeated = true then
                (t.zone ck.zone).state = .faulted .unstable ∧ t.htr.check = none ∧ t.htr.slotTimer = .stopped
                  ∧ t.htr.boundaryDue = true ∧ ToldAll .heaterFault s t
              else (t.zone ck.zone).state = .checking ∧ (s.iso.phase.inFlight = false ∨ ck.waiting = false →
                t.htr.check = some { ck with repeated := true, first := none, pulseOn := false })))
  ∧ ∀ (len : Nat) (arg : BitVec 8) (s : State), Ready .P s →
    exec .slotTimerExpiry s = .next (if s.htr.slotTimer = .stopped then s
      else { s with htr := { s.htr with slotTimer := .stopped, boundaryDue := true } })
    ∧ (7 < arg.toNat → exec (.clearZone ⟨.P, len⟩ arg) s = .next (answer .P len .denied [] s s))
    ∧ ∀ z : Fin 8, arg.toNat = z.val →
      ((∀ k, (s.zone z).state ≠ .faulted k) → exec (.clearZone ⟨.P, len⟩ arg) s = .next (answer .P len .denied [] s s))
      ∧ (∀ k, (s.zone z).state = .faulted k →
        ∃ t, exec (.clearZone ⟨.P, len⟩ arg) s = .next t ∧ t.portP.lastStatus = .ok
          ∧ t.htr.zones = s.htr.zones.set z { s.zone z with state := .unchecked }
          ∧ t.htr.energized = s.htr.energized ∧ t.iso = s.iso ∧ t.alc = s.alc ∧ t.plan = s.plan ∧ t.ses = s.ses
          ∧ t.mtr = s.mtr ∧ t.rst = s.rst ∧ t.nv = s.nv ∧ RestKept s t)

/-- The block of the start zone, and the zone that each turn position names in both orders; position 0 is the start zone, every position
names a zone of the block, and each zone of the block has exactly one position (R85). -/
def Obligations.TurnOrderVisitsBlock : Prop :=
  ∀ h : Htr,
    let len := h.mode.burst.len
    let low := h.s.val % len
    let base := h.s.val - low
    (∀ z : Fin 8, inBlock h z = true ↔ base ≤ z.val ∧ z.val < base + len)
    ∧ (∀ i, i < len → (zoneAt h i).val = base + (if h.mode.interleaved = true then low ^^^ i else (low + i) % len))
    ∧ zoneAt h 0 = h.s
    ∧ (∀ i, i < len → inBlock h (zoneAt h i) = true)
    ∧ (∀ i j, i < len → j < len → zoneAt h i = zoneAt h j → i = j)
    ∧ (∀ z, inBlock h z = true → ∃ i, i < len ∧ zoneAt h i = z)

/-- While the lockout is set or the grade is FAULT or UNKNOWN, no zone is ENERGIZED or CHECKING, and the check record and the
energized set name exactly the zones in those states, after every step (R75, R94, R113, R118). -/
def Obligations.HeatSafeKept : Prop :=
  ∀ (s t : State), ZonesSound s → HeatSafe s → step s = .next t → ZonesSound t ∧ HeatSafe t

/-- The sum of the ratings of the ENERGIZED zones never exceeds the G_heat of the grant record last applied, after every step
(R91). -/
def Obligations.DrawSafeKept : Prop :=
  ∀ (s t : State), ZonesSound s → DrawSafe s → step s = .next t → DrawSafe t

/-! ## The insulation monitor (R99 to R125) -/

/-- A 10 ms conversion of the bus, outside the localization's own searches (R100, R102, R104, R105, R108). An energization after a long
dead period (R106, R67, R113): the grade becomes UNKNOWN, the hold ends, no zone stays ENERGIZED or CHECKING, the line is not READY, and a
periodic measurement is requested at once. -/
def Obligations.BusConverted : Prop :=
  (∀ (up un : Nat) (s : State), s.powered = true →
    s.iso.localization.suspendsPeriodic = false →
    (500 ≤ up + un → s.iso.longDead = false →
      let age := min 6553500 (s.iso.age + 1)
      let overdue := decide (overdueLimit s.iso ≤ age)
      let suspends := overdue = true ∧ s.iso.overdue = false ∧ s.alc.hold = .held
      ∃ t, exec (.busConversion up un) s = .next t
        ∧ t = { s with iso := t.iso, alc := t.alc, ses := t.ses, portV := t.portV, portP := t.portP, portF := t.portF }
        ∧ t.iso = { s.iso with
            uBus := up + un, deadTimer := .stopped, energizedLast := true, age := age, overdue := overdue }
        ∧ t.alc = (if suspends then { s.alc with hold := .suspended } else s.alc)
        ∧ t.ses = (if suspends ∧ s.ses.session = .opened then { s.ses with holdWithdrawn := true } else s.ses)
        ∧ (suspends → ToldAll .holdChange s t)
        ∧ (¬ suspends → t.portV = s.portV ∧ t.portP = s.portP ∧ t.portF = s.portF)
        ∧ PortsKeptButNotices s t)
    ∧ (up + un < 500 →
      ∃ t, exec (.busConversion up un) s = .next t
        ∧ t = { s with iso := t.iso, alc := t.alc, htr := t.htr }
        ∧ t.alc = (if s.iso.phase = .idle then s.alc else { s.alc with window := .idle })
        ∧ t.iso = { s.iso with
            uBus := up + un, energizedLast := false
            deadTimer := if s.iso.energizedLast = true then .running 60000 else s.iso.deadTimer
            phase := .idle
            bridge := if s.iso.phase = .idle then s.iso.bridge else .opened
            phaseTimer := if s.iso.phase = .idle then s.iso.phaseTimer else .stopped }
        ∧ t.htr = (if s.iso.phase.inFlight = true then s.htr.startWaitingPulse else s.htr)))
  ∧ ∀ (up un : Nat) (s : State), s.powered = true → 500 ≤ up + un → s.iso.longDead = true → s.iso.phase = .idle →
    s.iso.localization.suspendsPeriodic = false → ZonesSound s → HeatSafe s → DemandSafe s →
    ∃ t, exec (.busConversion up un) s = .next t
      ∧ t.iso.longDead = false ∧ t.iso.grade = .unknown ∧ t.iso.lockout = s.iso.lockout ∧ t.iso.uBus = up + un
      ∧ t.iso.purpose = some .periodic ∧ t.iso.restarts = 0
      ∧ (if s.alc.record.rest = true then t.iso.phase = .settleA ∧ t.iso.bridge = .a ∧ t.alc.window = .granted
        else t.iso.phase = .request ∧ t.alc.window = .waiting)
      ∧ (s.iso.grade ≠ .unknown → ToldAll .gradeChange s t ∧ t.iso.candidate = none)
      ∧ (s.iso.grade = .good ∨ s.iso.grade = .warning → t.alc.hold = .none)
      ∧ (∀ z : Fin 8, (t.zone z).state ≠ .energized ∧ (t.zone z).state ≠ .checking)
      ∧ t.sup.demand ≠ .ready ∧ t.ses.session = s.ses.session
      ∧ t.plan = s.plan ∧ t.mtr = s.mtr ∧ t.rst = s.rst ∧ t.nv = s.nv ∧ t.alc.record = s.alc.record
      ∧ PortsKeptButNotices s t ∧ RestKept s t

/-- The dead-bus timer (R105) and the measurement period timer (R102, R103); the phases of a measurement up to SAMPLE_B, and the samples
(R107). The model's choices and readings here: an expiry of a stopped dead-bus timer changes nothing (log entry 4), nor does a phase end or
a sample outside its phase (34); the averages divide by 16 whatever the count (27); and a SUSPENDED hold stays SUSPENDED where a longer
period makes the overdue condition false (36). -/
def Obligations.MonitorTimersAndPhases : Prop :=
  (∀ s : State, s.powered = true →
    exec .deadBusExpiry s = .next (if s.iso.deadTimer = .stopped then s
      else { s with iso := { s.iso with deadTimer := .stopped, longDead := true } })
    ∧ ∃ t, exec .periodExpiry s = .next t
      ∧ t.iso.period = (s.entry 7).w2.toNat ∧ t.iso.periodTimer = .running (1000 * (s.entry 7).w2.toNat)
      ∧ t.iso.age = s.iso.age
      ∧ t.iso.overdue = decide (3 * (s.entry 7).w2.toNat * 100 ≤ s.iso.age)
      ∧ (s.iso.phase = .idle → s.iso.energizedLast = true → s.iso.localization.suspendsPeriodic = false →
        t.iso.purpose = some .periodic ∧ t.iso.restarts = 0
          ∧ if s.alc.record.rest = true then t.iso.phase = .settleA ∧ t.alc.window = .granted
            else t.iso.phase = .request ∧ t.alc.window = .waiting)
      ∧ (¬ (s.iso.phase = .idle ∧ s.iso.energizedLast = true ∧ s.iso.localization.suspendsPeriodic = false) →
        t.iso.phase = s.iso.phase ∧ t.iso.purpose = s.iso.purpose ∧ t.alc.window = s.alc.window)
      ∧ t.alc.hold = (if s.alc.hold = .held ∧ t.iso.overdue = true ∧ s.iso.overdue = false then .suspended else s.alc.hold)
      ∧ t.iso.grade = s.iso.grade ∧ t.htr = s.htr ∧ t.sup = s.sup ∧ t.plan = s.plan ∧ t.mtr = s.mtr ∧ t.rst = s.rst
      ∧ t.nv = s.nv ∧ t.alc.record = s.alc.record ∧ PortsKeptButNotices s t ∧ RestKept s t)
  ∧ (∀ (up un : Nat) (s : State), s.powered = true →
    (s.iso.phase = .idle ∨ s.iso.phase = .request →
      exec .measurementPhaseEnd s = .next s)
    ∧ (s.iso.phase = .settleA → exec .measurementPhaseEnd s =
        .next { s with iso := { s.iso with phase := .sampleA, phaseTimer := .running 100 } })
    ∧ (s.iso.phase = .sampleA → exec .measurementPhaseEnd s = .next { s with iso := { s.iso with
        phase := .settleB, bridge := .b, phaseTimer := .running 400
        upA := s.iso.sumUpA / 16, unA := s.iso.sumUnA / 16 } })
    ∧ (s.iso.phase = .settleB → exec .measurementPhaseEnd s =
        .next { s with iso := { s.iso with phase := .sampleB, phaseTimer := .running 100 } })
    ∧ (s.iso.phase ≠ .sampleA → s.iso.phase ≠ .sampleB → exec (.bridgeSample up un) s = .next s)
    ∧ (s.iso.phase = .sampleA → s.iso.countA < 16 → exec (.bridgeSample up un) s = .next { s with iso := { s.iso with
        sumUpA := s.iso.sumUpA + up, sumUnA := s.iso.sumUnA + un, countA := s.iso.countA + 1 } })
    ∧ (s.iso.phase = .sampleB → s.iso.countB < 16 → exec (.bridgeSample up un) s = .next { s with iso := { s.iso with
        sumUpB := s.iso.sumUpB + up, sumUnB := s.iso.sumUnB + un, countB := s.iso.countB + 1 } }))

/-- The computation of a result (R110): valid exactly when D is above 0, each side within 0–50,000 kΩ and 0 where its sense
voltage is below 5, R_iso the lesser, the per-volt figure within one word. -/
def Obligations.BridgeResultComputed : Prop :=
  ∀ rref rdiv upA unA upB unB : Nat,
    (bridgeResult rref rdiv upA unA upB unB = none ↔ upB * unA ≤ upA * unB)
    ∧ ∀ rp rn rIso f, bridgeResult rref rdiv upA unA upB unB = some (rp, rn, rIso, f) →
      0 < upB ∧ 0 < unA ∧ rp ≤ 50000 ∧ rn ≤ 50000 ∧ rIso = min rp rn ∧ f = min 65535 (rIso * 10000 / (upB + unB))
      ∧ (upB < 5 → rp = 0) ∧ (unA < 5 → rn = 0)
      ∧ (5 ≤ upB → unB = 0 → rp = 50000) ∧ (5 ≤ unA → upA = 0 → rn = 50000)
      ∧ (5 ≤ upB → 0 < unB →
        let x := rref * (upB * unA - upA * unB) / (unB * (unA + upA))
        rp = if rdiv ≤ x then 50000 else min 50000 (x * rdiv / (rdiv - x)))
      ∧ (5 ≤ unA → 0 < upA →
        let y := rref * (upB * unA - upA * unB) / (upA * (unB + upB))
        rn = if rdiv ≤ y then 50000 else min 50000 (y * rdiv / (rdiv - y)))

/-- The end of SAMPLE_B (R108, R110, R111): without a valid result the measurement is discarded, and a baseline is sought again
(R121). With one, the latest result and the session summary follow (R114); a PERIODIC result goes to the grade decision (Table 6-3,
R112), a BASELINE or PROBE result to the localization (R115, R121, R122), which returns the probed zone or marks it LEAK; the age
returns to 0, a SUSPENDED hold is HELD again unless the grade left GOOD and WARNING, which ends any hold (R66, R67); and the window is
released. That the averages divide by 16 whatever the count of samples is the model's reading, log entry 27. -/
def Obligations.MeasurementEnds : Prop :=
  ∀ s : State, s.powered = true → s.iso.phase = .sampleB → 5 ≤ s.iso.period →
    let res := bridgeResult s.iso.rref s.iso.rdiv s.iso.upA s.iso.unA (s.iso.sumUpB / 16) (s.iso.sumUnB / 16)
    let baselineUse : Prop := s.iso.purpose = some .baseline ∧ s.iso.localization = .baseline
    let probeUse (z : Fin 8) : Prop := s.iso.purpose = some .probe ∧ s.iso.localization = .probing z
    let periodicUse : Prop := ¬ baselineUse ∧ ∀ z, ¬ probeUse z
    ∃ t, exec .measurementPhaseEnd s = .next t
      ∧ t.iso.phase = .idle ∧ t.iso.bridge = .opened ∧ t.iso.phaseTimer = .stopped ∧ t.alc.window = .idle
      ∧ t.iso.upB = s.iso.sumUpB / 16 ∧ t.iso.unB = s.iso.sumUnB / 16
      ∧ (res = none → t.iso.latest = s.iso.latest ∧ t.iso.age = s.iso.age ∧ t.iso.grade = s.iso.grade
        ∧ t.iso.candidate = s.iso.candidate ∧ t.alc.hold = s.alc.hold ∧ t.mtr = s.mtr ∧ t.ses = s.ses
        ∧ t.iso.localization = (if s.iso.localization = .baseline then .baselineWait else s.iso.localization)
        ∧ t.iso.lockout = s.iso.lockout ∧ t.htr.zones = s.htr.zones
        ∧ t.portV = s.portV ∧ t.portP = s.portP ∧ t.portF = s.portF)
      ∧ (∀ rp rn rIso f, res = some (rp, rn, rIso, f) →
        let cls : ResultClass := if (s.entry 7).w0.toNat ≤ f then .good
          else if (s.entry 7).w1.toNat ≤ f then .warning else .fault
        let grade : Grade := match cls with | .good => .good | .warning => .warning | .fault => .fault
        let proven (x : Grade) : Bool := x == .good || x == .warning
        t.iso.latest = some ⟨rp, rn, rIso, f, cls⟩ ∧ t.iso.age = 0 ∧ t.iso.overdue = false
        ∧ (s.ses.session = .opened → t.mtr.recorded = true ∧ t.mtr.minPerVolt = min s.mtr.minPerVolt f
          ∧ t.mtr.worst = some (if cls = .fault ∨ s.mtr.worst = some .fault then .fault
            else if cls = .warning ∨ s.mtr.worst = some .warning then .warning else .good))
        ∧ (s.ses.session ≠ .opened → t.mtr.recorded = s.mtr.recorded ∧ t.mtr.minPerVolt = s.mtr.minPerVolt
          ∧ t.mtr.worst = s.mtr.worst)
        ∧ (periodicUse →
          (t.iso.grade, t.iso.candidate) = (if s.iso.grade = .unknown then (grade, none)
            else if grade = s.iso.grade then (s.iso.grade, none)
            else if cls = .fault then (.fault, none)
            else if s.iso.candidate = some cls then (grade, none)
            else (s.iso.grade, some cls))
          ∧ (t.iso.grade ≠ s.iso.grade → ToldAll .gradeChange s t)
          ∧ (t.iso.grade = .fault → s.iso.grade ≠ .fault → t.iso.lockout = true
            ∧ (s.iso.lockout = false ∨ s.iso.localization = .doneNone → t.iso.localization = .baselineWait)
            ∧ (s.ses.session = .opened → t.ses.session = .closing))
          ∧ (¬ (t.iso.grade = .fault ∧ s.iso.grade ≠ .fault) → t.iso.lockout = s.iso.lockout
            ∧ t.iso.localization = s.iso.localization ∧ t.htr.zones = s.htr.zones ∧ t.ses.session = s.ses.session))
        ∧ (¬ periodicUse → t.iso.grade = s.iso.grade ∧ t.iso.candidate = s.iso.candidate ∧ t.iso.lockout = s.iso.lockout
          ∧ t.ses.session = s.ses.session)
        ∧ (baselineUse → t.iso.baselineClass = some cls ∧ t.iso.lastExamined = none ∧ t.htr.zones = s.htr.zones
          ∧ t.iso.localization = (if cls = .fault then .doneNone else .probeWait))
        ∧ (∀ z, probeUse z → t.iso.localization = .probeWait ∧ t.iso.lastExamined = some z
          ∧ t.iso.marked = (if cls = .fault then s.iso.marked + 1 else s.iso.marked)
          ∧ (∀ b, (s.zone z).state = .probed b → (t.zone z).state = (if cls = .fault then .faulted .leak else b.back))
          ∧ (cls = .fault → ToldAll .heaterFault s t) ∧ ∀ y, y ≠ z → t.zone y = s.zone y)
        ∧ t.alc.hold = (if proven s.iso.grade = true ∧ proven t.iso.grade = false then .none
          else if s.alc.hold = .suspended then .held else s.alc.hold)
        ∧ (t.alc.hold ≠ s.alc.hold → ToldAll .holdChange s t))
      ∧ t.plan = s.plan ∧ t.alc.record = s.alc.record ∧ t.nv = s.nv ∧ PortsKeptButNotices s t ∧ RestKept s t

/-- The grade decision of a valid PERIODIC result (Table 6-3, R112). A change of grade to FAULT (R35, R67, R94, R113, R117): the lockout is
set with a new run, an OPEN session closes with reason ISOLATION, the hold ends, no zone stays ENERGIZED or CHECKING, and the line is
not READY. -/
def Obligations.GradeDecidedAndFaultStops : Prop :=
  (∀ (r : ResultClass) (s : State),
    let t := decideGrade r s
    let g : Grade := r.toGrade
    (s.iso.grade = .unknown → t.iso.grade = g ∧ t.iso.candidate = none ∧ ToldAll .gradeChange s t)
    ∧ (s.iso.grade ≠ .unknown → g = s.iso.grade → t = { s with iso := { s.iso with candidate := none } })
    ∧ (s.iso.grade = .good ∨ s.iso.grade = .warning → r = .fault →
        t.iso.grade = .fault ∧ t.iso.candidate = none ∧ ToldAll .gradeChange s t)
    ∧ (s.iso.grade ≠ .unknown → g ≠ s.iso.grade → r ≠ .fault → s.iso.candidate = some r →
        t.iso.grade = g ∧ t.iso.candidate = none ∧ ToldAll .gradeChange s t)
    ∧ (s.iso.grade ≠ .unknown → g ≠ s.iso.grade → r ≠ .fault → s.iso.candidate ≠ some r →
        t = { s with iso := { s.iso with candidate := some r } }))
  ∧ (∀ s : State, s.iso.grade ≠ .fault → ZonesSound s →
    let t := changeGrade .fault s
    t.iso.grade = .fault ∧ t.iso.lockout = true ∧ ToldAll .gradeChange s t
      ∧ (s.iso.lockout = false → t.iso.localization = .baselineWait ∧ t.iso.marked = 0 ∧ ToldAll .lockoutChange s t)
      ∧ (s.ses.session = .opened → t.ses.session = .closing ∧ t.ses.closeReason = some .isolation
        ∧ t.ses.holdWithdrawn = (s.ses.holdWithdrawn || s.iso.grade.isProven && decide (s.alc.hold ≠ .none))
        ∧ finalPending t.rst = true ∧ ToldAll .sessionChange s t)
      ∧ (s.ses.session ≠ .opened → t.ses = s.ses ∧ t.rst = s.rst ∧ t.mtr = s.mtr)
      ∧ (s.iso.grade.isProven = true → t.alc.hold = .none ∧ (s.alc.hold ≠ .none → ToldAll .holdChange s t))
      ∧ (∀ z : Fin 8, (t.zone z).state ≠ .energized ∧ (t.zone z).state ≠ .checking)
      ∧ t.htr.energized = [] ∧ t.sup.demand ≠ .ready
      ∧ t.plan = s.plan ∧ t.nv = s.nv ∧ t.alc.record = s.alc.record ∧ PortsKeptButNotices s t ∧ RestKept s t)

/-- A 10 ms conversion while the localization runs (R119 to R123, R106). Energized, and with the localization conditions: BASELINE_WAIT
requests the baseline, PROBING its probe again, and PROBE_WAIT takes the next zone above the last one examined that the heater takes
into PROBED, or ends the run: DONE_NONE with no zone marked; else DONE_CULPRIT, the lockout clear and the grade the baseline's class, which
is GOOD or WARNING, since a FAULT baseline ends its run at once (R121). Without the conditions nothing starts. After a long dead period the grade becomes UNKNOWN, a run that is probing begins anew, with its probed zone
returned, and the baseline may be requested at once. A dead bus ends the measurement, and a baseline is sought again (R104, R108). -/
def Obligations.LocalizationRuns : Prop :=
  (∀ (up un : Nat) (s : State), s.powered = true → 500 ≤ up + un → s.iso.longDead = false →
    s.iso.localization.suspendsPeriodic = true →
    let ok : Prop := flag (s.entry 5).w2 0 = true ∧ s.alc.record.mode = .off ∧ s.iso.phase = .idle
    let takes (z : Fin 8) : Prop := s.iso.lockout = true ∧ 0 < (s.zone z).rating
      ∧ ((s.zone z).state = .unchecked ∨ (s.zone z).state = .off ∨ ∃ n, (s.zone z).state = .dwell n)
    let above (z : Fin 8) : Prop := ∀ l, s.iso.lastExamined = some l → l < z
    let next (z : Fin 8) : Prop := above z ∧ takes z ∧ ∀ y, above y → takes y → z ≤ y
    ∃ t, exec (.busConversion up un) s = .next t
      ∧ t.iso.uBus = up + un ∧ t.iso.age = min 6553500 (s.iso.age + 1)
      ∧ (let requested (pu : Purpose) : Prop := t.iso.purpose = some pu ∧ t.iso.restarts = 0
          ∧ if s.alc.record.rest = true then t.iso.phase = .settleA ∧ t.iso.bridge = .a ∧ t.alc.window = .granted
            else t.iso.phase = .request ∧ t.alc.window = .waiting
        let still : Prop := t.iso.phase = s.iso.phase ∧ t.iso.purpose = s.iso.purpose ∧ t.alc.window = s.alc.window
        let ended : Prop := ∀ z, ¬ next z
        (¬ ok → t.iso.localization = s.iso.localization ∧ still)
        ∧ (ok → s.iso.localization = .baselineWait → t.iso.localization = .baseline ∧ requested .baseline)
        ∧ (ok → ∀ z, s.iso.localization = .probing z → t.iso.localization = .probing z ∧ requested .probe)
        ∧ (ok → s.iso.localization = .probeWait → ∀ z, next z → t.iso.localization = .probing z
          ∧ t.iso.lastExamined = some z ∧ requested .probe
          ∧ t.htr.zones = s.htr.zones.set z { s.zone z with state := match (s.zone z).state with
              | .dwell n => .probed (.dwell n) | .off => .probed .off | _ => .probed .unchecked })
        ∧ (ok → s.iso.localization = .probeWait → ended → still
          ∧ (s.iso.marked = 0 → t.iso.localization = .doneNone)
          ∧ (s.iso.marked ≠ 0 → ∀ c, s.iso.baselineClass = some c → c ≠ .fault →
            t.iso.localization = .doneCulprit ∧ t.iso.lockout = false ∧ ToldAll .lockoutChange s t ∧ t.iso.candidate = none
            ∧ t.iso.grade = (if c = .good then .good else .warning) ∧ (t.iso.grade ≠ s.iso.grade → ToldAll .gradeChange s t)))
        ∧ (¬ (ok ∧ s.iso.localization = .probeWait ∧ ended ∧ s.iso.marked ≠ 0) →
          t.iso.lockout = s.iso.lockout ∧ t.iso.grade = s.iso.grade ∧ t.iso.candidate = s.iso.candidate)
        ∧ (s.iso.baselineClass ≠ some .fault → t.ses.session = s.ses.session ∧ t.rst = s.rst
          ∧ t.iso.marked = s.iso.marked ∧ t.iso.baselineClass = s.iso.baselineClass
          ∧ (¬ (ok ∧ s.iso.localization = .probeWait ∧ ¬ ended) → t.htr.zones = s.htr.zones)))
      ∧ t.iso.latest = s.iso.latest ∧ t.plan = s.plan ∧ t.nv = s.nv ∧ t.alc.record = s.alc.record ∧ PortsKeptButNotices s t ∧ RestKept s t)
  ∧ (∀ (up un : Nat) (s : State), s.powered = true → 500 ≤ up + un → s.iso.longDead = true → s.iso.phase = .idle →
    s.iso.localization.suspendsPeriodic = true → s.iso.localization ≠ .baseline → ZonesSound s →
    let ok : Prop := flag (s.entry 5).w2 0 = true ∧ s.alc.record.mode = .off
    ∃ t, exec (.busConversion up un) s = .next t
      ∧ t.iso.longDead = false ∧ t.iso.grade = .unknown ∧ t.iso.lockout = s.iso.lockout
      ∧ (s.iso.grade ≠ .unknown → ToldAll .gradeChange s t)
      ∧ (ok → t.iso.localization = .baseline ∧ t.iso.purpose = some .baseline
        ∧ if s.alc.record.rest = true then t.iso.phase = .settleA ∧ t.alc.window = .granted
          else t.iso.phase = .request ∧ t.alc.window = .waiting)
      ∧ (¬ ok → t.iso.localization = .baselineWait ∧ t.iso.phase = .idle ∧ t.alc.window = s.alc.window)
      ∧ (s.iso.localization ≠ .baselineWait → t.iso.marked = 0 ∧ t.iso.lastExamined = none ∧ t.iso.baselineClass = none)
      ∧ (∀ z b, s.iso.localization = .probing z → (s.zone z).state = .probed b → (t.zone z).state = b.back)
      ∧ t.plan = s.plan ∧ t.nv = s.nv ∧ t.mtr = s.mtr ∧ t.rst = s.rst ∧ t.ses.session = s.ses.session
      ∧ t.alc.record = s.alc.record ∧ PortsKeptButNotices s t ∧ RestKept s t)
  ∧ (∀ (up un : Nat) (s : State), s.powered = true → up + un < 500 → s.iso.localization.suspendsPeriodic = true →
    ∃ t, exec (.busConversion up un) s = .next t
      ∧ t.iso.phase = .idle ∧ t.alc.window = (if s.iso.phase = .idle then s.alc.window else .idle)
      ∧ t.iso.localization =
        (if s.iso.phase ≠ .idle ∧ s.iso.localization = .baseline then .baselineWait else s.iso.localization)
      ∧ t.iso.latest = s.iso.latest ∧ t.iso.age = s.iso.age ∧ t.iso.grade = s.iso.grade ∧ t.iso.candidate = s.iso.candidate
      ∧ t.iso.lockout = s.iso.lockout ∧ t.iso.marked = s.iso.marked ∧ t.iso.lastExamined = s.iso.lastExamined
      ∧ t.htr.zones = s.htr.zones ∧ t.alc.hold = s.alc.hold ∧ t = { s with iso := t.iso, alc := t.alc, htr := t.htr })

/-- CLEAR LOCKOUT (R124): refused DENIED unless the lockout is SET and the latest valid result GOOD or WARNING; accepted, it clears the
lockout, cancels the run and returns the probed zone, and leaves the grade. A probed zone that returns is a switch change, reported to the
monitor (R76, R96, R109). -/
def Obligations.LockoutCleared : Prop :=
  ∀ (len : Nat) (s : State), Ready .V s →
    let fit := s.iso.lockout = true ∧ ∃ r, s.iso.latest = some r ∧ r.cls ≠ .fault
    (¬ fit → exec (.clearLockout ⟨.V, len⟩) s = .next (answer .V len .denied [] s s))
    ∧ (fit → ∃ t, exec (.clearLockout ⟨.V, len⟩) s = .next t
      ∧ t.portV.lastStatus = .ok ∧ t.iso.lockout = false ∧ t.iso.localization = .idle ∧ t.iso.marked = 0
      ∧ t.iso.baselineClass = none ∧ t.iso.grade = s.iso.grade ∧ t.iso.candidate = s.iso.candidate
      ∧ t.iso.latest = s.iso.latest ∧ ToldAll .lockoutChange s t
      ∧ (∀ z, (s.iso.localization = .probing z →
          ∀ b, (s.zone z).state = .probed b → (t.zone z).state = b.back)
        ∧ (s.iso.localization ≠ .probing z → t.zone z = s.zone z))
      ∧ (s.iso.phase ≠ .idle → s.iso.purpose.isSome = true → t.iso.purpose = some .periodic)
      ∧ SwitchesReported (∃ z b, s.iso.localization = .probing z ∧ (s.zone z).state = .probed b)
        { s with iso := { s.iso with
            lockout := false, localization := .idle, baselineClass := none, marked := 0, lastExamined := none
            purpose := if s.iso.phase = .idle then s.iso.purpose else s.iso.purpose.map fun _ => .periodic } } t
      ∧ t.plan = s.plan ∧ t.ses = s.ses ∧ t.mtr = s.mtr ∧ t.rst = s.rst ∧ t.nv = s.nv ∧ t.alc.record = s.alc.record
      ∧ t.alc.hold = s.alc.hold ∧ RestKept s t)

/-! ## The meter (R126 to R145) -/

/-- The shares of an interval's energy (R129): in proportion to the grants of a GRID record, the remainder to the largest grant, and all
of it to STANDBY where nothing is granted. -/
def Obligations.SharesOfEnergy : Prop :=
  ∀ (r : GrantRecord) (e : Nat),
    let x := sharesOf r e
    let g := r.gHeat + r.gAux + r.s
    x.chg + x.heat + x.aux + x.standby = e
    ∧ (r.source ≠ .grid ∨ g = 0 → x.standby = e)
    ∧ (r.source = .grid → 0 < g → x.standby = 0
      ∧ e * r.s / g ≤ x.chg ∧ x.chg ≤ e * r.s / g + 2
      ∧ e * r.gHeat / g ≤ x.heat ∧ x.heat ≤ e * r.gHeat / g + 2
      ∧ e * r.gAux / g ≤ x.aux ∧ x.aux ≤ e * r.gAux / g + 2
      ∧ (r.s = 0 → x.chg = 0) ∧ (r.gHeat = 0 → x.heat = 0) ∧ (r.gAux = 0 → x.aux = 0)
      ∧ (x.chg ≠ e * r.s / g → r.gHeat ≤ r.s ∧ r.gAux ≤ r.s)
      ∧ (x.heat ≠ e * r.gHeat / g → r.s < r.gHeat ∧ r.gAux ≤ r.gHeat)
      ∧ (x.aux ≠ e * r.gAux / g → r.s < r.gAux ∧ r.gHeat < r.gAux))

/-- One meter interval (R126, R127, R130, R132, R133): E is the clamped sum of the admitted phases, it enters the OPEN session's accounts whole, each
account by its share of the record in force (R129), or the unassigned counter; each watt-hour that completes in an account goes to the line
of the band in force before the interval, at the session's frozen price (R130, R131); and a known clock advances by a tenth. At a slot
boundary the band is found, or held under the tariff lock, and a band change asks for a checkpoint of an OPEN session (R136, R141,
R143). That a phase's negative power rounds toward zero is the model's reading, log entry 25. -/
def Obligations.MeterIntervalBooks : Prop :=
  ∀ (p1 p2 p3 : Int) (s : State), s.powered = true →
    let scaled (gain : Word) (p : Int) : Int := Int.tdiv (p * gain.toNat) 32768
    let sum : Int := if s.threePhases = true then
      scaled s.mtr.gain1 p1 + scaled s.mtr.gain2 p2 + scaled s.mtr.gain3 p3 else scaled s.mtr.gain1 p1
    ∃ (t : State) (e : Nat), exec (.meterInterval p1 p2 p3) s = .next t
      ∧ (e : Int) = (if sum < 0 then 0 else if 30000 < sum then 30000 else sum)
      ∧ (s.ses.session = .opened → accountEnergy t.mtr = accountEnergy s.mtr + e
        ∧ t.mtr.unassigned = s.mtr.unassigned
        ∧ (let share := sharesOf s.alc.record e
          let full (x : Account) (part : Nat) : Bool := decide (36000 ≤ x.residue + part)
          let after (x : Account) (part : Nat) : Account :=
            if full x part = true then ⟨x.wh + 1, x.residue + part - 36000⟩ else ⟨x.wh, x.residue + part⟩
          let booked := [full s.mtr.chg share.chg, full s.mtr.heat share.heat, full s.mtr.aux share.aux,
            full s.mtr.standby share.standby].count true
          let band := s.mtr.band
          let price := s.ses.prices[band]
          t.mtr.chg = after s.mtr.chg share.chg ∧ t.mtr.heat = after s.mtr.heat share.heat
            ∧ t.mtr.aux = after s.mtr.aux share.aux ∧ t.mtr.standby = after s.mtr.standby share.standby
            ∧ ((s.mtr.lines.map (·.band)).Nodup → (∀ l ∈ s.mtr.lines, l.price = s.ses.prices[l.band]) →
              t.mtr.lines = if booked = 0 then s.mtr.lines
                else if band ∈ s.mtr.lines.map (·.band) then s.mtr.lines.map fun l =>
                  if l.band = band then ⟨band, price, l.wh + booked, l.cost + booked * price.toNat⟩ else l
                else s.mtr.lines ++ [⟨band, price, booked, booked * price.toNat⟩])))
      ∧ (s.ses.session ≠ .opened → accountEnergy t.mtr = accountEnergy s.mtr ∧ t.mtr.lines = s.mtr.lines
        ∧ (s.mtr.unassigned.residue + e < 36000 → s.mtr.unassigned.wh ≤ 32767 →
          t.mtr.unassigned = ⟨s.mtr.unassigned.wh, s.mtr.unassigned.residue + e⟩)
        ∧ (36000 ≤ s.mtr.unassigned.residue + e →
          t.mtr.unassigned = ⟨min 32767 (s.mtr.unassigned.wh + 1), s.mtr.unassigned.residue + e - 36000⟩))
      ∧ (s.mtr.clock = none → t.mtr.clock = none ∧ t.mtr.band = s.mtr.band)
      ∧ (∀ sec, s.mtr.clock = some sec →
        if s.mtr.tenths < 9 then t.mtr.clock = some sec ∧ t.mtr.tenths = s.mtr.tenths + 1 ∧ t.mtr.band = s.mtr.band
        else t.mtr.clock = some (sec + 1) ∧ t.mtr.tenths = 0
          ∧ (s.ses.session = .opened → t.mtr.band ≠ s.mtr.band → CheckpointAsked s t)
          ∧ (slotOf (sec + 1) = slotOf sec ∨ s.mtr.lockHeld = true → t.mtr.band = s.mtr.band)
          ∧ (slotOf (sec + 1) ≠ slotOf sec → s.mtr.lockHeld = false → t.mtr.band = findBand t)
          ∧ (slotOf (sec + 1) ≠ slotOf sec → s.mtr.lockHeld = true → s.ses.session = .opened → t.ses.bandHeld = true))
      ∧ (s.ses.session ≠ .opened ∨ t.mtr.band = s.mtr.band →
        t.rst = s.rst ∧ t.nv = s.nv ∧ t.mtr.checkpointTimer = s.mtr.checkpointTimer)
      ∧ t.plan = s.plan ∧ t.sup = s.sup ∧ t.alc = s.alc ∧ t.htr = s.htr ∧ t.iso = s.iso ∧ t.ses.session = s.ses.session
      ∧ t.portV = s.portV ∧ t.portP = s.portP ∧ t.portF = s.portF ∧ RestKept s t

/-- The Wh of a session's band lines sum to the Wh of its accounts, no band has two lines, and a line costs its Wh times its price, after
every step (R130, R131). -/
def Obligations.AccountsSoundKept : Prop := ∀ (s t : State), AccountsSound s → step s = .next t → AccountsSound t

/-- The band of a slot (R135). -/
def Obligations.BandFound : Prop :=
  ∀ s : State,
    (s.mtr.clock = none ∨ (∀ n, scheduleValid s n = false) → findBand s = 0)
    ∧ ∀ sec n, s.mtr.clock = some sec → scheduleValid s n = true →
      ((startSlot s n ≤ sec.toNat % 86400 / 900
        ∧ ∀ m, scheduleValid s m = true → startSlot s m ≤ sec.toNat % 86400 / 900 →
          startSlot s m < startSlot s n ∨ startSlot s m = startSlot s n ∧ m ≤ n)
      ∨ ((∀ m, scheduleValid s m = true → sec.toNat % 86400 / 900 < startSlot s m)
        ∧ ∀ m, scheduleValid s m = true → startSlot s m < startSlot s n ∨ startSlot s m = startSlot s n ∧ m ≤ n)) →
      findBand s = scheduleBand s n

/-- SET TIME, LOCK TARIFF, UNLOCK TARIFF and the lock's expiry (R134, R138 to R140). An evaluation that changes the band asks for a
checkpoint of an OPEN session, and one with the clock unknown sets TIME_UNKNOWN on it (R136, R137, R143). That the lock timer's expiry
with the timer stopped or the lock FREE changes nothing is the model's choice, log entry 4. -/
def Obligations.TariffRequests : Prop :=
  ∀ (len : Nat) (hi lo : Word) (s : State), Ready .F s →
    let evaluated (t : State) : Prop :=
      t.ses = (if s.mtr.clock = none ∧ s.ses.session = .opened then { s.ses with timeUnknown := true } else s.ses)
      ∧ (s.ses.session = .opened ∧ t.mtr.band ≠ s.mtr.band → CheckpointAsked s t)
      ∧ (¬ (s.ses.session = .opened ∧ t.mtr.band ≠ s.mtr.band) →
        t.rst = s.rst ∧ t.nv = s.nv ∧ t.mtr.checkpointTimer = s.mtr.checkpointTimer)
    (∃ t, exec (.setTime ⟨.F, len⟩ hi lo) s = .next t ∧ t.portF.lastStatus = .ok ∧ t.mtr.clock = some (hi ++ lo)
      ∧ t.mtr.tenths = 0 ∧ t.mtr.band = findBand { s with mtr := { s.mtr with clock := some (hi ++ lo) } }
      ∧ t.mtr.lockHeld = s.mtr.lockHeld ∧ t.ses = s.ses ∧ t.plan = s.plan ∧ t.alc = s.alc ∧ t.htr = s.htr ∧ t.iso = s.iso
      ∧ t.sup = s.sup ∧ accountEnergy t.mtr = accountEnergy s.mtr
      ∧ (s.ses.session = .opened ∧ t.mtr.band ≠ s.mtr.band → CheckpointAsked s t)
      ∧ (¬ (s.ses.session = .opened ∧ t.mtr.band ≠ s.mtr.band) →
        t.rst = s.rst ∧ t.nv = s.nv ∧ t.mtr.checkpointTimer = s.mtr.checkpointTimer) ∧ RestKept s t)
    ∧ (s.mtr.lockHeld = true → exec (.lockTariff ⟨.F, len⟩) s = .next (answer .F len .busy [] s s))
    ∧ (s.mtr.lockHeld = false → exec (.lockTariff ⟨.F, len⟩) s = .next (answer .F len .ok [] s
        { s with mtr := { s.mtr with lockHeld := true, lockTimer := .running 5000 } })
      ∧ exec (.unlockTariff ⟨.F, len⟩) s = .next (answer .F len .denied [] s s))
    ∧ (s.mtr.lockHeld = true →
      (∃ t, exec (.unlockTariff ⟨.F, len⟩) s = .next t ∧ t.portF.lastStatus = .ok ∧ t.mtr.lockHeld = false
        ∧ t.mtr.lockTimer = .stopped ∧ t.mtr.band = findBand s ∧ evaluated t
        ∧ t.plan = s.plan ∧ t.alc = s.alc ∧ t.htr = s.htr ∧ t.iso = s.iso ∧ t.sup = s.sup ∧ RestKept s t)
      ∧ (s.mtr.lockTimer ≠ .stopped → ∃ t, exec .tariffLockExpiry s = .next t ∧ t.mtr.lockHeld = false
        ∧ t.mtr.lockTimer = .stopped ∧ t.mtr.band = findBand s ∧ evaluated t ∧ ToldAll .tariffLockBroken s t
        ∧ t.plan = s.plan ∧ t.alc = s.alc ∧ t.htr = s.htr ∧ t.iso = s.iso ∧ t.sup = s.sup ∧ RestKept s t))
    ∧ (s.mtr.lockHeld = false ∨ s.mtr.lockTimer = .stopped → exec .tariffLockExpiry s = .next s)

/-! ## The record store (R143 to R160, R171 to R174) -/

/-- The checkpoint timer's expiry (R143, R144, R150, R152): the copy of the session starts into the next area, or waits behind the write
in flight, or is dropped behind a final write. The completions of a checkpoint write and of an image write (R152, R174): the
area or the image as written, and the next write taken in the order final, image, checkpoint, a checkpoint with the next sequence number
into the next area, which loses its valid mark. That an expiry of the stopped timer, and a completion of no such write, change nothing is
the model's choice, log entries 4 and 34. -/
def Obligations.CheckpointsWritten : Prop :=
  (∀ s : State, s.powered = true →
    (s.ses.session ≠ .opened ∨ s.mtr.checkpointTimer = .stopped → exec .checkpointTimerExpiry s = .next s)
    ∧ (s.ses.session = .opened → s.mtr.checkpointTimer ≠ .stopped →
      ∃ t, exec .checkpointTimerExpiry s = .next t
        ∧ t = { s with mtr := { s.mtr with checkpointTimer := .running 60000 }, rst := t.rst, nv := t.nv }
        ∧ CheckpointAsked s t))
  ∧ (∀ s : State, s.powered = true →
    let starts : Prop := s.rst.waitFinal = none ∧ s.rst.waitImage = none ∧ s.rst.waitCheckpoint ≠ none
    ((∀ a q c, s.rst.writer ≠ .checkpoint a q c) → exec .checkpointWriteComplete s = .next s)
    ∧ ((∀ v, s.rst.writer ≠ .image v) → exec .imageWriteComplete s = .next s)
    ∧ (∀ a q c, s.rst.writer = .checkpoint a q c →
      ∃ t, exec .checkpointWriteComplete s = .next t ∧ t = { s with rst := t.rst, nv := t.nv }
        ∧ TookNextWrite s.rst t.rst
        ∧ (let n := setArea a (Area.written q c) s.nv
          (¬ starts → t.nv = n)
          ∧ (starts → t.nv = setArea s.rst.nextArea { n.area s.rst.nextArea with valid := false } n)))
    ∧ ∀ v, s.rst.writer = .image v →
      ∃ t, exec .imageWriteComplete s = .next t ∧ t = { s with rst := t.rst, nv := t.nv }
        ∧ TookNextWrite s.rst t.rst
        ∧ (let n := { s.nv with image := v }
          (¬ starts → t.nv = n)
          ∧ (starts → t.nv = setArea s.rst.nextArea { n.area s.rst.nextArea with valid := false } n)))

/-- The completion of a final write (R36, R153, R154): the reserved slot holds the record, both areas are void, the session leaves CLOSING
by the plug state, RECORD_READY is raised, and STORE_LOW from 56 records on; the writer takes a waiting image write, or goes IDLE. That a
completion with no final write in flight changes nothing is the model's choice, log entry 34; that the close reason, the times and the flags
of the session stay behind it is log entry 28. -/
def Obligations.FinalWriteCompletes : Prop :=
  ∀ s : State, s.powered = true →
    ((∀ n ws, s.rst.writer ≠ .final n ws) → exec .finalWriteComplete s = .next s)
    ∧ ∀ n ws i, s.rst.writer = .final n ws → s.ses.session = .closing → slotReserved s.nv.slots n = some i →
      ∃ t, exec .finalWriteComplete s = .next t
        ∧ t.nv = { s.nv with
            slots := s.nv.slots.set i ⟨.record n, overlay s.nv.slots[i].content ws⟩
            areaA := { s.nv.areaA with valid := false }, areaB := { s.nv.areaB with valid := false } }
        ∧ TookNextWrite { s.rst with nextArea := .A } t.rst
        ∧ t.ses = { s.ses with
            session := if s.ses.plug = .plugged then .plugged else .none, tag := none, number := 0,
            prices := Vector.replicate 4 0 }
        ∧ accountEnergy t.mtr = 0 ∧ t.mtr.lines = []
        ∧ ToldAll .recordReady s t ∧ ToldAll .sessionChange s t
        ∧ (56 ≤ uncollected t.nv.slots → ToldAll .storeLow s t)
        ∧ t.plan = s.plan ∧ t.alc = s.alc ∧ t.htr = s.htr ∧ t.iso = s.iso ∧ PortsKeptButNotices s t ∧ RestKept s t

/-- The words of a record and of a checkpoint's copy (R148, R182, Table 12-5): 21 words, 4 with a tag, 7 for each band line, each field in
its place, with RESTORED and CORRUPT 0; the CRC behind them (R149), bit by bit, with which the whole leaves the register at 0. A
completed checkpoint area's CRC covers its header with the mark at 1 and the copy. A content area passes when its length is 21–53 and its
CRC word is that of the words before it; COLLECT's copy is the record's words, or all 53 where the length is out of range, with CORRUPT in
word 4 where the check failed (R157). -/
def Obligations.RecordWords : Prop :=
  (∀ (s : State) (reason : Nat) (endTime : Word32), s.mtr.lines.length ≤ 4 → reason ≤ 3 →
    let ws := sessionWords s reason endTime
    let w (i : Nat) : Nat := (ws.getD i 0).toNat
    let two (i : Nat) : Nat := w i * 65536 + w (i + 1)
    let tagLength : Nat := if s.ses.tag = none then 0 else 4
    let m := s.mtr
    withCrc ws = ws ++ [crc16 ws]
    ∧ ws.length + 1 = 21 + tagLength + 7 * m.lines.length ∧ w 0 = ws.length + 1
    ∧ two 1 = s.ses.number.toNat ∧ two 5 = s.ses.startTime.toNat ∧ two 7 = endTime.toNat
    ∧ w 3 = reason + 16 * (match m.worst with | none => 0 | some .good => 1 | some .warning => 2 | some .fault => 3)
        + 256 * m.lines.length
    ∧ w 4 = (if s.ses.tag = none then 0 else 1) + (if s.ses.timeUnknown = true then 2 else 0)
        + (if s.ses.bandHeld = true then 4 else 0) + (if s.ses.holdWithdrawn = true then 8 else 0)
    ∧ two 9 = m.chg.wh % 4294967296 ∧ two 11 = m.heat.wh % 4294967296 ∧ two 13 = m.aux.wh % 4294967296
    ∧ two 15 = m.standby.wh % 4294967296
    ∧ two 17 = (m.chg.residue + m.heat.residue + m.aux.residue + m.standby.residue) % 4294967296
    ∧ w 19 = m.minPerVolt % 65536
    ∧ (∀ g, s.ses.tag = some g → w 20 = g.w0.toNat ∧ w 21 = g.w1.toNat ∧ w 22 = g.w2.toNat ∧ w 23 = g.w3.toNat)
    ∧ ∀ (i : Nat) (h : i < m.lines.length),
      let at' := 20 + tagLength + 7 * i
      w at' = m.lines[i].band.val ∧ w (at' + 1) = m.lines[i].price.toNat ∧ two (at' + 2) = m.lines[i].wh % 4294967296
        ∧ w (at' + 4) * 4294967296 + two (at' + 5) = m.lines[i].cost % 281474976710656)
  ∧ (crc16 [] = 0xFFFF
    ∧ ∀ (ws : List Word) (x : Word),
      crc16 (ws ++ [x]) = (List.range 16).foldl (fun (r : Word) (i : Nat) =>
        if r.getLsbD 15 = x.getLsbD (15 - i) then r <<< 1 else (r <<< 1) ^^^ 0x1021) (crc16 ws)
      ∧ crc16 (withCrc ws) = 0)
  ∧ (∀ (q : Word32) (c : Checkpoint), Area.written q c = ⟨true, c.number, q, BitVec.ofNat 16 c.words.length, c.words,
      crc16 ([1, c.number.extractLsb' 16 16, c.number.extractLsb' 0 16, q.extractLsb' 16 16, q.extractLsb' 0 16,
        BitVec.ofNat 16 c.words.length] ++ c.words)⟩)
  ∧ ∀ ct : Vector Word 53,
    let n := ct[0].toNat
    let fits := 21 ≤ n ∧ n ≤ 53
    (passes ct = true ↔ fits ∧ ct.toList[n - 1]? = some (crc16 (ct.toList.take (n - 1))))
    ∧ contentNumber ct = ct[1] ++ ct[2]
    ∧ (copyOf ct).length = (if fits then n else 53)
    ∧ ∀ i : Fin 53, i.val < (copyOf ct).length →
      (copyOf ct)[i.val]? = some (if i.val = 4 ∧ passes ct = false then ct[i] ||| 0x8000 else ct[i])

/-- A RECORD keeps its slot, its number and its words until it is RELEASEd; only a restore may write its words again (R146, R155). -/
def Obligations.RecordsStayUntilReleased : Prop :=
  ∀ (c : Instr) (s t : State) (i : Fin 64) (n : Word32), exec c s = .next t → s.nv.slots[i].mark = .record n →
    (∀ p len hi lo, c ≠ .release ⟨p, len⟩ hi lo) →
    t.nv.slots[i].mark = .record n
      ∧ ((∀ pins cut, c ≠ .powerOnReset pins cut) → (∀ cut, c ≠ .powerLoss cut) → t.nv.slots[i] = s.nv.slots[i])

/-- COLLECT, READ RECORD WORD and RELEASE (R157 to R159). Record numbers are given once (R147); that of two slots with one number the
lower is the oldest is the model's reading, log entry 33. -/
def Obligations.RecordsCollected : Prop :=
  ∀ (len : Nat) (hi lo : Word) (s : State), Ready .F s →
    (∀ w, (∀ i : Fin 64, ∀ n, s.nv.slots[i].mark ≠ .record n) →
      exec (.collect ⟨.F, len⟩) s = .next (answer .F len .noRecord [] s { s with recordBuffer := none })
      ∧ exec (.release ⟨.F, len⟩ hi w) s = .next (answer .F len .noRecord [] s s))
    ∧ (∀ (i : Fin 64) n, s.nv.slots[i].mark = .record n →
      (∀ (j : Fin 64) m, s.nv.slots[j].mark = .record m → n ≤ m ∧ (n = m → i ≤ j)) →
      exec (.collect ⟨.F, len⟩) s = .next (answer .F len .ok [] s
        { s with recordBuffer := some ⟨n, copyOf s.nv.slots[i].content, 0⟩ })
      ∧ (n ≠ hi ++ lo → exec (.release ⟨.F, len⟩ hi lo) s = .next (answer .F len .noRecord [] s s))
      ∧ (n = hi ++ lo → exec (.release ⟨.F, len⟩ hi lo) s = .next (answer .F len .ok [] s { s with
          nv := { s.nv with slots := s.nv.slots.set i { s.nv.slots[i] with mark := .free } }
          recordBuffer := match s.recordBuffer with
            | some b => if b.number = n then none else some b
            | none => none })))
    ∧ (s.recordBuffer = none → exec (.readRecordWord ⟨.F, len⟩) s = .next (answer .F len .noRecord [0] s s))
    ∧ ∀ b, s.recordBuffer = some b →
      (b.words.length ≤ b.index → exec (.readRecordWord ⟨.F, len⟩) s = .next (answer .F len .noRecord [0] s s))
      ∧ ∀ h : b.index < b.words.length, exec (.readRecordWord ⟨.F, len⟩) s = .next (answer .F len .ok [b.words[b.index]] s
        { s with recordBuffer := some { b with index := b.index + 1 } })

/-- IMAGE READ, IMAGE WRITE and IMAGE STORE (R163, R173, R174). That BUSY comes before DENIED, and that IMAGE STORE writes the CRC into
the buffer's word 199 too, are the model's readings, log entries 17 and 18. -/
def Obligations.ImageRequests : Prop :=
  ∀ (len : Nat) (arg : BitVec 8) (w : Word) (s : State), Ready .F s →
    (s.commission = false →
      exec (.imageRead ⟨.F, len⟩ arg) s = .next (answer .F len .notPermitted [] s s)
      ∧ exec (.imageWrite ⟨.F, len⟩ arg w) s = .next (answer .F len .notPermitted [] s s)
      ∧ exec (.imageStore ⟨.F, len⟩) s = .next (answer .F len .notPermitted [] s s))
    ∧ (s.commission = true → imageBusy s.rst = true →
      exec (.imageRead ⟨.F, len⟩ arg) s = .next (answer .F len .busy [0] s s)
      ∧ exec (.imageWrite ⟨.F, len⟩ arg w) s = .next (answer .F len .busy [] s s)
      ∧ exec (.imageStore ⟨.F, len⟩) s = .next (answer .F len .busy [] s s))
    ∧ (s.commission = true → imageBusy s.rst = false → ∀ v, s.imageBuffer = some v →
      (199 < arg.toNat → exec (.imageRead ⟨.F, len⟩ arg) s = .next (answer .F len .denied [0] s s)
        ∧ exec (.imageWrite ⟨.F, len⟩ arg w) s = .next (answer .F len .denied [] s s))
      ∧ (∀ i : Fin 200, arg.toNat = i.val → exec (.imageRead ⟨.F, len⟩ arg) s = .next (answer .F len .ok [v[i]] s s)
        ∧ exec (.imageWrite ⟨.F, len⟩ arg w) s = .next (answer .F len .ok [] s { s with imageBuffer := some (v.set i w) }))
      ∧ let sealed := v.set 199 (crc16 (v.toList.take 199))
        exec (.imageStore ⟨.F, len⟩) s = .next (answer .F len .ok [] s { s with
          imageBuffer := some sealed
          rst := if s.rst.writer = .idle then { s.rst with writer := .image sealed }
            else { s.rst with waitImage := some sealed } }))

/-! ## Resets (R16 to R18, R155, R156, R178) -/

/-- What a power-on reset leaves, from any state and at any point of a write, which it cuts off (the model's reading, log entry 13): the
straps; the plug, debounce and session start (R18, R19); the pilot and the demand line (R23 to R27); the allocator's state of Table 3-2, the
reset record, the holds, the link and mirrors 54 to 56 (R8, R18, R39, R59, R60, R62, R69, R71); the zones and the heater (R75); the
monitor's state of Table 6-1 and the localization (R101, R119); the meter (R132, R133, R145); the store's writer, its areas and slots
(R150, R156); the record buffer (R157); the ports' entry access and last status (R161, R164); and RESTART owed or pending on every
port (R178). -/
def Obligations.PowerOnResetStarts : Prop :=
  ∀ (pins : Pins) (cut : WriteCut) (s : State),
    ∃ t, exec (.powerOnReset pins cut) s = .next t
      ∧ t.powered = true ∧ t.threePhases = pins.threePhases ∧ t.commission = pins.commission
      ∧ t.ses.session = .none ∧ t.ses.plug = .unplugged ∧ t.ses.debA = none ∧ t.ses.debB = none ∧ t.ses.number = 0
      ∧ t.ses.rawA = pins.contactA ∧ t.ses.rawB = pins.contactB
      ∧ t.ses.timerA = .running 100 ∧ t.ses.timerB = .running 100
      ∧ t.sup.pilot = .absent ∧ t.sup.iPil = 0 ∧ t.sup.nPh = 0 ∧ t.sup.uMin = 0 ∧ t.sup.demand = .idle
      ∧ t.sup.withdrawal = .none ∧ t.sup.history = [] ∧ t.sup.decoded = false ∧ t.sup.holdTimer = .stopped
      ∧ t.alc.record.mode = .off ∧ t.alc.record.source = .none ∧ t.alc.record.seq = 0 ∧ t.alc.record.s = 0
      ∧ t.alc.record.zones = [] ∧ t.alc.record.b = 0 ∧ t.alc.record.gHeat = 0 ∧ t.alc.record.gAux = 0
      ∧ t.alc.record.gChg = 0 ∧ t.alc.record.iSet = 0 ∧ t.alc.record.unused = 0
      ∧ t.alc.hold = .none ∧ t.alc.resting = false ∧ t.alc.window = .idle ∧ t.alc.changeover = .stopped
      ∧ t.alc.holdTimer = .stopped ∧ t.alc.restTimer = .stopped ∧ t.alc.link = .off
      ∧ t.alc.fresh = true ∧ t.alc.freshTimer = .stopped ∧ t.alc.recovery = .stopped ∧ t.alc.cause = .none
      ∧ t.alc.stageReady = pins.stageReady ∧ t.alc.stageFault = pins.stageFault
      ∧ t.alc.stage = (if pins.stageFault = true then .faulted
          else if pins.stageReady = true then .available else .notReady)
      ∧ t.alc.record.stage = t.alc.stage
      ∧ t.alc.mirror54 = ⟨match t.alc.stage with | .available => 0x00 | .notReady => 0x10 | .faulted => 0x20 | .recovering => 0x30,
          0, 0⟩
      ∧ t.alc.mirror55 = ⟨0, 0, 0⟩ ∧ t.alc.mirror56 = ⟨0, 0, 0⟩
      ∧ (∀ z : Fin 8, (t.zone z).state = .unchecked ∧ (t.zone z).temp = none ∧ (t.zone z).want = false
        ∧ (t.zone z).rating = zoneRating t z)
      ∧ t.htr.mode = heatingModeOf (t.entry 8) ∧ t.htr.pendingMode = none ∧ t.htr.p = 0 ∧ t.htr.energized = []
      ∧ t.htr.s.val = field (t.entry 8).w0 8 4 ∧ t.htr.inbox = []
      ∧ t.htr.boundaryDue = true ∧ t.htr.slotTimer = .stopped ∧ t.htr.check = none
      ∧ t.iso.grade = .unknown ∧ t.iso.lockout = false ∧ t.iso.localization = .idle ∧ t.iso.age = 0
      ∧ t.iso.longDead = true ∧ t.iso.phase = .idle ∧ t.iso.bridge = .opened ∧ t.iso.latest = none
      ∧ t.iso.purpose = none ∧ t.iso.restarts = 0 ∧ t.iso.phaseTimer = .stopped ∧ t.iso.candidate = none
      ∧ t.iso.sumUpA = 0 ∧ t.iso.sumUnA = 0 ∧ t.iso.countA = 0 ∧ t.iso.sumUpB = 0 ∧ t.iso.sumUnB = 0 ∧ t.iso.countB = 0
      ∧ t.iso.upA = 0 ∧ t.iso.unA = 0 ∧ t.iso.upB = 0 ∧ t.iso.unB = 0
      ∧ t.iso.overdue = false ∧ t.iso.deadTimer = .stopped ∧ t.iso.uBus = 0
      ∧ t.iso.baselineClass = none ∧ t.iso.marked = 0
      ∧ t.iso.period = (t.entry 7).w2.toNat ∧ t.iso.periodTimer = .running (1000 * (t.entry 7).w2.toNat)
      ∧ t.mtr.clock = none ∧ t.mtr.tenths = 0 ∧ t.mtr.band = 0 ∧ t.mtr.lockHeld = false ∧ t.mtr.lockTimer = .stopped
      ∧ t.mtr.checkpointTimer = .stopped ∧ t.mtr.unassigned = ⟨0, 0⟩
      ∧ t.rst.writer = .idle ∧ t.rst.nextArea = .A ∧ t.nv.areaA.valid = false ∧ t.nv.areaB.valid = false
      ∧ t.rst.waitFinal = none ∧ t.rst.waitCheckpoint = none ∧ t.rst.waitImage = none
      ∧ (∀ (i : Fin 64) n, t.nv.slots[i].mark ≠ .reserved n) ∧ t.nv.counter = s.nv.counter
      ∧ t.recordBuffer = none
      ∧ PlanSafe t
      ∧ (∀ p, (t.port p).pointer = 0 ∧ (t.port p).direction = .none ∧ (t.port p).snapshot = .none
        ∧ (t.port p).sub = 0 ∧ (t.port p).staging = ⟨0, 0, 0⟩ ∧ (t.port p).staged = 0 ∧ (t.port p).holding = ⟨0, 0, 0⟩
        ∧ (t.port p).lastStatus = .ok
        ∧ (t.port p).resetAsserted = (match p with | .V => pins.resetV | .P => pins.resetP | .F => pins.resetF)
        ∧ (if (t.port p).resetAsserted = true then (t.port p).pending = 0 ∧ (t.port p).restartOwed = true
          else Told .restart (t.port p) ∧ (t.port p).attention = true))

/-- The settings that a power-on reset takes (R16, R17, R22, R31, R33, R99, R126, R171, R172, R175, R183, Tables 1-3 and 12-6): from the
stored image where its CRC passes, else built in, with IMAGE_FAULT set. They are the defaults of entries 0–52, through the field-range
step, with the copy of entries 0–3; each port's windows and their copy, its routing mask, clear mode and line mode; the three options; the
meter gains; and the trims, clamped. In the commissioning state port F's image buffer is the stored image. -/
def Obligations.SettingsLoaded : Prop :=
  ∀ (pins : Pins) (cut : WriteCut) (s : State),
    ∃ t, exec (.powerOnReset pins cut) s = .next t
      ∧ (let w (i : Nat) : Word := t.nv.image.toList.getD i 0
        let ok : Prop := crc16 (t.nv.image.toList.take 199) = w 199
        let builtIn (n : Nat) : Entry :=
          if n = 0 then ⟨1, 0, 6400⟩ else if n = 1 then ⟨2, 1000, 10000⟩ else if n = 2 then ⟨3, 1500, 22000⟩
          else if n = 3 then ⟨0, 930, 1000⟩ else if n ≤ 5 then ⟨0, 0, 0⟩ else if n = 6 then ⟨0, 3600, 0⟩
          else if n = 7 then ⟨600, 150, 10⟩ else if n = 8 then ⟨0x1008, 0x00FF, 0⟩
          else if n ≤ 16 then ⟨150, 20, 0⟩ else ⟨0, 0, 0⟩
        (t.ses.imageFault = true ↔ ¬ ok)
        ∧ (∀ n : Fin 53,
          (ok → t.plan[n] = rangeStep (if pins.threePhases = true then 22000 else 7400) n
            ⟨w (36 + 3 * n.val), w (37 + 3 * n.val), w (38 + 3 * n.val)⟩)
          ∧ (¬ ok → t.plan[n] = builtIn n.val))
        ∧ (∀ n : Fin 4, t.planDefaults[n] = t.plan[n.val])
        ∧ (∀ p : PortId,
          let k : Nat := match p with | .V => 0 | .P => 1 | .F => 2
          let mask := w (24 + 2 * k)
          let mode := w (25 + 2 * k)
          (t.port p).imageWindows = (t.port p).windows
          ∧ (ok → ∀ i : Fin 4,
            let a := w (8 * k + 2 * i.val)
            let b := w (8 * k + 2 * i.val + 1)
            let x := (t.port p).windows[i]
            x.start.toNat = field a 0 6 ∧ x.stop.toNat = field a 8 6 ∧ x.offset.toNat = field b 0 6
              ∧ x.protect = flag b 8 ∧ x.enable = flag b 9)
          ∧ (¬ ok → (t.port p).windows[(0 : Fin 4)] = ⟨16, 26, 37, true, true⟩
            ∧ ∀ i : Fin 4, i ≠ 0 → (t.port p).windows[i].enable = false)
          ∧ (∀ i, i < 13 → (ok → flag (t.port p).mask i = flag mask i) ∧ (¬ ok → flag (t.port p).mask i = true))
          ∧ ((t.port p).clearMode = .ackClears ↔ ok ∧ flag mode 0 = true)
          ∧ ((t.port p).lineMode = .pulse ↔ ok ∧ flag mode 1 = true))
        ∧ (t.ses.scopedReset = true ↔ ok ∧ flag (w 30) 0 = true)
        ∧ (t.ses.defaultAccount = true ↔ ok ∧ flag (w 30) 1 = true)
        ∧ (t.ses.autoOpen = true ↔ ok ∧ flag (w 30) 2 = true)
        ∧ (ok → t.mtr.gain1 = w 31 ∧ t.mtr.gain2 = w 32 ∧ t.mtr.gain3 = w 33
          ∧ t.iso.rref = max 300 (min 500 (w 34).toNat) ∧ t.iso.rdiv = max 3000 (min 8000 (w 35).toNat))
        ∧ (¬ ok → t.mtr.gain1 = 32768 ∧ t.mtr.gain2 = 32768 ∧ t.mtr.gain3 = 32768
          ∧ t.iso.rref = 400 ∧ t.iso.rdiv = 4000)
        ∧ t.imageBuffer = if pins.commission = true then some t.nv.image else none)

/-- The restore of a power-on reset that finds no write in flight (R154 to R156). The newest checkpoint is the valid area of the higher
sequence number, A of two equal ones. Its slot is the one that carries its number, or else the lowest FREE one: a record there that passes
its CRC with that number stands, and is a RECORD; otherwise the slot becomes a RECORD of the checkpoint's copy, with close reason
POWER_LOSS, the flag RESTORED and a new CRC. Every other RESERVED slot becomes a RECORD when its contents pass with its number, else FREE; the
areas are void, and the counter, the image and every other slot stay. That a RECORD slot that passes with another number is written is the
model's reading, log entry 38; that STORE_LOW follows a restore which writes or keeps a record, log entry 8. -/
def Obligations.RestoreSettlesRecords : Prop :=
  ∀ (pins : Pins) (cut : WriteCut) (s : State), s.powered = false ∨ s.rst.writer = .idle →
    let a := s.nv.areaA
    let b := s.nv.areaB
    let valid (x : Area) : Bool := x.valid && x.crc == crc16 ([1, x.number.extractLsb' 16 16, x.number.extractLsb' 0 16,
      x.seq.extractLsb' 16 16, x.seq.extractLsb' 0 16, x.length] ++ x.copy)
    let best : Option Area :=
      if valid a = true ∧ (valid b = false ∨ b.seq ≤ a.seq) then some a else if valid b = true then some b else none
    let own (i : Fin 64) (n : Word32) : Bool := passes s.nv.slots[i].content && contentNumber s.nv.slots[i].content == n
    let carries (i : Fin 64) (n : Word32) : Prop := s.nv.slots[i].mark = .reserved n ∨ s.nv.slots[i].mark = .record n
    let home (i : Fin 64) (n : Word32) : Prop := (carries i n ∧ ∀ j, j < i → ¬ carries j n)
      ∨ ((∀ j, ¬ carries j n) ∧ s.nv.slots[i].mark = .free ∧ ∀ j, j < i → s.nv.slots[j].mark ≠ .free)
    ∃ t, exec (.powerOnReset pins cut) s = .next t
      ∧ t.nv.counter = s.nv.counter ∧ t.nv.image = s.nv.image
      ∧ t.nv.areaA = { a with valid := false } ∧ t.nv.areaB = { b with valid := false }
      ∧ (∀ i : Fin 64,
        (∀ c, best = some c → home i c.number →
          t.nv.slots[i].mark = .record c.number
          ∧ (carries i c.number → own i c.number = true → t.nv.slots[i].content = s.nv.slots[i].content)
          ∧ (¬ (carries i c.number ∧ own i c.number = true) →
            let ws := c.copy.mapIdx fun k w => if k = 3 then w ||| 0x0003 else if k = 4 then w ||| 0x0010 else w
            ∀ k : Fin 53, t.nv.slots[i].content[k] = ((ws ++ [crc16 ws])[k.val]?).getD s.nv.slots[i].content[k]))
        ∧ ((∀ c, best = some c → ¬ home i c.number) → t.nv.slots[i] = match s.nv.slots[i].mark with
          | .reserved n => ⟨if own i n = true then .record n else .free, s.nv.slots[i].content⟩
          | _ => s.nv.slots[i]))
      ∧ ((∃ c i, best = some c ∧ home i c.number) → 56 ≤ uncollected t.nv.slots → ∀ p, Takes .storeLow (t.port p) →
        Told .storeLow (t.port p))

/-- A loss of supply touches the non-volatile memory alone, and there the write in flight alone: an idle writer loses nothing, a
checkpoint write leaves its area invalid and the other area whole, an image write leaves an image that fails its CRC (R152, R155,
R174). A final write cut off in its first step leaves its slot RESERVED with a record that fails its CRC; later, the record is whole, and
the mark and the voided areas are as far as the write had got (R153, Table 9-4). That the volatile state stays as it was until the next
power-on reset is the model's reading, log entry 11; the free values' counter is the model's own, log entry 3. -/
def Obligations.PowerLossCutsWrite : Prop :=
  ∀ (cut : WriteCut) (s : State), s.powered = true →
    ∃ t, exec (.powerLoss cut) s = .next t
      ∧ t = { s with powered := false, nv := t.nv, free := t.free }
      ∧ (s.rst.writer = .idle → t.nv = s.nv)
      ∧ (∀ a q c, s.rst.writer = .checkpoint a q c → (t.nv.area a).valid = false
        ∧ t.nv.area a.other = s.nv.area a.other ∧ t.nv.slots = s.nv.slots ∧ t.nv.image = s.nv.image)
      ∧ (∀ v, s.rst.writer = .image v → imagePasses t.nv.image = false
        ∧ t.nv.slots = s.nv.slots ∧ t.nv.areaA = s.nv.areaA ∧ t.nv.areaB = s.nv.areaB)
      ∧ (∀ n ws, s.rst.writer = .final n ws → t.nv.image = s.nv.image
        ∧ (slotReserved s.nv.slots n = none → t.nv = s.nv)
        ∧ ∀ i : Fin 64, (slotReserved s.nv.slots n ≠ some i → t.nv.slots[i] = s.nv.slots[i])
          ∧ (slotReserved s.nv.slots n = some i →
            let whole := overlay s.nv.slots[i].content ws
            match cut with
            | .words _ => t.nv.slots[i].mark = .reserved n ∧ passes t.nv.slots[i].content = false
              ∧ t.nv.areaA = s.nv.areaA ∧ t.nv.areaB = s.nv.areaB
            | .written => t.nv.slots[i] = ⟨.reserved n, whole⟩ ∧ t.nv.areaA = s.nv.areaA ∧ t.nv.areaB = s.nv.areaB
            | .marked => t.nv.slots[i] = ⟨.record n, whole⟩ ∧ t.nv.areaA = s.nv.areaA ∧ t.nv.areaB = s.nv.areaB
            | .voided x y => t.nv.slots[i] = ⟨.record n, whole⟩
              ∧ t.nv.areaA = (if x = true then { s.nv.areaA with valid := false } else s.nv.areaA)
              ∧ t.nv.areaB = (if y = true then { s.nv.areaB with valid := false } else s.nv.areaB)))
      ∧ t.nv.counter = s.nv.counter

/-- The safety conditions hold in the reset state. Which part the reset state is of is the model's choice, log entry 2. -/
def Obligations.ResetIsSafe : Prop :=
  PlanSafe State.reset ∧ LinesSafe State.reset ∧ DemandSafe State.reset ∧ HoldSafe State.reset
    ∧ ZonesSound State.reset ∧ HeatSafe State.reset ∧ DrawSafe State.reset ∧ AccountsSound State.reset
end

