-- ==== Sys2Proof/Laws/State.lean ====
section
/-! SUPPORT. Laws/State.lean: one lemma per field per named update of State, so that no later proof unfolds an update. -/

namespace Sys2Proof.Machine

/-! ## setPlan -/

@[simp] theorem State.setPlan_powered (s : State) (x : Vector Entry 53) : (s.setPlan x).powered = s.powered := rfl
@[simp] theorem State.setPlan_threePhases (s : State) (x : Vector Entry 53) : (s.setPlan x).threePhases = s.threePhases := rfl
@[simp] theorem State.setPlan_commission (s : State) (x : Vector Entry 53) : (s.setPlan x).commission = s.commission := rfl
@[simp] theorem State.setPlan_plan (s : State) (x : Vector Entry 53) : (s.setPlan x).plan = x := rfl
@[simp] theorem State.setPlan_planDefaults (s : State) (x : Vector Entry 53) : (s.setPlan x).planDefaults = s.planDefaults := rfl
@[simp] theorem State.setPlan_portV (s : State) (x : Vector Entry 53) : (s.setPlan x).portV = s.portV := rfl
@[simp] theorem State.setPlan_portP (s : State) (x : Vector Entry 53) : (s.setPlan x).portP = s.portP := rfl
@[simp] theorem State.setPlan_portF (s : State) (x : Vector Entry 53) : (s.setPlan x).portF = s.portF := rfl
@[simp] theorem State.setPlan_recordBuffer (s : State) (x : Vector Entry 53) : (s.setPlan x).recordBuffer = s.recordBuffer := rfl
@[simp] theorem State.setPlan_imageBuffer (s : State) (x : Vector Entry 53) : (s.setPlan x).imageBuffer = s.imageBuffer := rfl
@[simp] theorem State.setPlan_ses (s : State) (x : Vector Entry 53) : (s.setPlan x).ses = s.ses := rfl
@[simp] theorem State.setPlan_sup (s : State) (x : Vector Entry 53) : (s.setPlan x).sup = s.sup := rfl
@[simp] theorem State.setPlan_alc (s : State) (x : Vector Entry 53) : (s.setPlan x).alc = s.alc := rfl
@[simp] theorem State.setPlan_htr (s : State) (x : Vector Entry 53) : (s.setPlan x).htr = s.htr := rfl
@[simp] theorem State.setPlan_iso (s : State) (x : Vector Entry 53) : (s.setPlan x).iso = s.iso := rfl
@[simp] theorem State.setPlan_mtr (s : State) (x : Vector Entry 53) : (s.setPlan x).mtr = s.mtr := rfl
@[simp] theorem State.setPlan_rst (s : State) (x : Vector Entry 53) : (s.setPlan x).rst = s.rst := rfl
@[simp] theorem State.setPlan_nv (s : State) (x : Vector Entry 53) : (s.setPlan x).nv = s.nv := rfl
@[simp] theorem State.setPlan_free (s : State) (x : Vector Entry 53) : (s.setPlan x).free = s.free := rfl
@[simp] theorem State.setPlan_pending (s : State) (x : Vector Entry 53) : (s.setPlan x).pending = s.pending := rfl
@[simp] theorem State.setPlan_port (s : State) (x : Vector Entry 53) (p : PortId) : (s.setPlan x).port p = s.port p := by
  cases p <;> rfl
@[simp] theorem State.setPlan_entry (s : State) (x : Vector Entry 53) (n : Fin 53) : (s.setPlan x).entry n = x[n] := rfl
@[simp] theorem State.setPlan_zone (s : State) (x : Vector Entry 53) (z : Fin 8) : (s.setPlan x).zone z = s.zone z := rfl

/-! ## setRecordBuffer -/

@[simp] theorem State.setRecordBuffer_powered (s : State) (x : Option RecordCopy) : (s.setRecordBuffer x).powered = s.powered := rfl
@[simp] theorem State.setRecordBuffer_threePhases (s : State) (x : Option RecordCopy) : (s.setRecordBuffer x).threePhases = s.threePhases := rfl
@[simp] theorem State.setRecordBuffer_commission (s : State) (x : Option RecordCopy) : (s.setRecordBuffer x).commission = s.commission := rfl
@[simp] theorem State.setRecordBuffer_plan (s : State) (x : Option RecordCopy) : (s.setRecordBuffer x).plan = s.plan := rfl
@[simp] theorem State.setRecordBuffer_planDefaults (s : State) (x : Option RecordCopy) : (s.setRecordBuffer x).planDefaults = s.planDefaults := rfl
@[simp] theorem State.setRecordBuffer_portV (s : State) (x : Option RecordCopy) : (s.setRecordBuffer x).portV = s.portV := rfl
@[simp] theorem State.setRecordBuffer_portP (s : State) (x : Option RecordCopy) : (s.setRecordBuffer x).portP = s.portP := rfl
@[simp] theorem State.setRecordBuffer_portF (s : State) (x : Option RecordCopy) : (s.setRecordBuffer x).portF = s.portF := rfl
@[simp] theorem State.setRecordBuffer_recordBuffer (s : State) (x : Option RecordCopy) : (s.setRecordBuffer x).recordBuffer = x := rfl
@[simp] theorem State.setRecordBuffer_imageBuffer (s : State) (x : Option RecordCopy) : (s.setRecordBuffer x).imageBuffer = s.imageBuffer := rfl
@[simp] theorem State.setRecordBuffer_ses (s : State) (x : Option RecordCopy) : (s.setRecordBuffer x).ses = s.ses := rfl
@[simp] theorem State.setRecordBuffer_sup (s : State) (x : Option RecordCopy) : (s.setRecordBuffer x).sup = s.sup := rfl
@[simp] theorem State.setRecordBuffer_alc (s : State) (x : Option RecordCopy) : (s.setRecordBuffer x).alc = s.alc := rfl
@[simp] theorem State.setRecordBuffer_htr (s : State) (x : Option RecordCopy) : (s.setRecordBuffer x).htr = s.htr := rfl
@[simp] theorem State.setRecordBuffer_iso (s : State) (x : Option RecordCopy) : (s.setRecordBuffer x).iso = s.iso := rfl
@[simp] theorem State.setRecordBuffer_mtr (s : State) (x : Option RecordCopy) : (s.setRecordBuffer x).mtr = s.mtr := rfl
@[simp] theorem State.setRecordBuffer_rst (s : State) (x : Option RecordCopy) : (s.setRecordBuffer x).rst = s.rst := rfl
@[simp] theorem State.setRecordBuffer_nv (s : State) (x : Option RecordCopy) : (s.setRecordBuffer x).nv = s.nv := rfl
@[simp] theorem State.setRecordBuffer_free (s : State) (x : Option RecordCopy) : (s.setRecordBuffer x).free = s.free := rfl
@[simp] theorem State.setRecordBuffer_pending (s : State) (x : Option RecordCopy) : (s.setRecordBuffer x).pending = s.pending := rfl
@[simp] theorem State.setRecordBuffer_port (s : State) (x : Option RecordCopy) (p : PortId) : (s.setRecordBuffer x).port p = s.port p := by
  cases p <;> rfl
@[simp] theorem State.setRecordBuffer_entry (s : State) (x : Option RecordCopy) (n : Fin 53) : (s.setRecordBuffer x).entry n = s.entry n := rfl
@[simp] theorem State.setRecordBuffer_zone (s : State) (x : Option RecordCopy) (z : Fin 8) : (s.setRecordBuffer x).zone z = s.zone z := rfl

/-! ## setImageBuffer -/

@[simp] theorem State.setImageBuffer_powered (s : State) (x : Option (Vector Word 200)) : (s.setImageBuffer x).powered = s.powered := rfl
@[simp] theorem State.setImageBuffer_threePhases (s : State) (x : Option (Vector Word 200)) : (s.setImageBuffer x).threePhases = s.threePhases := rfl
@[simp] theorem State.setImageBuffer_commission (s : State) (x : Option (Vector Word 200)) : (s.setImageBuffer x).commission = s.commission := rfl
@[simp] theorem State.setImageBuffer_plan (s : State) (x : Option (Vector Word 200)) : (s.setImageBuffer x).plan = s.plan := rfl
@[simp] theorem State.setImageBuffer_planDefaults (s : State) (x : Option (Vector Word 200)) : (s.setImageBuffer x).planDefaults = s.planDefaults := rfl
@[simp] theorem State.setImageBuffer_portV (s : State) (x : Option (Vector Word 200)) : (s.setImageBuffer x).portV = s.portV := rfl
@[simp] theorem State.setImageBuffer_portP (s : State) (x : Option (Vector Word 200)) : (s.setImageBuffer x).portP = s.portP := rfl
@[simp] theorem State.setImageBuffer_portF (s : State) (x : Option (Vector Word 200)) : (s.setImageBuffer x).portF = s.portF := rfl
@[simp] theorem State.setImageBuffer_recordBuffer (s : State) (x : Option (Vector Word 200)) : (s.setImageBuffer x).recordBuffer = s.recordBuffer := rfl
@[simp] theorem State.setImageBuffer_imageBuffer (s : State) (x : Option (Vector Word 200)) : (s.setImageBuffer x).imageBuffer = x := rfl
@[simp] theorem State.setImageBuffer_ses (s : State) (x : Option (Vector Word 200)) : (s.setImageBuffer x).ses = s.ses := rfl
@[simp] theorem State.setImageBuffer_sup (s : State) (x : Option (Vector Word 200)) : (s.setImageBuffer x).sup = s.sup := rfl
@[simp] theorem State.setImageBuffer_alc (s : State) (x : Option (Vector Word 200)) : (s.setImageBuffer x).alc = s.alc := rfl
@[simp] theorem State.setImageBuffer_htr (s : State) (x : Option (Vector Word 200)) : (s.setImageBuffer x).htr = s.htr := rfl
@[simp] theorem State.setImageBuffer_iso (s : State) (x : Option (Vector Word 200)) : (s.setImageBuffer x).iso = s.iso := rfl
@[simp] theorem State.setImageBuffer_mtr (s : State) (x : Option (Vector Word 200)) : (s.setImageBuffer x).mtr = s.mtr := rfl
@[simp] theorem State.setImageBuffer_rst (s : State) (x : Option (Vector Word 200)) : (s.setImageBuffer x).rst = s.rst := rfl
@[simp] theorem State.setImageBuffer_nv (s : State) (x : Option (Vector Word 200)) : (s.setImageBuffer x).nv = s.nv := rfl
@[simp] theorem State.setImageBuffer_free (s : State) (x : Option (Vector Word 200)) : (s.setImageBuffer x).free = s.free := rfl
@[simp] theorem State.setImageBuffer_pending (s : State) (x : Option (Vector Word 200)) : (s.setImageBuffer x).pending = s.pending := rfl
@[simp] theorem State.setImageBuffer_port (s : State) (x : Option (Vector Word 200)) (p : PortId) : (s.setImageBuffer x).port p = s.port p := by
  cases p <;> rfl
@[simp] theorem State.setImageBuffer_entry (s : State) (x : Option (Vector Word 200)) (n : Fin 53) : (s.setImageBuffer x).entry n = s.entry n := rfl
@[simp] theorem State.setImageBuffer_zone (s : State) (x : Option (Vector Word 200)) (z : Fin 8) : (s.setImageBuffer x).zone z = s.zone z := rfl

/-! ## setSes -/

@[simp] theorem State.setSes_powered (s : State) (x : Ses) : (s.setSes x).powered = s.powered := rfl
@[simp] theorem State.setSes_threePhases (s : State) (x : Ses) : (s.setSes x).threePhases = s.threePhases := rfl
@[simp] theorem State.setSes_commission (s : State) (x : Ses) : (s.setSes x).commission = s.commission := rfl
@[simp] theorem State.setSes_plan (s : State) (x : Ses) : (s.setSes x).plan = s.plan := rfl
@[simp] theorem State.setSes_planDefaults (s : State) (x : Ses) : (s.setSes x).planDefaults = s.planDefaults := rfl
@[simp] theorem State.setSes_portV (s : State) (x : Ses) : (s.setSes x).portV = s.portV := rfl
@[simp] theorem State.setSes_portP (s : State) (x : Ses) : (s.setSes x).portP = s.portP := rfl
@[simp] theorem State.setSes_portF (s : State) (x : Ses) : (s.setSes x).portF = s.portF := rfl
@[simp] theorem State.setSes_recordBuffer (s : State) (x : Ses) : (s.setSes x).recordBuffer = s.recordBuffer := rfl
@[simp] theorem State.setSes_imageBuffer (s : State) (x : Ses) : (s.setSes x).imageBuffer = s.imageBuffer := rfl
@[simp] theorem State.setSes_ses (s : State) (x : Ses) : (s.setSes x).ses = x := rfl
@[simp] theorem State.setSes_sup (s : State) (x : Ses) : (s.setSes x).sup = s.sup := rfl
@[simp] theorem State.setSes_alc (s : State) (x : Ses) : (s.setSes x).alc = s.alc := rfl
@[simp] theorem State.setSes_htr (s : State) (x : Ses) : (s.setSes x).htr = s.htr := rfl
@[simp] theorem State.setSes_iso (s : State) (x : Ses) : (s.setSes x).iso = s.iso := rfl
@[simp] theorem State.setSes_mtr (s : State) (x : Ses) : (s.setSes x).mtr = s.mtr := rfl
@[simp] theorem State.setSes_rst (s : State) (x : Ses) : (s.setSes x).rst = s.rst := rfl
@[simp] theorem State.setSes_nv (s : State) (x : Ses) : (s.setSes x).nv = s.nv := rfl
@[simp] theorem State.setSes_free (s : State) (x : Ses) : (s.setSes x).free = s.free := rfl
@[simp] theorem State.setSes_pending (s : State) (x : Ses) : (s.setSes x).pending = s.pending := rfl
@[simp] theorem State.setSes_port (s : State) (x : Ses) (p : PortId) : (s.setSes x).port p = s.port p := by
  cases p <;> rfl
@[simp] theorem State.setSes_entry (s : State) (x : Ses) (n : Fin 53) : (s.setSes x).entry n = s.entry n := rfl
@[simp] theorem State.setSes_zone (s : State) (x : Ses) (z : Fin 8) : (s.setSes x).zone z = s.zone z := rfl

/-! ## setSup -/

@[simp] theorem State.setSup_powered (s : State) (x : Sup) : (s.setSup x).powered = s.powered := rfl
@[simp] theorem State.setSup_threePhases (s : State) (x : Sup) : (s.setSup x).threePhases = s.threePhases := rfl
@[simp] theorem State.setSup_commission (s : State) (x : Sup) : (s.setSup x).commission = s.commission := rfl
@[simp] theorem State.setSup_plan (s : State) (x : Sup) : (s.setSup x).plan = s.plan := rfl
@[simp] theorem State.setSup_planDefaults (s : State) (x : Sup) : (s.setSup x).planDefaults = s.planDefaults := rfl
@[simp] theorem State.setSup_portV (s : State) (x : Sup) : (s.setSup x).portV = s.portV := rfl
@[simp] theorem State.setSup_portP (s : State) (x : Sup) : (s.setSup x).portP = s.portP := rfl
@[simp] theorem State.setSup_portF (s : State) (x : Sup) : (s.setSup x).portF = s.portF := rfl
@[simp] theorem State.setSup_recordBuffer (s : State) (x : Sup) : (s.setSup x).recordBuffer = s.recordBuffer := rfl
@[simp] theorem State.setSup_imageBuffer (s : State) (x : Sup) : (s.setSup x).imageBuffer = s.imageBuffer := rfl
@[simp] theorem State.setSup_ses (s : State) (x : Sup) : (s.setSup x).ses = s.ses := rfl
@[simp] theorem State.setSup_sup (s : State) (x : Sup) : (s.setSup x).sup = x := rfl
@[simp] theorem State.setSup_alc (s : State) (x : Sup) : (s.setSup x).alc = s.alc := rfl
@[simp] theorem State.setSup_htr (s : State) (x : Sup) : (s.setSup x).htr = s.htr := rfl
@[simp] theorem State.setSup_iso (s : State) (x : Sup) : (s.setSup x).iso = s.iso := rfl
@[simp] theorem State.setSup_mtr (s : State) (x : Sup) : (s.setSup x).mtr = s.mtr := rfl
@[simp] theorem State.setSup_rst (s : State) (x : Sup) : (s.setSup x).rst = s.rst := rfl
@[simp] theorem State.setSup_nv (s : State) (x : Sup) : (s.setSup x).nv = s.nv := rfl
@[simp] theorem State.setSup_free (s : State) (x : Sup) : (s.setSup x).free = s.free := rfl
@[simp] theorem State.setSup_pending (s : State) (x : Sup) : (s.setSup x).pending = s.pending := rfl
@[simp] theorem State.setSup_port (s : State) (x : Sup) (p : PortId) : (s.setSup x).port p = s.port p := by
  cases p <;> rfl
@[simp] theorem State.setSup_entry (s : State) (x : Sup) (n : Fin 53) : (s.setSup x).entry n = s.entry n := rfl
@[simp] theorem State.setSup_zone (s : State) (x : Sup) (z : Fin 8) : (s.setSup x).zone z = s.zone z := rfl

/-! ## setAlc -/

@[simp] theorem State.setAlc_powered (s : State) (x : Alc) : (s.setAlc x).powered = s.powered := rfl
@[simp] theorem State.setAlc_threePhases (s : State) (x : Alc) : (s.setAlc x).threePhases = s.threePhases := rfl
@[simp] theorem State.setAlc_commission (s : State) (x : Alc) : (s.setAlc x).commission = s.commission := rfl
@[simp] theorem State.setAlc_plan (s : State) (x : Alc) : (s.setAlc x).plan = s.plan := rfl
@[simp] theorem State.setAlc_planDefaults (s : State) (x : Alc) : (s.setAlc x).planDefaults = s.planDefaults := rfl
@[simp] theorem State.setAlc_portV (s : State) (x : Alc) : (s.setAlc x).portV = s.portV := rfl
@[simp] theorem State.setAlc_portP (s : State) (x : Alc) : (s.setAlc x).portP = s.portP := rfl
@[simp] theorem State.setAlc_portF (s : State) (x : Alc) : (s.setAlc x).portF = s.portF := rfl
@[simp] theorem State.setAlc_recordBuffer (s : State) (x : Alc) : (s.setAlc x).recordBuffer = s.recordBuffer := rfl
@[simp] theorem State.setAlc_imageBuffer (s : State) (x : Alc) : (s.setAlc x).imageBuffer = s.imageBuffer := rfl
@[simp] theorem State.setAlc_ses (s : State) (x : Alc) : (s.setAlc x).ses = s.ses := rfl
@[simp] theorem State.setAlc_sup (s : State) (x : Alc) : (s.setAlc x).sup = s.sup := rfl
@[simp] theorem State.setAlc_alc (s : State) (x : Alc) : (s.setAlc x).alc = x := rfl
@[simp] theorem State.setAlc_htr (s : State) (x : Alc) : (s.setAlc x).htr = s.htr := rfl
@[simp] theorem State.setAlc_iso (s : State) (x : Alc) : (s.setAlc x).iso = s.iso := rfl
@[simp] theorem State.setAlc_mtr (s : State) (x : Alc) : (s.setAlc x).mtr = s.mtr := rfl
@[simp] theorem State.setAlc_rst (s : State) (x : Alc) : (s.setAlc x).rst = s.rst := rfl
@[simp] theorem State.setAlc_nv (s : State) (x : Alc) : (s.setAlc x).nv = s.nv := rfl
@[simp] theorem State.setAlc_free (s : State) (x : Alc) : (s.setAlc x).free = s.free := rfl
@[simp] theorem State.setAlc_pending (s : State) (x : Alc) : (s.setAlc x).pending = s.pending := rfl
@[simp] theorem State.setAlc_port (s : State) (x : Alc) (p : PortId) : (s.setAlc x).port p = s.port p := by
  cases p <;> rfl
@[simp] theorem State.setAlc_entry (s : State) (x : Alc) (n : Fin 53) : (s.setAlc x).entry n = s.entry n := rfl
@[simp] theorem State.setAlc_zone (s : State) (x : Alc) (z : Fin 8) : (s.setAlc x).zone z = s.zone z := rfl

/-! ## setHtr -/

@[simp] theorem State.setHtr_powered (s : State) (x : Htr) : (s.setHtr x).powered = s.powered := rfl
@[simp] theorem State.setHtr_threePhases (s : State) (x : Htr) : (s.setHtr x).threePhases = s.threePhases := rfl
@[simp] theorem State.setHtr_commission (s : State) (x : Htr) : (s.setHtr x).commission = s.commission := rfl
@[simp] theorem State.setHtr_plan (s : State) (x : Htr) : (s.setHtr x).plan = s.plan := rfl
@[simp] theorem State.setHtr_planDefaults (s : State) (x : Htr) : (s.setHtr x).planDefaults = s.planDefaults := rfl
@[simp] theorem State.setHtr_portV (s : State) (x : Htr) : (s.setHtr x).portV = s.portV := rfl
@[simp] theorem State.setHtr_portP (s : State) (x : Htr) : (s.setHtr x).portP = s.portP := rfl
@[simp] theorem State.setHtr_portF (s : State) (x : Htr) : (s.setHtr x).portF = s.portF := rfl
@[simp] theorem State.setHtr_recordBuffer (s : State) (x : Htr) : (s.setHtr x).recordBuffer = s.recordBuffer := rfl
@[simp] theorem State.setHtr_imageBuffer (s : State) (x : Htr) : (s.setHtr x).imageBuffer = s.imageBuffer := rfl
@[simp] theorem State.setHtr_ses (s : State) (x : Htr) : (s.setHtr x).ses = s.ses := rfl
@[simp] theorem State.setHtr_sup (s : State) (x : Htr) : (s.setHtr x).sup = s.sup := rfl
@[simp] theorem State.setHtr_alc (s : State) (x : Htr) : (s.setHtr x).alc = s.alc := rfl
@[simp] theorem State.setHtr_htr (s : State) (x : Htr) : (s.setHtr x).htr = x := rfl
@[simp] theorem State.setHtr_iso (s : State) (x : Htr) : (s.setHtr x).iso = s.iso := rfl
@[simp] theorem State.setHtr_mtr (s : State) (x : Htr) : (s.setHtr x).mtr = s.mtr := rfl
@[simp] theorem State.setHtr_rst (s : State) (x : Htr) : (s.setHtr x).rst = s.rst := rfl
@[simp] theorem State.setHtr_nv (s : State) (x : Htr) : (s.setHtr x).nv = s.nv := rfl
@[simp] theorem State.setHtr_free (s : State) (x : Htr) : (s.setHtr x).free = s.free := rfl
@[simp] theorem State.setHtr_pending (s : State) (x : Htr) : (s.setHtr x).pending = s.pending := rfl
@[simp] theorem State.setHtr_port (s : State) (x : Htr) (p : PortId) : (s.setHtr x).port p = s.port p := by
  cases p <;> rfl
@[simp] theorem State.setHtr_entry (s : State) (x : Htr) (n : Fin 53) : (s.setHtr x).entry n = s.entry n := rfl
@[simp] theorem State.setHtr_zone (s : State) (x : Htr) (z : Fin 8) : (s.setHtr x).zone z = x.zones[z] := rfl

/-! ## setIso -/

@[simp] theorem State.setIso_powered (s : State) (x : Iso) : (s.setIso x).powered = s.powered := rfl
@[simp] theorem State.setIso_threePhases (s : State) (x : Iso) : (s.setIso x).threePhases = s.threePhases := rfl
@[simp] theorem State.setIso_commission (s : State) (x : Iso) : (s.setIso x).commission = s.commission := rfl
@[simp] theorem State.setIso_plan (s : State) (x : Iso) : (s.setIso x).plan = s.plan := rfl
@[simp] theorem State.setIso_planDefaults (s : State) (x : Iso) : (s.setIso x).planDefaults = s.planDefaults := rfl
@[simp] theorem State.setIso_portV (s : State) (x : Iso) : (s.setIso x).portV = s.portV := rfl
@[simp] theorem State.setIso_portP (s : State) (x : Iso) : (s.setIso x).portP = s.portP := rfl
@[simp] theorem State.setIso_portF (s : State) (x : Iso) : (s.setIso x).portF = s.portF := rfl
@[simp] theorem State.setIso_recordBuffer (s : State) (x : Iso) : (s.setIso x).recordBuffer = s.recordBuffer := rfl
@[simp] theorem State.setIso_imageBuffer (s : State) (x : Iso) : (s.setIso x).imageBuffer = s.imageBuffer := rfl
@[simp] theorem State.setIso_ses (s : State) (x : Iso) : (s.setIso x).ses = s.ses := rfl
@[simp] theorem State.setIso_sup (s : State) (x : Iso) : (s.setIso x).sup = s.sup := rfl
@[simp] theorem State.setIso_alc (s : State) (x : Iso) : (s.setIso x).alc = s.alc := rfl
@[simp] theorem State.setIso_htr (s : State) (x : Iso) : (s.setIso x).htr = s.htr := rfl
@[simp] theorem State.setIso_iso (s : State) (x : Iso) : (s.setIso x).iso = x := rfl
@[simp] theorem State.setIso_mtr (s : State) (x : Iso) : (s.setIso x).mtr = s.mtr := rfl
@[simp] theorem State.setIso_rst (s : State) (x : Iso) : (s.setIso x).rst = s.rst := rfl
@[simp] theorem State.setIso_nv (s : State) (x : Iso) : (s.setIso x).nv = s.nv := rfl
@[simp] theorem State.setIso_free (s : State) (x : Iso) : (s.setIso x).free = s.free := rfl
@[simp] theorem State.setIso_pending (s : State) (x : Iso) : (s.setIso x).pending = s.pending := rfl
@[simp] theorem State.setIso_port (s : State) (x : Iso) (p : PortId) : (s.setIso x).port p = s.port p := by
  cases p <;> rfl
@[simp] theorem State.setIso_entry (s : State) (x : Iso) (n : Fin 53) : (s.setIso x).entry n = s.entry n := rfl
@[simp] theorem State.setIso_zone (s : State) (x : Iso) (z : Fin 8) : (s.setIso x).zone z = s.zone z := rfl

/-! ## setMtr -/

@[simp] theorem State.setMtr_powered (s : State) (x : Mtr) : (s.setMtr x).powered = s.powered := rfl
@[simp] theorem State.setMtr_threePhases (s : State) (x : Mtr) : (s.setMtr x).threePhases = s.threePhases := rfl
@[simp] theorem State.setMtr_commission (s : State) (x : Mtr) : (s.setMtr x).commission = s.commission := rfl
@[simp] theorem State.setMtr_plan (s : State) (x : Mtr) : (s.setMtr x).plan = s.plan := rfl
@[simp] theorem State.setMtr_planDefaults (s : State) (x : Mtr) : (s.setMtr x).planDefaults = s.planDefaults := rfl
@[simp] theorem State.setMtr_portV (s : State) (x : Mtr) : (s.setMtr x).portV = s.portV := rfl
@[simp] theorem State.setMtr_portP (s : State) (x : Mtr) : (s.setMtr x).portP = s.portP := rfl
@[simp] theorem State.setMtr_portF (s : State) (x : Mtr) : (s.setMtr x).portF = s.portF := rfl
@[simp] theorem State.setMtr_recordBuffer (s : State) (x : Mtr) : (s.setMtr x).recordBuffer = s.recordBuffer := rfl
@[simp] theorem State.setMtr_imageBuffer (s : State) (x : Mtr) : (s.setMtr x).imageBuffer = s.imageBuffer := rfl
@[simp] theorem State.setMtr_ses (s : State) (x : Mtr) : (s.setMtr x).ses = s.ses := rfl
@[simp] theorem State.setMtr_sup (s : State) (x : Mtr) : (s.setMtr x).sup = s.sup := rfl
@[simp] theorem State.setMtr_alc (s : State) (x : Mtr) : (s.setMtr x).alc = s.alc := rfl
@[simp] theorem State.setMtr_htr (s : State) (x : Mtr) : (s.setMtr x).htr = s.htr := rfl
@[simp] theorem State.setMtr_iso (s : State) (x : Mtr) : (s.setMtr x).iso = s.iso := rfl
@[simp] theorem State.setMtr_mtr (s : State) (x : Mtr) : (s.setMtr x).mtr = x := rfl
@[simp] theorem State.setMtr_rst (s : State) (x : Mtr) : (s.setMtr x).rst = s.rst := rfl
@[simp] theorem State.setMtr_nv (s : State) (x : Mtr) : (s.setMtr x).nv = s.nv := rfl
@[simp] theorem State.setMtr_free (s : State) (x : Mtr) : (s.setMtr x).free = s.free := rfl
@[simp] theorem State.setMtr_pending (s : State) (x : Mtr) : (s.setMtr x).pending = s.pending := rfl
@[simp] theorem State.setMtr_port (s : State) (x : Mtr) (p : PortId) : (s.setMtr x).port p = s.port p := by
  cases p <;> rfl
@[simp] theorem State.setMtr_entry (s : State) (x : Mtr) (n : Fin 53) : (s.setMtr x).entry n = s.entry n := rfl
@[simp] theorem State.setMtr_zone (s : State) (x : Mtr) (z : Fin 8) : (s.setMtr x).zone z = s.zone z := rfl

/-! ## setRst -/

@[simp] theorem State.setRst_powered (s : State) (x : Rst) : (s.setRst x).powered = s.powered := rfl
@[simp] theorem State.setRst_threePhases (s : State) (x : Rst) : (s.setRst x).threePhases = s.threePhases := rfl
@[simp] theorem State.setRst_commission (s : State) (x : Rst) : (s.setRst x).commission = s.commission := rfl
@[simp] theorem State.setRst_plan (s : State) (x : Rst) : (s.setRst x).plan = s.plan := rfl
@[simp] theorem State.setRst_planDefaults (s : State) (x : Rst) : (s.setRst x).planDefaults = s.planDefaults := rfl
@[simp] theorem State.setRst_portV (s : State) (x : Rst) : (s.setRst x).portV = s.portV := rfl
@[simp] theorem State.setRst_portP (s : State) (x : Rst) : (s.setRst x).portP = s.portP := rfl
@[simp] theorem State.setRst_portF (s : State) (x : Rst) : (s.setRst x).portF = s.portF := rfl
@[simp] theorem State.setRst_recordBuffer (s : State) (x : Rst) : (s.setRst x).recordBuffer = s.recordBuffer := rfl
@[simp] theorem State.setRst_imageBuffer (s : State) (x : Rst) : (s.setRst x).imageBuffer = s.imageBuffer := rfl
@[simp] theorem State.setRst_ses (s : State) (x : Rst) : (s.setRst x).ses = s.ses := rfl
@[simp] theorem State.setRst_sup (s : State) (x : Rst) : (s.setRst x).sup = s.sup := rfl
@[simp] theorem State.setRst_alc (s : State) (x : Rst) : (s.setRst x).alc = s.alc := rfl
@[simp] theorem State.setRst_htr (s : State) (x : Rst) : (s.setRst x).htr = s.htr := rfl
@[simp] theorem State.setRst_iso (s : State) (x : Rst) : (s.setRst x).iso = s.iso := rfl
@[simp] theorem State.setRst_mtr (s : State) (x : Rst) : (s.setRst x).mtr = s.mtr := rfl
@[simp] theorem State.setRst_rst (s : State) (x : Rst) : (s.setRst x).rst = x := rfl
@[simp] theorem State.setRst_nv (s : State) (x : Rst) : (s.setRst x).nv = s.nv := rfl
@[simp] theorem State.setRst_free (s : State) (x : Rst) : (s.setRst x).free = s.free := rfl
@[simp] theorem State.setRst_pending (s : State) (x : Rst) : (s.setRst x).pending = s.pending := rfl
@[simp] theorem State.setRst_port (s : State) (x : Rst) (p : PortId) : (s.setRst x).port p = s.port p := by
  cases p <;> rfl
@[simp] theorem State.setRst_entry (s : State) (x : Rst) (n : Fin 53) : (s.setRst x).entry n = s.entry n := rfl
@[simp] theorem State.setRst_zone (s : State) (x : Rst) (z : Fin 8) : (s.setRst x).zone z = s.zone z := rfl

/-! ## setNv -/

@[simp] theorem State.setNv_powered (s : State) (x : Nv) : (s.setNv x).powered = s.powered := rfl
@[simp] theorem State.setNv_threePhases (s : State) (x : Nv) : (s.setNv x).threePhases = s.threePhases := rfl
@[simp] theorem State.setNv_commission (s : State) (x : Nv) : (s.setNv x).commission = s.commission := rfl
@[simp] theorem State.setNv_plan (s : State) (x : Nv) : (s.setNv x).plan = s.plan := rfl
@[simp] theorem State.setNv_planDefaults (s : State) (x : Nv) : (s.setNv x).planDefaults = s.planDefaults := rfl
@[simp] theorem State.setNv_portV (s : State) (x : Nv) : (s.setNv x).portV = s.portV := rfl
@[simp] theorem State.setNv_portP (s : State) (x : Nv) : (s.setNv x).portP = s.portP := rfl
@[simp] theorem State.setNv_portF (s : State) (x : Nv) : (s.setNv x).portF = s.portF := rfl
@[simp] theorem State.setNv_recordBuffer (s : State) (x : Nv) : (s.setNv x).recordBuffer = s.recordBuffer := rfl
@[simp] theorem State.setNv_imageBuffer (s : State) (x : Nv) : (s.setNv x).imageBuffer = s.imageBuffer := rfl
@[simp] theorem State.setNv_ses (s : State) (x : Nv) : (s.setNv x).ses = s.ses := rfl
@[simp] theorem State.setNv_sup (s : State) (x : Nv) : (s.setNv x).sup = s.sup := rfl
@[simp] theorem State.setNv_alc (s : State) (x : Nv) : (s.setNv x).alc = s.alc := rfl
@[simp] theorem State.setNv_htr (s : State) (x : Nv) : (s.setNv x).htr = s.htr := rfl
@[simp] theorem State.setNv_iso (s : State) (x : Nv) : (s.setNv x).iso = s.iso := rfl
@[simp] theorem State.setNv_mtr (s : State) (x : Nv) : (s.setNv x).mtr = s.mtr := rfl
@[simp] theorem State.setNv_rst (s : State) (x : Nv) : (s.setNv x).rst = s.rst := rfl
@[simp] theorem State.setNv_nv (s : State) (x : Nv) : (s.setNv x).nv = x := rfl
@[simp] theorem State.setNv_free (s : State) (x : Nv) : (s.setNv x).free = s.free := rfl
@[simp] theorem State.setNv_pending (s : State) (x : Nv) : (s.setNv x).pending = s.pending := rfl
@[simp] theorem State.setNv_port (s : State) (x : Nv) (p : PortId) : (s.setNv x).port p = s.port p := by
  cases p <;> rfl
@[simp] theorem State.setNv_entry (s : State) (x : Nv) (n : Fin 53) : (s.setNv x).entry n = s.entry n := rfl
@[simp] theorem State.setNv_zone (s : State) (x : Nv) (z : Fin 8) : (s.setNv x).zone z = s.zone z := rfl

/-! ## setPending -/

@[simp] theorem State.setPending_powered (s : State) (x : List Instr) : (s.setPending x).powered = s.powered := rfl
@[simp] theorem State.setPending_threePhases (s : State) (x : List Instr) : (s.setPending x).threePhases = s.threePhases := rfl
@[simp] theorem State.setPending_commission (s : State) (x : List Instr) : (s.setPending x).commission = s.commission := rfl
@[simp] theorem State.setPending_plan (s : State) (x : List Instr) : (s.setPending x).plan = s.plan := rfl
@[simp] theorem State.setPending_planDefaults (s : State) (x : List Instr) : (s.setPending x).planDefaults = s.planDefaults := rfl
@[simp] theorem State.setPending_portV (s : State) (x : List Instr) : (s.setPending x).portV = s.portV := rfl
@[simp] theorem State.setPending_portP (s : State) (x : List Instr) : (s.setPending x).portP = s.portP := rfl
@[simp] theorem State.setPending_portF (s : State) (x : List Instr) : (s.setPending x).portF = s.portF := rfl
@[simp] theorem State.setPending_recordBuffer (s : State) (x : List Instr) : (s.setPending x).recordBuffer = s.recordBuffer := rfl
@[simp] theorem State.setPending_imageBuffer (s : State) (x : List Instr) : (s.setPending x).imageBuffer = s.imageBuffer := rfl
@[simp] theorem State.setPending_ses (s : State) (x : List Instr) : (s.setPending x).ses = s.ses := rfl
@[simp] theorem State.setPending_sup (s : State) (x : List Instr) : (s.setPending x).sup = s.sup := rfl
@[simp] theorem State.setPending_alc (s : State) (x : List Instr) : (s.setPending x).alc = s.alc := rfl
@[simp] theorem State.setPending_htr (s : State) (x : List Instr) : (s.setPending x).htr = s.htr := rfl
@[simp] theorem State.setPending_iso (s : State) (x : List Instr) : (s.setPending x).iso = s.iso := rfl
@[simp] theorem State.setPending_mtr (s : State) (x : List Instr) : (s.setPending x).mtr = s.mtr := rfl
@[simp] theorem State.setPending_rst (s : State) (x : List Instr) : (s.setPending x).rst = s.rst := rfl
@[simp] theorem State.setPending_nv (s : State) (x : List Instr) : (s.setPending x).nv = s.nv := rfl
@[simp] theorem State.setPending_free (s : State) (x : List Instr) : (s.setPending x).free = s.free := rfl
@[simp] theorem State.setPending_pending (s : State) (x : List Instr) : (s.setPending x).pending = x := rfl
@[simp] theorem State.setPending_port (s : State) (x : List Instr) (p : PortId) : (s.setPending x).port p = s.port p := by
  cases p <;> rfl
@[simp] theorem State.setPending_entry (s : State) (x : List Instr) (n : Fin 53) : (s.setPending x).entry n = s.entry n := rfl
@[simp] theorem State.setPending_zone (s : State) (x : List Instr) (z : Fin 8) : (s.setPending x).zone z = s.zone z := rfl

/-! ## setPort -/

@[simp] theorem State.setPort_powered (s : State) (p : PortId) (x : PortState) : (s.setPort p x).powered = s.powered := by
  cases p <;> rfl
@[simp] theorem State.setPort_threePhases (s : State) (p : PortId) (x : PortState) : (s.setPort p x).threePhases = s.threePhases := by
  cases p <;> rfl
@[simp] theorem State.setPort_commission (s : State) (p : PortId) (x : PortState) : (s.setPort p x).commission = s.commission := by
  cases p <;> rfl
@[simp] theorem State.setPort_plan (s : State) (p : PortId) (x : PortState) : (s.setPort p x).plan = s.plan := by
  cases p <;> rfl
@[simp] theorem State.setPort_planDefaults (s : State) (p : PortId) (x : PortState) : (s.setPort p x).planDefaults = s.planDefaults := by
  cases p <;> rfl
@[simp] theorem State.setPort_recordBuffer (s : State) (p : PortId) (x : PortState) : (s.setPort p x).recordBuffer = s.recordBuffer := by
  cases p <;> rfl
@[simp] theorem State.setPort_imageBuffer (s : State) (p : PortId) (x : PortState) : (s.setPort p x).imageBuffer = s.imageBuffer := by
  cases p <;> rfl
@[simp] theorem State.setPort_ses (s : State) (p : PortId) (x : PortState) : (s.setPort p x).ses = s.ses := by
  cases p <;> rfl
@[simp] theorem State.setPort_sup (s : State) (p : PortId) (x : PortState) : (s.setPort p x).sup = s.sup := by
  cases p <;> rfl
@[simp] theorem State.setPort_alc (s : State) (p : PortId) (x : PortState) : (s.setPort p x).alc = s.alc := by
  cases p <;> rfl
@[simp] theorem State.setPort_htr (s : State) (p : PortId) (x : PortState) : (s.setPort p x).htr = s.htr := by
  cases p <;> rfl
@[simp] theorem State.setPort_iso (s : State) (p : PortId) (x : PortState) : (s.setPort p x).iso = s.iso := by
  cases p <;> rfl
@[simp] theorem State.setPort_mtr (s : State) (p : PortId) (x : PortState) : (s.setPort p x).mtr = s.mtr := by
  cases p <;> rfl
@[simp] theorem State.setPort_rst (s : State) (p : PortId) (x : PortState) : (s.setPort p x).rst = s.rst := by
  cases p <;> rfl
@[simp] theorem State.setPort_nv (s : State) (p : PortId) (x : PortState) : (s.setPort p x).nv = s.nv := by
  cases p <;> rfl
@[simp] theorem State.setPort_free (s : State) (p : PortId) (x : PortState) : (s.setPort p x).free = s.free := by
  cases p <;> rfl
@[simp] theorem State.setPort_pending (s : State) (p : PortId) (x : PortState) : (s.setPort p x).pending = s.pending := by
  cases p <;> rfl
@[simp] theorem State.setPort_entry (s : State) (p : PortId) (x : PortState) (n : Fin 53) :
    (s.setPort p x).entry n = s.entry n := by
  cases p <;> rfl
@[simp] theorem State.setPort_zone (s : State) (p : PortId) (x : PortState) (z : Fin 8) :
    (s.setPort p x).zone z = s.zone z := by
  cases p <;> rfl
@[simp] theorem State.setPort_port_self (s : State) (p : PortId) (x : PortState) : (s.setPort p x).port p = x := by
  cases p <;> rfl
theorem State.setPort_port_ne (s : State) {p q : PortId} (x : PortState) (h : q ≠ p) :
    (s.setPort p x).port q = s.port q := by
  cases p <;> cases q <;> first | rfl | exact absurd rfl h
theorem State.setPort_port (s : State) (p q : PortId) (x : PortState) :
    (s.setPort p x).port q = if q = p then x else s.port q := by
  split
  · subst q; simp
  · exact s.setPort_port_ne x ‹_›
@[simp] theorem State.setPort_setPort (s : State) (p : PortId) (x y : PortState) :
    (s.setPort p x).setPort p y = s.setPort p y := by
  cases p <;> rfl
@[simp] theorem State.setPort_self (s : State) (p : PortId) : s.setPort p (s.port p) = s := by
  cases p <;> rfl
@[simp] theorem State.setPort_V_portV (s : State) (x : PortState) : (s.setPort .V x).portV = x := rfl
@[simp] theorem State.setPort_V_portP (s : State) (x : PortState) : (s.setPort .V x).portP = s.portP := rfl
@[simp] theorem State.setPort_V_portF (s : State) (x : PortState) : (s.setPort .V x).portF = s.portF := rfl
@[simp] theorem State.setPort_P_portV (s : State) (x : PortState) : (s.setPort .P x).portV = s.portV := rfl
@[simp] theorem State.setPort_P_portP (s : State) (x : PortState) : (s.setPort .P x).portP = x := rfl
@[simp] theorem State.setPort_P_portF (s : State) (x : PortState) : (s.setPort .P x).portF = s.portF := rfl
@[simp] theorem State.setPort_F_portV (s : State) (x : PortState) : (s.setPort .F x).portV = s.portV := rfl
@[simp] theorem State.setPort_F_portP (s : State) (x : PortState) : (s.setPort .F x).portP = s.portP := rfl
@[simp] theorem State.setPort_F_portF (s : State) (x : PortState) : (s.setPort .F x).portF = x := rfl

end Sys2Proof.Machine
end

