-- ==== Sys2Proof/Laws/Notices.lean ====
section
/-! SUPPORT. Laws/Notices.lean: what a raised kind does to the ports (R175, R177), said once: it moves nothing but the notices,
and no pending kind is lost. -/

namespace Sys2Proof.Machine

/-! ## One port -/

theorem NoticesOnly.refl (x : PortState) : NoticesOnly x x := rfl

theorem NoticesOnly.trans {x y z : PortState} (h : NoticesOnly x y) (g : NoticesOnly y z) : NoticesOnly x z := by
  unfold NoticesOnly at *
  rw [g, h]

theorem NoticesOnly.mask {x y : PortState} (h : NoticesOnly x y) : y.mask = x.mask := by rw [h]
theorem NoticesOnly.resetAsserted {x y : PortState} (h : NoticesOnly x y) : y.resetAsserted = x.resetAsserted := by rw [h]
theorem NoticesOnly.lineMode {x y : PortState} (h : NoticesOnly x y) : y.lineMode = x.lineMode := by rw [h]
theorem NoticesOnly.lastStatus {x y : PortState} (h : NoticesOnly x y) : y.lastStatus = x.lastStatus := by rw [h]

theorem NoticesOnly.takes {x y : PortState} (h : NoticesOnly x y) (k : Notice) : Takes k y ↔ Takes k x := by
  unfold Takes; rw [h.mask, h.resetAsserted]

theorem Notice.index_lt (k : Notice) : k.index < 16 := by cases k <;> decide

theorem Notice.bit_getLsbD (k : Notice) (i : Nat) (h : i < 16) : k.bit.getLsbD i = decide (i = k.index) := by
  have := k.index_lt
  simp only [Notice.bit, BitVec.getLsbD_shiftLeft, BitVec.getLsbD_one]
  by_cases hi : i = k.index
  · simp [hi, this]
  · simp [hi, h]; omega

theorem PortState.withSet_noticesOnly (pt : PortState) (w : Word) : NoticesOnly pt (pt.withSet w) := by
  unfold PortState.withSet; split <;> rfl

theorem PortState.withSet_pending (pt : PortState) (w : Word) : (pt.withSet w).pending = w := by
  unfold PortState.withSet; split <;> rfl

theorem PortState.join_noticesOnly (pt : PortState) (k : Notice) : NoticesOnly pt (pt.join k) := by
  unfold PortState.join
  split
  · exact .refl pt
  · split
    · exact pt.withSet_noticesOnly _
    · unfold PortState.withSet; split <;> rfl

/-- The kind joins the set, and every other kind stays as it was. -/
theorem PortState.join_pending (pt : PortState) (k : Notice) (i : Nat) (h : i < 16) :
    flag (pt.join k).pending i = (flag pt.pending i || decide (i = k.index)) := by
  unfold PortState.join PortState.holds
  split
  · rename_i hk
    by_cases hi : i = k.index <;> simp [hi, hk]
  · split <;> simp only [PortState.withSet_pending, flag, BitVec.getLsbD_or, k.bit_getLsbD i h]

theorem PortState.join_told (pt : PortState) (k : Notice) : Told k (pt.join k) := by
  unfold Told PortState.holds
  simp [PortState.join_pending _ _ _ k.index_lt]

theorem PortState.join_keeps_told (pt : PortState) (j k : Notice) (h : Told k pt) : Told k (pt.join j) := by
  unfold Told PortState.holds at *
  simp [PortState.join_pending _ _ _ k.index_lt, h]

theorem PortState.offer_noticesOnly (pt : PortState) (k : Notice) : NoticesOnly pt (pt.offer k) := by
  unfold PortState.offer; split
  · exact .refl pt
  · exact pt.join_noticesOnly k

theorem PortState.offer_of_not_takes (pt : PortState) (k : Notice) (h : ¬ Takes k pt) : pt.offer k = pt := by
  unfold PortState.offer
  rw [if_pos]
  unfold Takes at h
  by_cases hr : pt.resetAsserted = true <;> simp_all

theorem PortState.offer_of_takes (pt : PortState) (k : Notice) (h : Takes k pt) : pt.offer k = pt.join k := by
  unfold PortState.offer
  rw [if_neg]
  simp [h.1, h.2]

theorem PortState.offer_keeps_told (pt : PortState) (j k : Notice) (h : Told k pt) : Told k (pt.offer j) := by
  unfold PortState.offer; split
  · exact h
  · exact pt.join_keeps_told j k h

theorem PortState.withSet_lineSafe (pt : PortState) (w : Word) (hr : pt.resetAsserted = false)
    (h : pt.LineSafe) : (pt.withSet w).LineSafe := by
  unfold PortState.withSet
  split
  · rename_i hm
    exact ⟨fun _ => ⟨rfl, (h.1 hm).2⟩, fun hx => absurd hx (by simp [hr])⟩
  · rename_i hm
    exact ⟨fun hx => absurd hx (by simp [hm]), fun hx => absurd hx (by simp [hr])⟩

theorem PortState.join_lineSafe (pt : PortState) (k : Notice) (hr : pt.resetAsserted = false) (h : pt.LineSafe) :
    (pt.join k).LineSafe := by
  unfold PortState.join
  split
  · exact h
  · split
    · exact pt.withSet_lineSafe _ hr h
    · rename_i hm
      unfold PortState.withSet PortState.LineSafe
      simp [hm, hr]

theorem PortState.offer_lineSafe (pt : PortState) (k : Notice) (h : pt.LineSafe) : (pt.offer k).LineSafe := by
  by_cases ht : Takes k pt
  · rw [pt.offer_of_takes k ht]; exact pt.join_lineSafe k ht.1 h
  · rw [pt.offer_of_not_takes k ht]; exact h

/-! ## The three ports: notices only grow -/

/-- From s to t every port moved in its notices alone, no kind left a set, and the lines still follow the sets. -/
def Grows (s t : State) : Prop :=
  ∀ p, NoticesOnly (s.port p) (t.port p) ∧ (∀ k, Told k (s.port p) → Told k (t.port p))
    ∧ ((s.port p).LineSafe → (t.port p).LineSafe)

theorem Grows.refl (s : State) : Grows s s := fun _ => ⟨.refl _, fun _ h => h, id⟩

theorem Grows.trans {s t u : State} (h : Grows s t) (g : Grows t u) : Grows s u :=
  fun p => ⟨(h p).1.trans (g p).1, fun k hk => (g p).2.1 k ((h p).2.1 k hk), fun hl => (g p).2.2 ((h p).2.2 hl)⟩

theorem Grows.of_eq {s t : State} (h : ∀ p, t.port p = s.port p) : Grows s t :=
  fun p => h p ▸ ⟨.refl _, fun _ k => k, id⟩

theorem LinesSafe.iff_ports (s : State) : LinesSafe s ↔ ∀ p, (s.port p).LineSafe :=
  ⟨fun h p => by cases p; exacts [h.1, h.2.1, h.2.2], fun h => ⟨h .V, h .P, h .F⟩⟩

theorem Grows.linesSafe {s t : State} (h : Grows s t) (hl : LinesSafe s) : LinesSafe t :=
  (LinesSafe.iff_ports t).2 fun p => (h p).2.2 ((LinesSafe.iff_ports s).1 hl p)

theorem Grows.portsKept {s t : State} (h : Grows s t) : PortsKeptButNotices s t :=
  ⟨(h .V).1, (h .P).1, (h .F).1⟩

theorem Grows.takes {s t : State} (h : Grows s t) (p : PortId) (k : Notice) : Takes k (t.port p) ↔ Takes k (s.port p) :=
  (h p).1.takes k

/-- A kind that every port was told stays told. -/
theorem ToldAll.grow {k : Notice} {s t u : State} (h : ToldAll k s t) (g : Grows t u) : ToldAll k s u :=
  fun p hp => (g p).2.1 k (h p hp)

/-- What ports are told after a growth from s, they were told from s. -/
theorem ToldAll.after {k : Notice} {s t u : State} (g : Grows s t) (h : ToldAll k t u) : ToldAll k s u :=
  fun p hp => h p ((g.takes p k).2 hp)

/-! ## Raising -/

theorem raise_port (k : Notice) (s : State) (p : PortId) : (raise k s).port p = (s.port p).offer k := by
  cases p <;> rfl

theorem raise_grows (k : Notice) (s : State) : Grows s (raise k s) := by
  intro p
  rw [raise_port]
  exact ⟨PortState.offer_noticesOnly _ k, fun j h => PortState.offer_keeps_told _ k j h, PortState.offer_lineSafe _ k⟩

theorem raise_toldAll (k : Notice) (s : State) : ToldAll k s (raise k s) := by
  intro p hp
  rw [raise_port, PortState.offer_of_takes _ k hp]
  exact PortState.join_told _ k

/-- Raising moves nothing but the ports. -/
@[simp] theorem raise_keeps (k : Notice) (s : State) :
    (raise k s).powered = s.powered ∧ (raise k s).threePhases = s.threePhases ∧ (raise k s).commission = s.commission
      ∧ (raise k s).plan = s.plan ∧ (raise k s).planDefaults = s.planDefaults ∧ (raise k s).recordBuffer = s.recordBuffer
      ∧ (raise k s).imageBuffer = s.imageBuffer ∧ (raise k s).ses = s.ses ∧ (raise k s).sup = s.sup
      ∧ (raise k s).alc = s.alc ∧ (raise k s).htr = s.htr ∧ (raise k s).iso = s.iso ∧ (raise k s).mtr = s.mtr
      ∧ (raise k s).rst = s.rst ∧ (raise k s).nv = s.nv ∧ (raise k s).free = s.free ∧ (raise k s).pending = s.pending :=
  ⟨rfl, rfl, rfl, rfl, rfl, rfl, rfl, rfl, rfl, rfl, rfl, rfl, rfl, rfl, rfl, rfl, rfl⟩

@[simp] theorem raise_entry (k : Notice) (s : State) (n : Fin 53) : (raise k s).entry n = s.entry n := rfl
@[simp] theorem raise_zone (k : Notice) (s : State) (z : Fin 8) : (raise k s).zone z = s.zone z := rfl

@[simp] theorem raiseIf_true (k : Notice) (s : State) : raiseIf true k s = raise k s := rfl
@[simp] theorem raiseIf_false (k : Notice) (s : State) : raiseIf false k s = s := rfl

theorem raiseIf_grows (b : Bool) (k : Notice) (s : State) : Grows s (raiseIf b k s) := by
  cases b
  · exact .refl s
  · exact raise_grows k s

@[simp] theorem raiseIf_keeps (b : Bool) (k : Notice) (s : State) :
    (raiseIf b k s).powered = s.powered ∧ (raiseIf b k s).threePhases = s.threePhases
      ∧ (raiseIf b k s).commission = s.commission ∧ (raiseIf b k s).plan = s.plan
      ∧ (raiseIf b k s).planDefaults = s.planDefaults ∧ (raiseIf b k s).recordBuffer = s.recordBuffer
      ∧ (raiseIf b k s).imageBuffer = s.imageBuffer ∧ (raiseIf b k s).ses = s.ses ∧ (raiseIf b k s).sup = s.sup
      ∧ (raiseIf b k s).alc = s.alc ∧ (raiseIf b k s).htr = s.htr ∧ (raiseIf b k s).iso = s.iso
      ∧ (raiseIf b k s).mtr = s.mtr ∧ (raiseIf b k s).rst = s.rst ∧ (raiseIf b k s).nv = s.nv
      ∧ (raiseIf b k s).free = s.free ∧ (raiseIf b k s).pending = s.pending
      ∧ (∀ i, (raiseIf b k s).entry i = s.entry i) ∧ ∀ i, (raiseIf b k s).zone i = s.zone i := by
  cases b <;> simp

end Sys2Proof.Machine
end

