-- ==== Sys2Proof/Laws/Keeps.lean ====
section
/-! SUPPORT. Laws/Keeps.lean: what each shared operation and each event leaves alone, one lemma per operation: the fields of State it
never touches. -/

namespace Sys2Proof.Machine

/-! ## Ops and Plan -/

@[simp] theorem evalDemand_keeps (s : State) :
    (evalDemand s).powered = s.powered ∧ (evalDemand s).threePhases = s.threePhases
      ∧ (evalDemand s).commission = s.commission ∧ (evalDemand s).plan = s.plan
      ∧ (evalDemand s).planDefaults = s.planDefaults ∧ (evalDemand s).recordBuffer = s.recordBuffer
      ∧ (evalDemand s).imageBuffer = s.imageBuffer ∧ (evalDemand s).ses = s.ses ∧ (evalDemand s).alc = s.alc
      ∧ (evalDemand s).htr = s.htr ∧ (evalDemand s).iso = s.iso ∧ (evalDemand s).mtr = s.mtr
      ∧ (evalDemand s).rst = s.rst ∧ (evalDemand s).nv = s.nv ∧ (evalDemand s).free = s.free
      ∧ (evalDemand s).pending = s.pending ∧ (evalDemand s).portV = s.portV ∧ (evalDemand s).portP = s.portP
      ∧ (evalDemand s).portF = s.portF ∧ (∀ p, (evalDemand s).port p = s.port p)
      ∧ (∀ i, (evalDemand s).entry i = s.entry i) ∧ (∀ i, (evalDemand s).zone i = s.zone i) := by
  simp [evalDemand]

@[simp] theorem watchRecord_keeps (s : State) :
    (watchRecord s).powered = s.powered ∧ (watchRecord s).threePhases = s.threePhases
      ∧ (watchRecord s).commission = s.commission ∧ (watchRecord s).plan = s.plan
      ∧ (watchRecord s).planDefaults = s.planDefaults ∧ (watchRecord s).recordBuffer = s.recordBuffer
      ∧ (watchRecord s).imageBuffer = s.imageBuffer ∧ (watchRecord s).ses = s.ses ∧ (watchRecord s).alc = s.alc
      ∧ (watchRecord s).htr = s.htr ∧ (watchRecord s).iso = s.iso ∧ (watchRecord s).mtr = s.mtr
      ∧ (watchRecord s).rst = s.rst ∧ (watchRecord s).nv = s.nv ∧ (watchRecord s).free = s.free
      ∧ (watchRecord s).pending = s.pending ∧ (watchRecord s).portV = s.portV ∧ (watchRecord s).portP = s.portP
      ∧ (watchRecord s).portF = s.portF ∧ (∀ p, (watchRecord s).port p = s.port p)
      ∧ (∀ i, (watchRecord s).entry i = s.entry i) ∧ (∀ i, (watchRecord s).zone i = s.zone i) := by
  unfold watchRecord; dsimp only; (repeat' split) <;> simp

@[simp] theorem stageFaultWith_keeps (c : StageCause) (s : State) :
    (stageFaultWith c s).powered = s.powered ∧ (stageFaultWith c s).threePhases = s.threePhases
      ∧ (stageFaultWith c s).commission = s.commission ∧ (stageFaultWith c s).plan = s.plan
      ∧ (stageFaultWith c s).planDefaults = s.planDefaults ∧ (stageFaultWith c s).recordBuffer = s.recordBuffer
      ∧ (stageFaultWith c s).imageBuffer = s.imageBuffer ∧ (stageFaultWith c s).ses = s.ses
      ∧ (stageFaultWith c s).sup = s.sup ∧ (stageFaultWith c s).htr = s.htr ∧ (stageFaultWith c s).iso = s.iso
      ∧ (stageFaultWith c s).mtr = s.mtr ∧ (stageFaultWith c s).rst = s.rst ∧ (stageFaultWith c s).nv = s.nv
      ∧ (stageFaultWith c s).free = s.free ∧ (stageFaultWith c s).pending = s.pending
      ∧ (∀ i, (stageFaultWith c s).entry i = s.entry i) ∧ (∀ i, (stageFaultWith c s).zone i = s.zone i) := by
  simp [stageFaultWith]

@[simp] theorem immediateOff_keeps (s : State) :
    (immediateOff s).powered = s.powered ∧ (immediateOff s).threePhases = s.threePhases
      ∧ (immediateOff s).commission = s.commission ∧ (immediateOff s).plan = s.plan
      ∧ (immediateOff s).planDefaults = s.planDefaults ∧ (immediateOff s).recordBuffer = s.recordBuffer
      ∧ (immediateOff s).imageBuffer = s.imageBuffer ∧ (immediateOff s).ses = s.ses ∧ (immediateOff s).sup = s.sup
      ∧ (immediateOff s).htr = s.htr ∧ (immediateOff s).iso = s.iso ∧ (immediateOff s).mtr = s.mtr
      ∧ (immediateOff s).rst = s.rst ∧ (immediateOff s).nv = s.nv ∧ (immediateOff s).free = s.free
      ∧ (immediateOff s).pending = s.pending ∧ (immediateOff s).portV = s.portV ∧ (immediateOff s).portP = s.portP
      ∧ (immediateOff s).portF = s.portF ∧ (∀ p, (immediateOff s).port p = s.port p)
      ∧ (∀ i, (immediateOff s).entry i = s.entry i) ∧ (∀ i, (immediateOff s).zone i = s.zone i) := by
  simp [immediateOff]

@[simp] theorem markHoldWithdrawn_keeps (s : State) :
    (markHoldWithdrawn s).powered = s.powered ∧ (markHoldWithdrawn s).threePhases = s.threePhases
      ∧ (markHoldWithdrawn s).commission = s.commission ∧ (markHoldWithdrawn s).plan = s.plan
      ∧ (markHoldWithdrawn s).planDefaults = s.planDefaults ∧ (markHoldWithdrawn s).recordBuffer = s.recordBuffer
      ∧ (markHoldWithdrawn s).imageBuffer = s.imageBuffer ∧ (markHoldWithdrawn s).sup = s.sup
      ∧ (markHoldWithdrawn s).alc = s.alc ∧ (markHoldWithdrawn s).htr = s.htr ∧ (markHoldWithdrawn s).iso = s.iso
      ∧ (markHoldWithdrawn s).mtr = s.mtr ∧ (markHoldWithdrawn s).rst = s.rst ∧ (markHoldWithdrawn s).nv = s.nv
      ∧ (markHoldWithdrawn s).free = s.free ∧ (markHoldWithdrawn s).pending = s.pending
      ∧ (markHoldWithdrawn s).portV = s.portV ∧ (markHoldWithdrawn s).portP = s.portP
      ∧ (markHoldWithdrawn s).portF = s.portF ∧ (∀ p, (markHoldWithdrawn s).port p = s.port p)
      ∧ (∀ i, (markHoldWithdrawn s).entry i = s.entry i) ∧ (∀ i, (markHoldWithdrawn s).zone i = s.zone i) := by
  unfold markHoldWithdrawn; split <;> simp

@[simp] theorem dropHold_keeps (s : State) :
    (dropHold s).powered = s.powered ∧ (dropHold s).threePhases = s.threePhases
      ∧ (dropHold s).commission = s.commission ∧ (dropHold s).plan = s.plan
      ∧ (dropHold s).planDefaults = s.planDefaults ∧ (dropHold s).recordBuffer = s.recordBuffer
      ∧ (dropHold s).imageBuffer = s.imageBuffer ∧ (dropHold s).ses = s.ses ∧ (dropHold s).sup = s.sup
      ∧ (dropHold s).htr = s.htr ∧ (dropHold s).iso = s.iso ∧ (dropHold s).mtr = s.mtr ∧ (dropHold s).rst = s.rst
      ∧ (dropHold s).nv = s.nv ∧ (dropHold s).free = s.free ∧ (dropHold s).pending = s.pending
      ∧ (dropHold s).portV = s.portV ∧ (dropHold s).portP = s.portP ∧ (dropHold s).portF = s.portF
      ∧ (∀ p, (dropHold s).port p = s.port p) ∧ (∀ i, (dropHold s).entry i = s.entry i)
      ∧ (∀ i, (dropHold s).zone i = s.zone i) := by
  simp [dropHold]

@[simp] theorem dropHoldWithNotice_keeps (s : State) :
    (dropHoldWithNotice s).powered = s.powered ∧ (dropHoldWithNotice s).threePhases = s.threePhases
      ∧ (dropHoldWithNotice s).commission = s.commission ∧ (dropHoldWithNotice s).plan = s.plan
      ∧ (dropHoldWithNotice s).planDefaults = s.planDefaults ∧ (dropHoldWithNotice s).recordBuffer = s.recordBuffer
      ∧ (dropHoldWithNotice s).imageBuffer = s.imageBuffer ∧ (dropHoldWithNotice s).ses = s.ses
      ∧ (dropHoldWithNotice s).sup = s.sup ∧ (dropHoldWithNotice s).htr = s.htr ∧ (dropHoldWithNotice s).iso = s.iso
      ∧ (dropHoldWithNotice s).mtr = s.mtr ∧ (dropHoldWithNotice s).rst = s.rst ∧ (dropHoldWithNotice s).nv = s.nv
      ∧ (dropHoldWithNotice s).free = s.free ∧ (dropHoldWithNotice s).pending = s.pending
      ∧ (∀ i, (dropHoldWithNotice s).entry i = s.entry i) ∧ (∀ i, (dropHoldWithNotice s).zone i = s.zone i) := by
  unfold dropHoldWithNotice; split <;> simp

@[simp] theorem endHoldByGrade_keeps (s : State) :
    (endHoldByGrade s).powered = s.powered ∧ (endHoldByGrade s).threePhases = s.threePhases
      ∧ (endHoldByGrade s).commission = s.commission ∧ (endHoldByGrade s).plan = s.plan
      ∧ (endHoldByGrade s).planDefaults = s.planDefaults ∧ (endHoldByGrade s).recordBuffer = s.recordBuffer
      ∧ (endHoldByGrade s).imageBuffer = s.imageBuffer ∧ (endHoldByGrade s).sup = s.sup
      ∧ (endHoldByGrade s).htr = s.htr ∧ (endHoldByGrade s).iso = s.iso ∧ (endHoldByGrade s).mtr = s.mtr
      ∧ (endHoldByGrade s).rst = s.rst ∧ (endHoldByGrade s).nv = s.nv ∧ (endHoldByGrade s).free = s.free
      ∧ (endHoldByGrade s).pending = s.pending ∧ (∀ i, (endHoldByGrade s).entry i = s.entry i)
      ∧ (∀ i, (endHoldByGrade s).zone i = s.zone i) := by
  unfold endHoldByGrade; split <;> simp

@[simp] theorem suspendHold_keeps (s : State) :
    (suspendHold s).powered = s.powered ∧ (suspendHold s).threePhases = s.threePhases
      ∧ (suspendHold s).commission = s.commission ∧ (suspendHold s).plan = s.plan
      ∧ (suspendHold s).planDefaults = s.planDefaults ∧ (suspendHold s).recordBuffer = s.recordBuffer
      ∧ (suspendHold s).imageBuffer = s.imageBuffer ∧ (suspendHold s).sup = s.sup ∧ (suspendHold s).htr = s.htr
      ∧ (suspendHold s).iso = s.iso ∧ (suspendHold s).mtr = s.mtr ∧ (suspendHold s).rst = s.rst
      ∧ (suspendHold s).nv = s.nv ∧ (suspendHold s).free = s.free ∧ (suspendHold s).pending = s.pending
      ∧ (∀ i, (suspendHold s).entry i = s.entry i) ∧ (∀ i, (suspendHold s).zone i = s.zone i) := by
  unfold suspendHold; split <;> simp

@[simp] theorem restoreHold_keeps (s : State) :
    (restoreHold s).powered = s.powered ∧ (restoreHold s).threePhases = s.threePhases
      ∧ (restoreHold s).commission = s.commission ∧ (restoreHold s).plan = s.plan
      ∧ (restoreHold s).planDefaults = s.planDefaults ∧ (restoreHold s).recordBuffer = s.recordBuffer
      ∧ (restoreHold s).imageBuffer = s.imageBuffer ∧ (restoreHold s).ses = s.ses ∧ (restoreHold s).sup = s.sup
      ∧ (restoreHold s).htr = s.htr ∧ (restoreHold s).iso = s.iso ∧ (restoreHold s).mtr = s.mtr
      ∧ (restoreHold s).rst = s.rst ∧ (restoreHold s).nv = s.nv ∧ (restoreHold s).free = s.free
      ∧ (restoreHold s).pending = s.pending ∧ (∀ i, (restoreHold s).entry i = s.entry i)
      ∧ (∀ i, (restoreHold s).zone i = s.zone i) := by
  unfold restoreHold; (repeat' split) <;> simp

@[simp] theorem endRest_keeps (s : State) :
    (endRest s).powered = s.powered ∧ (endRest s).threePhases = s.threePhases ∧ (endRest s).commission = s.commission
      ∧ (endRest s).plan = s.plan ∧ (endRest s).planDefaults = s.planDefaults
      ∧ (endRest s).recordBuffer = s.recordBuffer ∧ (endRest s).imageBuffer = s.imageBuffer ∧ (endRest s).ses = s.ses
      ∧ (endRest s).sup = s.sup ∧ (endRest s).htr = s.htr ∧ (endRest s).iso = s.iso ∧ (endRest s).mtr = s.mtr
      ∧ (endRest s).rst = s.rst ∧ (endRest s).nv = s.nv ∧ (endRest s).free = s.free ∧ (endRest s).pending = s.pending
      ∧ (endRest s).portV = s.portV ∧ (endRest s).portP = s.portP ∧ (endRest s).portF = s.portF
      ∧ (∀ p, (endRest s).port p = s.port p) ∧ (∀ i, (endRest s).entry i = s.entry i)
      ∧ (∀ i, (endRest s).zone i = s.zone i) := by
  simp [endRest]

@[simp] theorem endRestWithNotice_keeps (s : State) :
    (endRestWithNotice s).powered = s.powered ∧ (endRestWithNotice s).threePhases = s.threePhases
      ∧ (endRestWithNotice s).commission = s.commission ∧ (endRestWithNotice s).plan = s.plan
      ∧ (endRestWithNotice s).planDefaults = s.planDefaults ∧ (endRestWithNotice s).recordBuffer = s.recordBuffer
      ∧ (endRestWithNotice s).imageBuffer = s.imageBuffer ∧ (endRestWithNotice s).ses = s.ses
      ∧ (endRestWithNotice s).sup = s.sup ∧ (endRestWithNotice s).htr = s.htr ∧ (endRestWithNotice s).iso = s.iso
      ∧ (endRestWithNotice s).mtr = s.mtr ∧ (endRestWithNotice s).rst = s.rst ∧ (endRestWithNotice s).nv = s.nv
      ∧ (endRestWithNotice s).free = s.free ∧ (endRestWithNotice s).pending = s.pending
      ∧ (∀ i, (endRestWithNotice s).entry i = s.entry i) ∧ (∀ i, (endRestWithNotice s).zone i = s.zone i) := by
  unfold endRestWithNotice; split <;> simp

@[simp] theorem restoreDefaults_keeps (s : State) :
    (restoreDefaults s).powered = s.powered ∧ (restoreDefaults s).threePhases = s.threePhases
      ∧ (restoreDefaults s).commission = s.commission ∧ (restoreDefaults s).planDefaults = s.planDefaults
      ∧ (restoreDefaults s).recordBuffer = s.recordBuffer ∧ (restoreDefaults s).imageBuffer = s.imageBuffer
      ∧ (restoreDefaults s).ses = s.ses ∧ (restoreDefaults s).sup = s.sup ∧ (restoreDefaults s).alc = s.alc
      ∧ (restoreDefaults s).htr = s.htr ∧ (restoreDefaults s).iso = s.iso ∧ (restoreDefaults s).mtr = s.mtr
      ∧ (restoreDefaults s).rst = s.rst ∧ (restoreDefaults s).nv = s.nv ∧ (restoreDefaults s).free = s.free
      ∧ (restoreDefaults s).pending = s.pending ∧ (restoreDefaults s).portV = s.portV
      ∧ (restoreDefaults s).portP = s.portP ∧ (restoreDefaults s).portF = s.portF
      ∧ (∀ p, (restoreDefaults s).port p = s.port p) ∧ (∀ i, (restoreDefaults s).zone i = s.zone i) := by
  simp [restoreDefaults]

@[simp] theorem scopedRestore_keeps (s : State) :
    (scopedRestore s).powered = s.powered ∧ (scopedRestore s).threePhases = s.threePhases
      ∧ (scopedRestore s).commission = s.commission ∧ (scopedRestore s).planDefaults = s.planDefaults
      ∧ (scopedRestore s).recordBuffer = s.recordBuffer ∧ (scopedRestore s).imageBuffer = s.imageBuffer
      ∧ (scopedRestore s).ses = s.ses ∧ (scopedRestore s).sup = s.sup ∧ (scopedRestore s).alc = s.alc
      ∧ (scopedRestore s).htr = s.htr ∧ (scopedRestore s).iso = s.iso ∧ (scopedRestore s).mtr = s.mtr
      ∧ (scopedRestore s).rst = s.rst ∧ (scopedRestore s).nv = s.nv ∧ (scopedRestore s).free = s.free
      ∧ (scopedRestore s).pending = s.pending ∧ (scopedRestore s).portV = s.portV ∧ (scopedRestore s).portP = s.portP
      ∧ (scopedRestore s).portF = s.portF ∧ (∀ p, (scopedRestore s).port p = s.port p)
      ∧ (∀ i, (scopedRestore s).zone i = s.zone i) := by
  unfold scopedRestore; split <;> simp

@[simp] theorem storeEntry_keeps (n : Fin 53) (e : Entry) (s : State) :
    (storeEntry n e s).powered = s.powered ∧ (storeEntry n e s).threePhases = s.threePhases
      ∧ (storeEntry n e s).commission = s.commission ∧ (storeEntry n e s).planDefaults = s.planDefaults
      ∧ (storeEntry n e s).recordBuffer = s.recordBuffer ∧ (storeEntry n e s).imageBuffer = s.imageBuffer
      ∧ (storeEntry n e s).ses = s.ses ∧ (storeEntry n e s).sup = s.sup ∧ (storeEntry n e s).alc = s.alc
      ∧ (storeEntry n e s).htr = s.htr ∧ (storeEntry n e s).iso = s.iso ∧ (storeEntry n e s).mtr = s.mtr
      ∧ (storeEntry n e s).rst = s.rst ∧ (storeEntry n e s).nv = s.nv ∧ (storeEntry n e s).free = s.free
      ∧ (storeEntry n e s).pending = s.pending ∧ (storeEntry n e s).portV = s.portV
      ∧ (storeEntry n e s).portP = s.portP ∧ (storeEntry n e s).portF = s.portF
      ∧ (∀ p, (storeEntry n e s).port p = s.port p) ∧ (∀ i, (storeEntry n e s).zone i = s.zone i) := by
  simp [storeEntry]

/-! ## Store -/

@[simp] theorem startCheckpoint_keeps (c : Checkpoint) (s : State) :
    (startCheckpoint c s).powered = s.powered ∧ (startCheckpoint c s).threePhases = s.threePhases
      ∧ (startCheckpoint c s).commission = s.commission ∧ (startCheckpoint c s).plan = s.plan
      ∧ (startCheckpoint c s).planDefaults = s.planDefaults ∧ (startCheckpoint c s).recordBuffer = s.recordBuffer
      ∧ (startCheckpoint c s).imageBuffer = s.imageBuffer ∧ (startCheckpoint c s).ses = s.ses
      ∧ (startCheckpoint c s).sup = s.sup ∧ (startCheckpoint c s).alc = s.alc ∧ (startCheckpoint c s).htr = s.htr
      ∧ (startCheckpoint c s).iso = s.iso ∧ (startCheckpoint c s).mtr = s.mtr ∧ (startCheckpoint c s).free = s.free
      ∧ (startCheckpoint c s).pending = s.pending ∧ (startCheckpoint c s).portV = s.portV
      ∧ (startCheckpoint c s).portP = s.portP ∧ (startCheckpoint c s).portF = s.portF
      ∧ (∀ p, (startCheckpoint c s).port p = s.port p) ∧ (∀ i, (startCheckpoint c s).entry i = s.entry i)
      ∧ (∀ i, (startCheckpoint c s).zone i = s.zone i) := by
  simp [startCheckpoint]

@[simp] theorem checkpointRequest_keeps (c : Checkpoint) (s : State) :
    (checkpointRequest c s).powered = s.powered ∧ (checkpointRequest c s).threePhases = s.threePhases
      ∧ (checkpointRequest c s).commission = s.commission ∧ (checkpointRequest c s).plan = s.plan
      ∧ (checkpointRequest c s).planDefaults = s.planDefaults ∧ (checkpointRequest c s).recordBuffer = s.recordBuffer
      ∧ (checkpointRequest c s).imageBuffer = s.imageBuffer ∧ (checkpointRequest c s).ses = s.ses
      ∧ (checkpointRequest c s).sup = s.sup ∧ (checkpointRequest c s).alc = s.alc
      ∧ (checkpointRequest c s).htr = s.htr ∧ (checkpointRequest c s).iso = s.iso
      ∧ (checkpointRequest c s).mtr = s.mtr ∧ (checkpointRequest c s).free = s.free
      ∧ (checkpointRequest c s).pending = s.pending ∧ (checkpointRequest c s).portV = s.portV
      ∧ (checkpointRequest c s).portP = s.portP ∧ (checkpointRequest c s).portF = s.portF
      ∧ (∀ p, (checkpointRequest c s).port p = s.port p) ∧ (∀ i, (checkpointRequest c s).entry i = s.entry i)
      ∧ (∀ i, (checkpointRequest c s).zone i = s.zone i) := by
  unfold checkpointRequest; (repeat' split) <;> simp

@[simp] theorem handoverFinal_keeps (n : Word32) (ws : List Word) (s : State) :
    (handoverFinal n ws s).powered = s.powered ∧ (handoverFinal n ws s).threePhases = s.threePhases
      ∧ (handoverFinal n ws s).commission = s.commission ∧ (handoverFinal n ws s).plan = s.plan
      ∧ (handoverFinal n ws s).planDefaults = s.planDefaults ∧ (handoverFinal n ws s).recordBuffer = s.recordBuffer
      ∧ (handoverFinal n ws s).imageBuffer = s.imageBuffer ∧ (handoverFinal n ws s).ses = s.ses
      ∧ (handoverFinal n ws s).sup = s.sup ∧ (handoverFinal n ws s).alc = s.alc ∧ (handoverFinal n ws s).htr = s.htr
      ∧ (handoverFinal n ws s).iso = s.iso ∧ (handoverFinal n ws s).mtr = s.mtr ∧ (handoverFinal n ws s).nv = s.nv
      ∧ (handoverFinal n ws s).free = s.free ∧ (handoverFinal n ws s).pending = s.pending
      ∧ (handoverFinal n ws s).portV = s.portV ∧ (handoverFinal n ws s).portP = s.portP
      ∧ (handoverFinal n ws s).portF = s.portF ∧ (∀ p, (handoverFinal n ws s).port p = s.port p)
      ∧ (∀ i, (handoverFinal n ws s).entry i = s.entry i) ∧ (∀ i, (handoverFinal n ws s).zone i = s.zone i) := by
  unfold handoverFinal; split <;> simp

@[simp] theorem nextWrite_keeps (s : State) :
    (nextWrite s).powered = s.powered ∧ (nextWrite s).threePhases = s.threePhases
      ∧ (nextWrite s).commission = s.commission ∧ (nextWrite s).plan = s.plan
      ∧ (nextWrite s).planDefaults = s.planDefaults ∧ (nextWrite s).recordBuffer = s.recordBuffer
      ∧ (nextWrite s).imageBuffer = s.imageBuffer ∧ (nextWrite s).ses = s.ses ∧ (nextWrite s).sup = s.sup
      ∧ (nextWrite s).alc = s.alc ∧ (nextWrite s).htr = s.htr ∧ (nextWrite s).iso = s.iso ∧ (nextWrite s).mtr = s.mtr
      ∧ (nextWrite s).free = s.free ∧ (nextWrite s).pending = s.pending ∧ (nextWrite s).portV = s.portV
      ∧ (nextWrite s).portP = s.portP ∧ (nextWrite s).portF = s.portF ∧ (∀ p, (nextWrite s).port p = s.port p)
      ∧ (∀ i, (nextWrite s).entry i = s.entry i) ∧ (∀ i, (nextWrite s).zone i = s.zone i) := by
  unfold nextWrite; (repeat' split) <;> simp

@[simp] theorem raiseStoreLow_keeps (s : State) :
    (raiseStoreLow s).powered = s.powered ∧ (raiseStoreLow s).threePhases = s.threePhases
      ∧ (raiseStoreLow s).commission = s.commission ∧ (raiseStoreLow s).plan = s.plan
      ∧ (raiseStoreLow s).planDefaults = s.planDefaults ∧ (raiseStoreLow s).recordBuffer = s.recordBuffer
      ∧ (raiseStoreLow s).imageBuffer = s.imageBuffer ∧ (raiseStoreLow s).ses = s.ses ∧ (raiseStoreLow s).sup = s.sup
      ∧ (raiseStoreLow s).alc = s.alc ∧ (raiseStoreLow s).htr = s.htr ∧ (raiseStoreLow s).iso = s.iso
      ∧ (raiseStoreLow s).mtr = s.mtr ∧ (raiseStoreLow s).rst = s.rst ∧ (raiseStoreLow s).nv = s.nv
      ∧ (raiseStoreLow s).free = s.free ∧ (raiseStoreLow s).pending = s.pending
      ∧ (∀ i, (raiseStoreLow s).entry i = s.entry i) ∧ (∀ i, (raiseStoreLow s).zone i = s.zone i) := by
  simp [raiseStoreLow]

/-! ## Meter -/

@[simp] theorem bookSession_keeps (sh : Shares) (s : State) :
    (bookSession sh s).powered = s.powered ∧ (bookSession sh s).threePhases = s.threePhases
      ∧ (bookSession sh s).commission = s.commission ∧ (bookSession sh s).plan = s.plan
      ∧ (bookSession sh s).planDefaults = s.planDefaults ∧ (bookSession sh s).recordBuffer = s.recordBuffer
      ∧ (bookSession sh s).imageBuffer = s.imageBuffer ∧ (bookSession sh s).ses = s.ses
      ∧ (bookSession sh s).sup = s.sup ∧ (bookSession sh s).alc = s.alc ∧ (bookSession sh s).htr = s.htr
      ∧ (bookSession sh s).iso = s.iso ∧ (bookSession sh s).rst = s.rst ∧ (bookSession sh s).nv = s.nv
      ∧ (bookSession sh s).free = s.free ∧ (bookSession sh s).pending = s.pending ∧ (bookSession sh s).portV = s.portV
      ∧ (bookSession sh s).portP = s.portP ∧ (bookSession sh s).portF = s.portF
      ∧ (∀ p, (bookSession sh s).port p = s.port p) ∧ (∀ i, (bookSession sh s).entry i = s.entry i)
      ∧ (∀ i, (bookSession sh s).zone i = s.zone i) := by
  simp [bookSession]

@[simp] theorem bookUnassigned_keeps (e : Nat) (s : State) :
    (bookUnassigned e s).powered = s.powered ∧ (bookUnassigned e s).threePhases = s.threePhases
      ∧ (bookUnassigned e s).commission = s.commission ∧ (bookUnassigned e s).plan = s.plan
      ∧ (bookUnassigned e s).planDefaults = s.planDefaults ∧ (bookUnassigned e s).recordBuffer = s.recordBuffer
      ∧ (bookUnassigned e s).imageBuffer = s.imageBuffer ∧ (bookUnassigned e s).ses = s.ses
      ∧ (bookUnassigned e s).sup = s.sup ∧ (bookUnassigned e s).alc = s.alc ∧ (bookUnassigned e s).htr = s.htr
      ∧ (bookUnassigned e s).iso = s.iso ∧ (bookUnassigned e s).rst = s.rst ∧ (bookUnassigned e s).nv = s.nv
      ∧ (bookUnassigned e s).free = s.free ∧ (bookUnassigned e s).pending = s.pending
      ∧ (bookUnassigned e s).portV = s.portV ∧ (bookUnassigned e s).portP = s.portP
      ∧ (bookUnassigned e s).portF = s.portF ∧ (∀ p, (bookUnassigned e s).port p = s.port p)
      ∧ (∀ i, (bookUnassigned e s).entry i = s.entry i) ∧ (∀ i, (bookUnassigned e s).zone i = s.zone i) := by
  simp [bookUnassigned]

@[simp] theorem bookEnergy_keeps (e : Nat) (s : State) :
    (bookEnergy e s).powered = s.powered ∧ (bookEnergy e s).threePhases = s.threePhases
      ∧ (bookEnergy e s).commission = s.commission ∧ (bookEnergy e s).plan = s.plan
      ∧ (bookEnergy e s).planDefaults = s.planDefaults ∧ (bookEnergy e s).recordBuffer = s.recordBuffer
      ∧ (bookEnergy e s).imageBuffer = s.imageBuffer ∧ (bookEnergy e s).ses = s.ses ∧ (bookEnergy e s).sup = s.sup
      ∧ (bookEnergy e s).alc = s.alc ∧ (bookEnergy e s).htr = s.htr ∧ (bookEnergy e s).iso = s.iso
      ∧ (bookEnergy e s).rst = s.rst ∧ (bookEnergy e s).nv = s.nv ∧ (bookEnergy e s).free = s.free
      ∧ (bookEnergy e s).pending = s.pending ∧ (bookEnergy e s).portV = s.portV ∧ (bookEnergy e s).portP = s.portP
      ∧ (bookEnergy e s).portF = s.portF ∧ (∀ p, (bookEnergy e s).port p = s.port p)
      ∧ (∀ i, (bookEnergy e s).entry i = s.entry i) ∧ (∀ i, (bookEnergy e s).zone i = s.zone i) := by
  unfold bookEnergy; split <;> simp

@[simp] theorem askCheckpoint_keeps (s : State) :
    (askCheckpoint s).powered = s.powered ∧ (askCheckpoint s).threePhases = s.threePhases
      ∧ (askCheckpoint s).commission = s.commission ∧ (askCheckpoint s).plan = s.plan
      ∧ (askCheckpoint s).planDefaults = s.planDefaults ∧ (askCheckpoint s).recordBuffer = s.recordBuffer
      ∧ (askCheckpoint s).imageBuffer = s.imageBuffer ∧ (askCheckpoint s).ses = s.ses ∧ (askCheckpoint s).sup = s.sup
      ∧ (askCheckpoint s).alc = s.alc ∧ (askCheckpoint s).htr = s.htr ∧ (askCheckpoint s).iso = s.iso
      ∧ (askCheckpoint s).free = s.free ∧ (askCheckpoint s).pending = s.pending ∧ (askCheckpoint s).portV = s.portV
      ∧ (askCheckpoint s).portP = s.portP ∧ (askCheckpoint s).portF = s.portF
      ∧ (∀ p, (askCheckpoint s).port p = s.port p) ∧ (∀ i, (askCheckpoint s).entry i = s.entry i)
      ∧ (∀ i, (askCheckpoint s).zone i = s.zone i) := by
  simp [askCheckpoint]

@[simp] theorem markTimeUnknown_keeps (s : State) :
    (markTimeUnknown s).powered = s.powered ∧ (markTimeUnknown s).threePhases = s.threePhases
      ∧ (markTimeUnknown s).commission = s.commission ∧ (markTimeUnknown s).plan = s.plan
      ∧ (markTimeUnknown s).planDefaults = s.planDefaults ∧ (markTimeUnknown s).recordBuffer = s.recordBuffer
      ∧ (markTimeUnknown s).imageBuffer = s.imageBuffer ∧ (markTimeUnknown s).sup = s.sup
      ∧ (markTimeUnknown s).alc = s.alc ∧ (markTimeUnknown s).htr = s.htr ∧ (markTimeUnknown s).iso = s.iso
      ∧ (markTimeUnknown s).mtr = s.mtr ∧ (markTimeUnknown s).rst = s.rst ∧ (markTimeUnknown s).nv = s.nv
      ∧ (markTimeUnknown s).free = s.free ∧ (markTimeUnknown s).pending = s.pending
      ∧ (markTimeUnknown s).portV = s.portV ∧ (markTimeUnknown s).portP = s.portP
      ∧ (markTimeUnknown s).portF = s.portF ∧ (∀ p, (markTimeUnknown s).port p = s.port p)
      ∧ (∀ i, (markTimeUnknown s).entry i = s.entry i) ∧ (∀ i, (markTimeUnknown s).zone i = s.zone i) := by
  unfold markTimeUnknown; split <;> simp

@[simp] theorem adoptBand_keeps (s : State) :
    (adoptBand s).powered = s.powered ∧ (adoptBand s).threePhases = s.threePhases
      ∧ (adoptBand s).commission = s.commission ∧ (adoptBand s).plan = s.plan
      ∧ (adoptBand s).planDefaults = s.planDefaults ∧ (adoptBand s).recordBuffer = s.recordBuffer
      ∧ (adoptBand s).imageBuffer = s.imageBuffer ∧ (adoptBand s).ses = s.ses ∧ (adoptBand s).sup = s.sup
      ∧ (adoptBand s).alc = s.alc ∧ (adoptBand s).htr = s.htr ∧ (adoptBand s).iso = s.iso ∧ (adoptBand s).rst = s.rst
      ∧ (adoptBand s).nv = s.nv ∧ (adoptBand s).free = s.free ∧ (adoptBand s).pending = s.pending
      ∧ (adoptBand s).portV = s.portV ∧ (adoptBand s).portP = s.portP ∧ (adoptBand s).portF = s.portF
      ∧ (∀ p, (adoptBand s).port p = s.port p) ∧ (∀ i, (adoptBand s).entry i = s.entry i)
      ∧ (∀ i, (adoptBand s).zone i = s.zone i) := by
  simp [adoptBand]

@[simp] theorem evaluateBand_keeps (s : State) :
    (evaluateBand s).powered = s.powered ∧ (evaluateBand s).threePhases = s.threePhases
      ∧ (evaluateBand s).commission = s.commission ∧ (evaluateBand s).plan = s.plan
      ∧ (evaluateBand s).planDefaults = s.planDefaults ∧ (evaluateBand s).recordBuffer = s.recordBuffer
      ∧ (evaluateBand s).imageBuffer = s.imageBuffer ∧ (evaluateBand s).sup = s.sup ∧ (evaluateBand s).alc = s.alc
      ∧ (evaluateBand s).htr = s.htr ∧ (evaluateBand s).iso = s.iso ∧ (evaluateBand s).free = s.free
      ∧ (evaluateBand s).pending = s.pending ∧ (evaluateBand s).portV = s.portV ∧ (evaluateBand s).portP = s.portP
      ∧ (evaluateBand s).portF = s.portF ∧ (∀ p, (evaluateBand s).port p = s.port p)
      ∧ (∀ i, (evaluateBand s).entry i = s.entry i) ∧ (∀ i, (evaluateBand s).zone i = s.zone i) := by
  unfold evaluateBand; dsimp only; (repeat' split) <;> simp

@[simp] theorem slotBoundary_keeps (s : State) :
    (slotBoundary s).powered = s.powered ∧ (slotBoundary s).threePhases = s.threePhases
      ∧ (slotBoundary s).commission = s.commission ∧ (slotBoundary s).plan = s.plan
      ∧ (slotBoundary s).planDefaults = s.planDefaults ∧ (slotBoundary s).recordBuffer = s.recordBuffer
      ∧ (slotBoundary s).imageBuffer = s.imageBuffer ∧ (slotBoundary s).sup = s.sup ∧ (slotBoundary s).alc = s.alc
      ∧ (slotBoundary s).htr = s.htr ∧ (slotBoundary s).iso = s.iso ∧ (slotBoundary s).free = s.free
      ∧ (slotBoundary s).pending = s.pending ∧ (slotBoundary s).portV = s.portV ∧ (slotBoundary s).portP = s.portP
      ∧ (slotBoundary s).portF = s.portF ∧ (∀ p, (slotBoundary s).port p = s.port p)
      ∧ (∀ i, (slotBoundary s).entry i = s.entry i) ∧ (∀ i, (slotBoundary s).zone i = s.zone i) := by
  unfold slotBoundary; dsimp only; (repeat' split) <;> simp

@[simp] theorem advanceClock_keeps (s : State) :
    (advanceClock s).powered = s.powered ∧ (advanceClock s).threePhases = s.threePhases
      ∧ (advanceClock s).commission = s.commission ∧ (advanceClock s).plan = s.plan
      ∧ (advanceClock s).planDefaults = s.planDefaults ∧ (advanceClock s).recordBuffer = s.recordBuffer
      ∧ (advanceClock s).imageBuffer = s.imageBuffer ∧ (advanceClock s).sup = s.sup ∧ (advanceClock s).alc = s.alc
      ∧ (advanceClock s).htr = s.htr ∧ (advanceClock s).iso = s.iso ∧ (advanceClock s).free = s.free
      ∧ (advanceClock s).pending = s.pending ∧ (advanceClock s).portV = s.portV ∧ (advanceClock s).portP = s.portP
      ∧ (advanceClock s).portF = s.portF ∧ (∀ p, (advanceClock s).port p = s.port p)
      ∧ (∀ i, (advanceClock s).entry i = s.entry i) ∧ (∀ i, (advanceClock s).zone i = s.zone i) := by
  unfold advanceClock; (repeat' split) <;> simp

@[simp] theorem freeLock_keeps (s : State) :
    (freeLock s).powered = s.powered ∧ (freeLock s).threePhases = s.threePhases
      ∧ (freeLock s).commission = s.commission ∧ (freeLock s).plan = s.plan
      ∧ (freeLock s).planDefaults = s.planDefaults ∧ (freeLock s).recordBuffer = s.recordBuffer
      ∧ (freeLock s).imageBuffer = s.imageBuffer ∧ (freeLock s).ses = s.ses ∧ (freeLock s).sup = s.sup
      ∧ (freeLock s).alc = s.alc ∧ (freeLock s).htr = s.htr ∧ (freeLock s).iso = s.iso ∧ (freeLock s).rst = s.rst
      ∧ (freeLock s).nv = s.nv ∧ (freeLock s).free = s.free ∧ (freeLock s).pending = s.pending
      ∧ (freeLock s).portV = s.portV ∧ (freeLock s).portP = s.portP ∧ (freeLock s).portF = s.portF
      ∧ (∀ p, (freeLock s).port p = s.port p) ∧ (∀ i, (freeLock s).entry i = s.entry i)
      ∧ (∀ i, (freeLock s).zone i = s.zone i) := by
  simp [freeLock]

@[simp] theorem breakLock_keeps (s : State) :
    (breakLock s).powered = s.powered ∧ (breakLock s).threePhases = s.threePhases
      ∧ (breakLock s).commission = s.commission ∧ (breakLock s).plan = s.plan
      ∧ (breakLock s).planDefaults = s.planDefaults ∧ (breakLock s).recordBuffer = s.recordBuffer
      ∧ (breakLock s).imageBuffer = s.imageBuffer ∧ (breakLock s).sup = s.sup ∧ (breakLock s).alc = s.alc
      ∧ (breakLock s).htr = s.htr ∧ (breakLock s).iso = s.iso ∧ (breakLock s).free = s.free
      ∧ (breakLock s).pending = s.pending ∧ (∀ i, (breakLock s).entry i = s.entry i)
      ∧ (∀ i, (breakLock s).zone i = s.zone i) := by
  unfold breakLock; split <;> simp

@[simp] theorem updateSummary_keeps (r : IsoResult) (s : State) :
    (updateSummary r s).powered = s.powered ∧ (updateSummary r s).threePhases = s.threePhases
      ∧ (updateSummary r s).commission = s.commission ∧ (updateSummary r s).plan = s.plan
      ∧ (updateSummary r s).planDefaults = s.planDefaults ∧ (updateSummary r s).recordBuffer = s.recordBuffer
      ∧ (updateSummary r s).imageBuffer = s.imageBuffer ∧ (updateSummary r s).ses = s.ses
      ∧ (updateSummary r s).sup = s.sup ∧ (updateSummary r s).alc = s.alc ∧ (updateSummary r s).htr = s.htr
      ∧ (updateSummary r s).iso = s.iso ∧ (updateSummary r s).rst = s.rst ∧ (updateSummary r s).nv = s.nv
      ∧ (updateSummary r s).free = s.free ∧ (updateSummary r s).pending = s.pending
      ∧ (updateSummary r s).portV = s.portV ∧ (updateSummary r s).portP = s.portP
      ∧ (updateSummary r s).portF = s.portF ∧ (∀ p, (updateSummary r s).port p = s.port p)
      ∧ (∀ i, (updateSummary r s).entry i = s.entry i) ∧ (∀ i, (updateSummary r s).zone i = s.zone i) := by
  unfold updateSummary; (repeat' split) <;> simp

/-! ## Session -/

@[simp] theorem enterSession_keeps (st : SessionState) (s : State) :
    (enterSession st s).powered = s.powered ∧ (enterSession st s).threePhases = s.threePhases
      ∧ (enterSession st s).commission = s.commission ∧ (enterSession st s).plan = s.plan
      ∧ (enterSession st s).planDefaults = s.planDefaults ∧ (enterSession st s).recordBuffer = s.recordBuffer
      ∧ (enterSession st s).imageBuffer = s.imageBuffer ∧ (enterSession st s).alc = s.alc
      ∧ (enterSession st s).htr = s.htr ∧ (enterSession st s).iso = s.iso ∧ (enterSession st s).mtr = s.mtr
      ∧ (enterSession st s).rst = s.rst ∧ (enterSession st s).nv = s.nv ∧ (enterSession st s).free = s.free
      ∧ (enterSession st s).pending = s.pending ∧ (∀ i, (enterSession st s).entry i = s.entry i)
      ∧ (∀ i, (enterSession st s).zone i = s.zone i) := by
  simp [enterSession]

@[simp] theorem openSession_keeps (tag : Option Tag) (s : State) :
    (openSession tag s).powered = s.powered ∧ (openSession tag s).threePhases = s.threePhases
      ∧ (openSession tag s).commission = s.commission ∧ (openSession tag s).plan = s.plan
      ∧ (openSession tag s).planDefaults = s.planDefaults ∧ (openSession tag s).recordBuffer = s.recordBuffer
      ∧ (openSession tag s).imageBuffer = s.imageBuffer ∧ (openSession tag s).alc = s.alc
      ∧ (openSession tag s).htr = s.htr ∧ (openSession tag s).iso = s.iso ∧ (openSession tag s).free = s.free
      ∧ (openSession tag s).pending = s.pending ∧ (∀ i, (openSession tag s).entry i = s.entry i)
      ∧ (∀ i, (openSession tag s).zone i = s.zone i) := by
  simp [openSession]

@[simp] theorem authorizeSession_keeps (tag : Option Tag) (s : State) :
    (authorizeSession tag s).powered = s.powered ∧ (authorizeSession tag s).threePhases = s.threePhases
      ∧ (authorizeSession tag s).commission = s.commission ∧ (authorizeSession tag s).plan = s.plan
      ∧ (authorizeSession tag s).planDefaults = s.planDefaults
      ∧ (authorizeSession tag s).recordBuffer = s.recordBuffer ∧ (authorizeSession tag s).imageBuffer = s.imageBuffer
      ∧ (authorizeSession tag s).alc = s.alc ∧ (authorizeSession tag s).htr = s.htr
      ∧ (authorizeSession tag s).iso = s.iso ∧ (authorizeSession tag s).free = s.free
      ∧ (authorizeSession tag s).pending = s.pending ∧ (∀ i, (authorizeSession tag s).entry i = s.entry i)
      ∧ (∀ i, (authorizeSession tag s).zone i = s.zone i) := by
  unfold authorizeSession; split <;> simp

@[simp] theorem closeSession_keeps (reason : CloseReason) (s : State) :
    (closeSession reason s).powered = s.powered ∧ (closeSession reason s).threePhases = s.threePhases
      ∧ (closeSession reason s).commission = s.commission ∧ (closeSession reason s).plan = s.plan
      ∧ (closeSession reason s).planDefaults = s.planDefaults ∧ (closeSession reason s).recordBuffer = s.recordBuffer
      ∧ (closeSession reason s).imageBuffer = s.imageBuffer ∧ (closeSession reason s).alc = s.alc
      ∧ (closeSession reason s).htr = s.htr ∧ (closeSession reason s).iso = s.iso ∧ (closeSession reason s).nv = s.nv
      ∧ (closeSession reason s).free = s.free ∧ (closeSession reason s).pending = s.pending
      ∧ (∀ i, (closeSession reason s).entry i = s.entry i) ∧ (∀ i, (closeSession reason s).zone i = s.zone i) := by
  unfold closeSession; split <;> simp

@[simp] theorem leaveClosing_keeps (s : State) :
    (leaveClosing s).powered = s.powered ∧ (leaveClosing s).threePhases = s.threePhases
      ∧ (leaveClosing s).commission = s.commission ∧ (leaveClosing s).plan = s.plan
      ∧ (leaveClosing s).planDefaults = s.planDefaults ∧ (leaveClosing s).recordBuffer = s.recordBuffer
      ∧ (leaveClosing s).imageBuffer = s.imageBuffer ∧ (leaveClosing s).alc = s.alc ∧ (leaveClosing s).htr = s.htr
      ∧ (leaveClosing s).iso = s.iso ∧ (leaveClosing s).rst = s.rst ∧ (leaveClosing s).nv = s.nv
      ∧ (leaveClosing s).free = s.free ∧ (leaveClosing s).pending = s.pending
      ∧ (∀ i, (leaveClosing s).entry i = s.entry i) ∧ (∀ i, (leaveClosing s).zone i = s.zone i) := by
  unfold leaveClosing; split <;> simp

@[simp] theorem autoOpen_keeps (s : State) :
    (autoOpen s).powered = s.powered ∧ (autoOpen s).threePhases = s.threePhases
      ∧ (autoOpen s).commission = s.commission ∧ (autoOpen s).plan = s.plan
      ∧ (autoOpen s).planDefaults = s.planDefaults ∧ (autoOpen s).recordBuffer = s.recordBuffer
      ∧ (autoOpen s).imageBuffer = s.imageBuffer ∧ (autoOpen s).alc = s.alc ∧ (autoOpen s).htr = s.htr
      ∧ (autoOpen s).iso = s.iso ∧ (autoOpen s).free = s.free ∧ (autoOpen s).pending = s.pending
      ∧ (∀ i, (autoOpen s).entry i = s.entry i) ∧ (∀ i, (autoOpen s).zone i = s.zone i) := by
  unfold autoOpen; split <;> simp

@[simp] theorem plugEnters_keeps (s : State) :
    (plugEnters s).powered = s.powered ∧ (plugEnters s).threePhases = s.threePhases
      ∧ (plugEnters s).commission = s.commission ∧ (plugEnters s).plan = s.plan
      ∧ (plugEnters s).planDefaults = s.planDefaults ∧ (plugEnters s).recordBuffer = s.recordBuffer
      ∧ (plugEnters s).imageBuffer = s.imageBuffer ∧ (plugEnters s).alc = s.alc ∧ (plugEnters s).htr = s.htr
      ∧ (plugEnters s).iso = s.iso ∧ (plugEnters s).free = s.free ∧ (plugEnters s).pending = s.pending
      ∧ (∀ i, (plugEnters s).entry i = s.entry i) ∧ (∀ i, (plugEnters s).zone i = s.zone i) := by
  unfold plugEnters; (repeat' split) <;> simp

@[simp] theorem sessionUnplugged_keeps (s : State) :
    (sessionUnplugged s).powered = s.powered ∧ (sessionUnplugged s).threePhases = s.threePhases
      ∧ (sessionUnplugged s).commission = s.commission ∧ (sessionUnplugged s).plan = s.plan
      ∧ (sessionUnplugged s).planDefaults = s.planDefaults ∧ (sessionUnplugged s).recordBuffer = s.recordBuffer
      ∧ (sessionUnplugged s).imageBuffer = s.imageBuffer ∧ (sessionUnplugged s).alc = s.alc
      ∧ (sessionUnplugged s).htr = s.htr ∧ (sessionUnplugged s).iso = s.iso ∧ (sessionUnplugged s).nv = s.nv
      ∧ (sessionUnplugged s).free = s.free ∧ (sessionUnplugged s).pending = s.pending
      ∧ (∀ i, (sessionUnplugged s).entry i = s.entry i) ∧ (∀ i, (sessionUnplugged s).zone i = s.zone i) := by
  unfold sessionUnplugged; (repeat' split) <;> simp

@[simp] theorem plugLeaves_keeps (s : State) :
    (plugLeaves s).powered = s.powered ∧ (plugLeaves s).threePhases = s.threePhases
      ∧ (plugLeaves s).commission = s.commission ∧ (plugLeaves s).planDefaults = s.planDefaults
      ∧ (plugLeaves s).recordBuffer = s.recordBuffer ∧ (plugLeaves s).imageBuffer = s.imageBuffer
      ∧ (plugLeaves s).htr = s.htr ∧ (plugLeaves s).iso = s.iso ∧ (plugLeaves s).nv = s.nv
      ∧ (plugLeaves s).free = s.free ∧ (plugLeaves s).pending = s.pending ∧ (∀ i, (plugLeaves s).zone i = s.zone i) := by
  simp [plugLeaves]

@[simp] theorem putPlug_keeps (new : Plug) (s : State) :
    (putPlug new s).powered = s.powered ∧ (putPlug new s).threePhases = s.threePhases
      ∧ (putPlug new s).commission = s.commission ∧ (putPlug new s).planDefaults = s.planDefaults
      ∧ (putPlug new s).recordBuffer = s.recordBuffer ∧ (putPlug new s).imageBuffer = s.imageBuffer
      ∧ (putPlug new s).htr = s.htr ∧ (putPlug new s).iso = s.iso ∧ (putPlug new s).free = s.free
      ∧ (putPlug new s).pending = s.pending ∧ (∀ i, (putPlug new s).zone i = s.zone i) := by
  unfold putPlug; (repeat' split) <;> simp

@[simp] theorem derivePlug_keeps (s : State) :
    (derivePlug s).powered = s.powered ∧ (derivePlug s).threePhases = s.threePhases
      ∧ (derivePlug s).commission = s.commission ∧ (derivePlug s).planDefaults = s.planDefaults
      ∧ (derivePlug s).recordBuffer = s.recordBuffer ∧ (derivePlug s).imageBuffer = s.imageBuffer
      ∧ (derivePlug s).htr = s.htr ∧ (derivePlug s).iso = s.iso ∧ (derivePlug s).free = s.free
      ∧ (derivePlug s).pending = s.pending ∧ (∀ i, (derivePlug s).zone i = s.zone i) := by
  unfold derivePlug; (repeat' split) <;> simp

/-! ## Monitor -/

@[simp] theorem startSettle_keeps (s : State) :
    (startSettle s).powered = s.powered ∧ (startSettle s).threePhases = s.threePhases
      ∧ (startSettle s).commission = s.commission ∧ (startSettle s).plan = s.plan
      ∧ (startSettle s).planDefaults = s.planDefaults ∧ (startSettle s).recordBuffer = s.recordBuffer
      ∧ (startSettle s).imageBuffer = s.imageBuffer ∧ (startSettle s).ses = s.ses ∧ (startSettle s).sup = s.sup
      ∧ (startSettle s).alc = s.alc ∧ (startSettle s).htr = s.htr ∧ (startSettle s).mtr = s.mtr
      ∧ (startSettle s).rst = s.rst ∧ (startSettle s).nv = s.nv ∧ (startSettle s).free = s.free
      ∧ (startSettle s).pending = s.pending ∧ (startSettle s).portV = s.portV ∧ (startSettle s).portP = s.portP
      ∧ (startSettle s).portF = s.portF ∧ (∀ p, (startSettle s).port p = s.port p)
      ∧ (∀ i, (startSettle s).entry i = s.entry i) ∧ (∀ i, (startSettle s).zone i = s.zone i) := by
  simp [startSettle]

@[simp] theorem grantWindow_keeps (s : State) :
    (grantWindow s).powered = s.powered ∧ (grantWindow s).threePhases = s.threePhases
      ∧ (grantWindow s).commission = s.commission ∧ (grantWindow s).plan = s.plan
      ∧ (grantWindow s).planDefaults = s.planDefaults ∧ (grantWindow s).recordBuffer = s.recordBuffer
      ∧ (grantWindow s).imageBuffer = s.imageBuffer ∧ (grantWindow s).ses = s.ses ∧ (grantWindow s).sup = s.sup
      ∧ (grantWindow s).htr = s.htr ∧ (grantWindow s).mtr = s.mtr ∧ (grantWindow s).rst = s.rst
      ∧ (grantWindow s).nv = s.nv ∧ (grantWindow s).free = s.free ∧ (grantWindow s).pending = s.pending
      ∧ (grantWindow s).portV = s.portV ∧ (grantWindow s).portP = s.portP ∧ (grantWindow s).portF = s.portF
      ∧ (∀ p, (grantWindow s).port p = s.port p) ∧ (∀ i, (grantWindow s).entry i = s.entry i)
      ∧ (∀ i, (grantWindow s).zone i = s.zone i) := by
  simp [grantWindow]

@[simp] theorem requestMeasurement_keeps (purpose : Purpose) (s : State) :
    (requestMeasurement purpose s).powered = s.powered ∧ (requestMeasurement purpose s).threePhases = s.threePhases
      ∧ (requestMeasurement purpose s).commission = s.commission ∧ (requestMeasurement purpose s).plan = s.plan
      ∧ (requestMeasurement purpose s).planDefaults = s.planDefaults
      ∧ (requestMeasurement purpose s).recordBuffer = s.recordBuffer
      ∧ (requestMeasurement purpose s).imageBuffer = s.imageBuffer ∧ (requestMeasurement purpose s).ses = s.ses
      ∧ (requestMeasurement purpose s).sup = s.sup ∧ (requestMeasurement purpose s).htr = s.htr
      ∧ (requestMeasurement purpose s).mtr = s.mtr ∧ (requestMeasurement purpose s).rst = s.rst
      ∧ (requestMeasurement purpose s).nv = s.nv ∧ (requestMeasurement purpose s).free = s.free
      ∧ (requestMeasurement purpose s).pending = s.pending ∧ (requestMeasurement purpose s).portV = s.portV
      ∧ (requestMeasurement purpose s).portP = s.portP ∧ (requestMeasurement purpose s).portF = s.portF
      ∧ (∀ p, (requestMeasurement purpose s).port p = s.port p)
      ∧ (∀ i, (requestMeasurement purpose s).entry i = s.entry i)
      ∧ (∀ i, (requestMeasurement purpose s).zone i = s.zone i) := by
  unfold requestMeasurement; dsimp only; (repeat' split) <;> simp

@[simp] theorem monitorIdle_keeps (s : State) :
    (monitorIdle s).powered = s.powered ∧ (monitorIdle s).threePhases = s.threePhases
      ∧ (monitorIdle s).commission = s.commission ∧ (monitorIdle s).plan = s.plan
      ∧ (monitorIdle s).planDefaults = s.planDefaults ∧ (monitorIdle s).recordBuffer = s.recordBuffer
      ∧ (monitorIdle s).imageBuffer = s.imageBuffer ∧ (monitorIdle s).ses = s.ses ∧ (monitorIdle s).sup = s.sup
      ∧ (monitorIdle s).alc = s.alc ∧ (monitorIdle s).htr = s.htr ∧ (monitorIdle s).mtr = s.mtr
      ∧ (monitorIdle s).rst = s.rst ∧ (monitorIdle s).nv = s.nv ∧ (monitorIdle s).free = s.free
      ∧ (monitorIdle s).pending = s.pending ∧ (monitorIdle s).portV = s.portV ∧ (monitorIdle s).portP = s.portP
      ∧ (monitorIdle s).portF = s.portF ∧ (∀ p, (monitorIdle s).port p = s.port p)
      ∧ (∀ i, (monitorIdle s).entry i = s.entry i) ∧ (∀ i, (monitorIdle s).zone i = s.zone i) := by
  simp [monitorIdle]

@[simp] theorem releaseWindow_keeps (s : State) :
    (releaseWindow s).powered = s.powered ∧ (releaseWindow s).threePhases = s.threePhases
      ∧ (releaseWindow s).commission = s.commission ∧ (releaseWindow s).plan = s.plan
      ∧ (releaseWindow s).planDefaults = s.planDefaults ∧ (releaseWindow s).recordBuffer = s.recordBuffer
      ∧ (releaseWindow s).imageBuffer = s.imageBuffer ∧ (releaseWindow s).ses = s.ses ∧ (releaseWindow s).sup = s.sup
      ∧ (releaseWindow s).iso = s.iso ∧ (releaseWindow s).mtr = s.mtr ∧ (releaseWindow s).rst = s.rst
      ∧ (releaseWindow s).nv = s.nv ∧ (releaseWindow s).free = s.free ∧ (releaseWindow s).pending = s.pending
      ∧ (releaseWindow s).portV = s.portV ∧ (releaseWindow s).portP = s.portP ∧ (releaseWindow s).portF = s.portF
      ∧ (∀ p, (releaseWindow s).port p = s.port p) ∧ (∀ i, (releaseWindow s).entry i = s.entry i) := by
  simp [releaseWindow]

@[simp] theorem discardMeasurement_keeps (s : State) :
    (discardMeasurement s).powered = s.powered ∧ (discardMeasurement s).threePhases = s.threePhases
      ∧ (discardMeasurement s).commission = s.commission ∧ (discardMeasurement s).plan = s.plan
      ∧ (discardMeasurement s).planDefaults = s.planDefaults ∧ (discardMeasurement s).recordBuffer = s.recordBuffer
      ∧ (discardMeasurement s).imageBuffer = s.imageBuffer ∧ (discardMeasurement s).ses = s.ses
      ∧ (discardMeasurement s).sup = s.sup ∧ (discardMeasurement s).mtr = s.mtr ∧ (discardMeasurement s).rst = s.rst
      ∧ (discardMeasurement s).nv = s.nv ∧ (discardMeasurement s).free = s.free
      ∧ (discardMeasurement s).pending = s.pending ∧ (discardMeasurement s).portV = s.portV
      ∧ (discardMeasurement s).portP = s.portP ∧ (discardMeasurement s).portF = s.portF
      ∧ (∀ p, (discardMeasurement s).port p = s.port p) ∧ (∀ i, (discardMeasurement s).entry i = s.entry i) := by
  simp [discardMeasurement]

@[simp] theorem abandonMeasurement_keeps (s : State) :
    (abandonMeasurement s).powered = s.powered ∧ (abandonMeasurement s).threePhases = s.threePhases
      ∧ (abandonMeasurement s).commission = s.commission ∧ (abandonMeasurement s).plan = s.plan
      ∧ (abandonMeasurement s).planDefaults = s.planDefaults ∧ (abandonMeasurement s).recordBuffer = s.recordBuffer
      ∧ (abandonMeasurement s).imageBuffer = s.imageBuffer ∧ (abandonMeasurement s).ses = s.ses
      ∧ (abandonMeasurement s).sup = s.sup ∧ (abandonMeasurement s).htr = s.htr ∧ (abandonMeasurement s).mtr = s.mtr
      ∧ (abandonMeasurement s).rst = s.rst ∧ (abandonMeasurement s).nv = s.nv ∧ (abandonMeasurement s).free = s.free
      ∧ (abandonMeasurement s).pending = s.pending ∧ (abandonMeasurement s).portV = s.portV
      ∧ (abandonMeasurement s).portP = s.portP ∧ (abandonMeasurement s).portF = s.portF
      ∧ (∀ p, (abandonMeasurement s).port p = s.port p) ∧ (∀ i, (abandonMeasurement s).entry i = s.entry i)
      ∧ (∀ i, (abandonMeasurement s).zone i = s.zone i) := by
  simp [abandonMeasurement]

@[simp] theorem switchChange_keeps (s : State) :
    (switchChange s).powered = s.powered ∧ (switchChange s).threePhases = s.threePhases
      ∧ (switchChange s).commission = s.commission ∧ (switchChange s).plan = s.plan
      ∧ (switchChange s).planDefaults = s.planDefaults ∧ (switchChange s).recordBuffer = s.recordBuffer
      ∧ (switchChange s).imageBuffer = s.imageBuffer ∧ (switchChange s).ses = s.ses ∧ (switchChange s).sup = s.sup
      ∧ (switchChange s).mtr = s.mtr ∧ (switchChange s).rst = s.rst ∧ (switchChange s).nv = s.nv
      ∧ (switchChange s).free = s.free ∧ (switchChange s).pending = s.pending ∧ (switchChange s).portV = s.portV
      ∧ (switchChange s).portP = s.portP ∧ (switchChange s).portF = s.portF
      ∧ (∀ p, (switchChange s).port p = s.port p) ∧ (∀ i, (switchChange s).entry i = s.entry i) := by
  unfold switchChange; (repeat' split) <;> simp

@[simp] theorem testOverdue_keeps (s : State) :
    (testOverdue s).powered = s.powered ∧ (testOverdue s).threePhases = s.threePhases
      ∧ (testOverdue s).commission = s.commission ∧ (testOverdue s).plan = s.plan
      ∧ (testOverdue s).planDefaults = s.planDefaults ∧ (testOverdue s).recordBuffer = s.recordBuffer
      ∧ (testOverdue s).imageBuffer = s.imageBuffer ∧ (testOverdue s).sup = s.sup ∧ (testOverdue s).htr = s.htr
      ∧ (testOverdue s).mtr = s.mtr ∧ (testOverdue s).rst = s.rst ∧ (testOverdue s).nv = s.nv
      ∧ (testOverdue s).free = s.free ∧ (testOverdue s).pending = s.pending
      ∧ (∀ i, (testOverdue s).entry i = s.entry i) ∧ (∀ i, (testOverdue s).zone i = s.zone i) := by
  unfold testOverdue; dsimp only; (repeat' split) <;> simp

@[simp] theorem raiseAge_keeps (s : State) :
    (raiseAge s).powered = s.powered ∧ (raiseAge s).threePhases = s.threePhases
      ∧ (raiseAge s).commission = s.commission ∧ (raiseAge s).plan = s.plan
      ∧ (raiseAge s).planDefaults = s.planDefaults ∧ (raiseAge s).recordBuffer = s.recordBuffer
      ∧ (raiseAge s).imageBuffer = s.imageBuffer ∧ (raiseAge s).sup = s.sup ∧ (raiseAge s).htr = s.htr
      ∧ (raiseAge s).mtr = s.mtr ∧ (raiseAge s).rst = s.rst ∧ (raiseAge s).nv = s.nv ∧ (raiseAge s).free = s.free
      ∧ (raiseAge s).pending = s.pending ∧ (∀ i, (raiseAge s).entry i = s.entry i)
      ∧ (∀ i, (raiseAge s).zone i = s.zone i) := by
  simp [raiseAge]

@[simp] theorem completeMeasurement_keeps (s : State) :
    (completeMeasurement s).powered = s.powered ∧ (completeMeasurement s).threePhases = s.threePhases
      ∧ (completeMeasurement s).commission = s.commission ∧ (completeMeasurement s).plan = s.plan
      ∧ (completeMeasurement s).planDefaults = s.planDefaults ∧ (completeMeasurement s).recordBuffer = s.recordBuffer
      ∧ (completeMeasurement s).imageBuffer = s.imageBuffer ∧ (completeMeasurement s).sup = s.sup
      ∧ (completeMeasurement s).htr = s.htr ∧ (completeMeasurement s).mtr = s.mtr
      ∧ (completeMeasurement s).rst = s.rst ∧ (completeMeasurement s).nv = s.nv
      ∧ (completeMeasurement s).free = s.free ∧ (completeMeasurement s).pending = s.pending
      ∧ (∀ i, (completeMeasurement s).entry i = s.entry i) ∧ (∀ i, (completeMeasurement s).zone i = s.zone i) := by
  simp [completeMeasurement]

/-! ## Heater -/

@[simp] theorem reportSwitches_keeps (before : Htr) (s : State) :
    (reportSwitches before s).powered = s.powered ∧ (reportSwitches before s).threePhases = s.threePhases
      ∧ (reportSwitches before s).commission = s.commission ∧ (reportSwitches before s).plan = s.plan
      ∧ (reportSwitches before s).planDefaults = s.planDefaults
      ∧ (reportSwitches before s).recordBuffer = s.recordBuffer
      ∧ (reportSwitches before s).imageBuffer = s.imageBuffer ∧ (reportSwitches before s).ses = s.ses
      ∧ (reportSwitches before s).sup = s.sup ∧ (reportSwitches before s).mtr = s.mtr
      ∧ (reportSwitches before s).rst = s.rst ∧ (reportSwitches before s).nv = s.nv
      ∧ (reportSwitches before s).free = s.free ∧ (reportSwitches before s).pending = s.pending
      ∧ (reportSwitches before s).portV = s.portV ∧ (reportSwitches before s).portP = s.portP
      ∧ (reportSwitches before s).portF = s.portF ∧ (∀ p, (reportSwitches before s).port p = s.port p)
      ∧ (∀ i, (reportSwitches before s).entry i = s.entry i) := by
  unfold reportSwitches; split <;> simp

@[simp] theorem applyPending_keeps (s : State) :
    (applyPending s).powered = s.powered ∧ (applyPending s).threePhases = s.threePhases
      ∧ (applyPending s).commission = s.commission ∧ (applyPending s).plan = s.plan
      ∧ (applyPending s).planDefaults = s.planDefaults ∧ (applyPending s).recordBuffer = s.recordBuffer
      ∧ (applyPending s).imageBuffer = s.imageBuffer ∧ (applyPending s).ses = s.ses ∧ (applyPending s).sup = s.sup
      ∧ (applyPending s).alc = s.alc ∧ (applyPending s).iso = s.iso ∧ (applyPending s).mtr = s.mtr
      ∧ (applyPending s).rst = s.rst ∧ (applyPending s).nv = s.nv ∧ (applyPending s).free = s.free
      ∧ (applyPending s).pending = s.pending ∧ (∀ i, (applyPending s).entry i = s.entry i) := by
  unfold applyPending; (repeat' split) <;> simp

@[simp] theorem heaterChanged_keeps (before : Htr) (s : State) :
    (heaterChanged before s).powered = s.powered ∧ (heaterChanged before s).threePhases = s.threePhases
      ∧ (heaterChanged before s).commission = s.commission ∧ (heaterChanged before s).plan = s.plan
      ∧ (heaterChanged before s).planDefaults = s.planDefaults
      ∧ (heaterChanged before s).recordBuffer = s.recordBuffer ∧ (heaterChanged before s).imageBuffer = s.imageBuffer
      ∧ (heaterChanged before s).ses = s.ses ∧ (heaterChanged before s).mtr = s.mtr
      ∧ (heaterChanged before s).rst = s.rst ∧ (heaterChanged before s).nv = s.nv
      ∧ (heaterChanged before s).free = s.free ∧ (heaterChanged before s).pending = s.pending
      ∧ (∀ i, (heaterChanged before s).entry i = s.entry i) := by
  simp [heaterChanged]

@[simp] theorem forcedDeenergize_keeps (s : State) :
    (forcedDeenergize s).powered = s.powered ∧ (forcedDeenergize s).threePhases = s.threePhases
      ∧ (forcedDeenergize s).commission = s.commission ∧ (forcedDeenergize s).plan = s.plan
      ∧ (forcedDeenergize s).planDefaults = s.planDefaults ∧ (forcedDeenergize s).recordBuffer = s.recordBuffer
      ∧ (forcedDeenergize s).imageBuffer = s.imageBuffer ∧ (forcedDeenergize s).ses = s.ses
      ∧ (forcedDeenergize s).mtr = s.mtr ∧ (forcedDeenergize s).rst = s.rst ∧ (forcedDeenergize s).nv = s.nv
      ∧ (forcedDeenergize s).free = s.free ∧ (forcedDeenergize s).pending = s.pending
      ∧ (∀ i, (forcedDeenergize s).entry i = s.entry i) := by
  simp [forcedDeenergize]

@[simp] theorem endProbe_keeps (z : Fin 8) (leak : Bool) (s : State) :
    (endProbe z leak s).powered = s.powered ∧ (endProbe z leak s).threePhases = s.threePhases
      ∧ (endProbe z leak s).commission = s.commission ∧ (endProbe z leak s).plan = s.plan
      ∧ (endProbe z leak s).planDefaults = s.planDefaults ∧ (endProbe z leak s).recordBuffer = s.recordBuffer
      ∧ (endProbe z leak s).imageBuffer = s.imageBuffer ∧ (endProbe z leak s).ses = s.ses
      ∧ (endProbe z leak s).mtr = s.mtr ∧ (endProbe z leak s).rst = s.rst ∧ (endProbe z leak s).nv = s.nv
      ∧ (endProbe z leak s).free = s.free ∧ (endProbe z leak s).pending = s.pending
      ∧ (∀ i, (endProbe z leak s).entry i = s.entry i) := by
  simp [endProbe]

@[simp] theorem heaterConvert_keeps (z : Fin 8) (r : Thermistor) (s : State) :
    (heaterConvert z r s).powered = s.powered ∧ (heaterConvert z r s).threePhases = s.threePhases
      ∧ (heaterConvert z r s).commission = s.commission ∧ (heaterConvert z r s).plan = s.plan
      ∧ (heaterConvert z r s).planDefaults = s.planDefaults ∧ (heaterConvert z r s).recordBuffer = s.recordBuffer
      ∧ (heaterConvert z r s).imageBuffer = s.imageBuffer ∧ (heaterConvert z r s).ses = s.ses
      ∧ (heaterConvert z r s).sup = s.sup ∧ (heaterConvert z r s).alc = s.alc ∧ (heaterConvert z r s).iso = s.iso
      ∧ (heaterConvert z r s).mtr = s.mtr ∧ (heaterConvert z r s).rst = s.rst ∧ (heaterConvert z r s).nv = s.nv
      ∧ (heaterConvert z r s).free = s.free ∧ (heaterConvert z r s).pending = s.pending
      ∧ (∀ i, (heaterConvert z r s).entry i = s.entry i) := by
  simp [heaterConvert]

@[simp] theorem applyRecord_keeps (r : GrantRecord) (s : State) :
    (applyRecord r s).powered = s.powered ∧ (applyRecord r s).threePhases = s.threePhases
      ∧ (applyRecord r s).commission = s.commission ∧ (applyRecord r s).plan = s.plan
      ∧ (applyRecord r s).planDefaults = s.planDefaults ∧ (applyRecord r s).recordBuffer = s.recordBuffer
      ∧ (applyRecord r s).imageBuffer = s.imageBuffer ∧ (applyRecord r s).ses = s.ses ∧ (applyRecord r s).mtr = s.mtr
      ∧ (applyRecord r s).rst = s.rst ∧ (applyRecord r s).nv = s.nv ∧ (applyRecord r s).free = s.free
      ∧ (applyRecord r s).pending = s.pending ∧ (∀ i, (applyRecord r s).entry i = s.entry i) := by
  simp [applyRecord]

/-! ## Grade -/

@[simp] theorem setLockout_keeps (s : State) :
    (setLockout s).powered = s.powered ∧ (setLockout s).threePhases = s.threePhases
      ∧ (setLockout s).commission = s.commission ∧ (setLockout s).plan = s.plan
      ∧ (setLockout s).planDefaults = s.planDefaults ∧ (setLockout s).recordBuffer = s.recordBuffer
      ∧ (setLockout s).imageBuffer = s.imageBuffer ∧ (setLockout s).ses = s.ses ∧ (setLockout s).sup = s.sup
      ∧ (setLockout s).alc = s.alc ∧ (setLockout s).htr = s.htr ∧ (setLockout s).mtr = s.mtr
      ∧ (setLockout s).rst = s.rst ∧ (setLockout s).nv = s.nv ∧ (setLockout s).free = s.free
      ∧ (setLockout s).pending = s.pending ∧ (∀ i, (setLockout s).entry i = s.entry i)
      ∧ (∀ i, (setLockout s).zone i = s.zone i) := by
  unfold setLockout; (repeat' split) <;> simp

@[simp] theorem gradeLost_keeps (old new : Grade) (s : State) :
    (gradeLost old new s).powered = s.powered ∧ (gradeLost old new s).threePhases = s.threePhases
      ∧ (gradeLost old new s).commission = s.commission ∧ (gradeLost old new s).plan = s.plan
      ∧ (gradeLost old new s).planDefaults = s.planDefaults ∧ (gradeLost old new s).recordBuffer = s.recordBuffer
      ∧ (gradeLost old new s).imageBuffer = s.imageBuffer ∧ (gradeLost old new s).nv = s.nv
      ∧ (gradeLost old new s).free = s.free ∧ (gradeLost old new s).pending = s.pending
      ∧ (∀ i, (gradeLost old new s).entry i = s.entry i) := by
  unfold gradeLost; (repeat' split) <;> simp

@[simp] theorem changeGrade_keeps (new : Grade) (s : State) :
    (changeGrade new s).powered = s.powered ∧ (changeGrade new s).threePhases = s.threePhases
      ∧ (changeGrade new s).commission = s.commission ∧ (changeGrade new s).plan = s.plan
      ∧ (changeGrade new s).planDefaults = s.planDefaults ∧ (changeGrade new s).recordBuffer = s.recordBuffer
      ∧ (changeGrade new s).imageBuffer = s.imageBuffer ∧ (changeGrade new s).nv = s.nv
      ∧ (changeGrade new s).free = s.free ∧ (changeGrade new s).pending = s.pending
      ∧ (∀ i, (changeGrade new s).entry i = s.entry i) := by
  unfold changeGrade; (repeat' split) <;> simp

@[simp] theorem decideGrade_keeps (r : ResultClass) (s : State) :
    (decideGrade r s).powered = s.powered ∧ (decideGrade r s).threePhases = s.threePhases
      ∧ (decideGrade r s).commission = s.commission ∧ (decideGrade r s).plan = s.plan
      ∧ (decideGrade r s).planDefaults = s.planDefaults ∧ (decideGrade r s).recordBuffer = s.recordBuffer
      ∧ (decideGrade r s).imageBuffer = s.imageBuffer ∧ (decideGrade r s).nv = s.nv ∧ (decideGrade r s).free = s.free
      ∧ (decideGrade r s).pending = s.pending ∧ (∀ i, (decideGrade r s).entry i = s.entry i) := by
  unfold decideGrade; (repeat' split) <;> simp

@[simp] theorem takeBaseline_keeps (c : ResultClass) (s : State) :
    (takeBaseline c s).powered = s.powered ∧ (takeBaseline c s).threePhases = s.threePhases
      ∧ (takeBaseline c s).commission = s.commission ∧ (takeBaseline c s).plan = s.plan
      ∧ (takeBaseline c s).planDefaults = s.planDefaults ∧ (takeBaseline c s).recordBuffer = s.recordBuffer
      ∧ (takeBaseline c s).imageBuffer = s.imageBuffer ∧ (takeBaseline c s).ses = s.ses
      ∧ (takeBaseline c s).sup = s.sup ∧ (takeBaseline c s).alc = s.alc ∧ (takeBaseline c s).htr = s.htr
      ∧ (takeBaseline c s).mtr = s.mtr ∧ (takeBaseline c s).rst = s.rst ∧ (takeBaseline c s).nv = s.nv
      ∧ (takeBaseline c s).free = s.free ∧ (takeBaseline c s).pending = s.pending ∧ (takeBaseline c s).portV = s.portV
      ∧ (takeBaseline c s).portP = s.portP ∧ (takeBaseline c s).portF = s.portF
      ∧ (∀ p, (takeBaseline c s).port p = s.port p) ∧ (∀ i, (takeBaseline c s).entry i = s.entry i)
      ∧ (∀ i, (takeBaseline c s).zone i = s.zone i) := by
  simp [takeBaseline]

@[simp] theorem takeProbe_keeps (z : Fin 8) (c : ResultClass) (s : State) :
    (takeProbe z c s).powered = s.powered ∧ (takeProbe z c s).threePhases = s.threePhases
      ∧ (takeProbe z c s).commission = s.commission ∧ (takeProbe z c s).plan = s.plan
      ∧ (takeProbe z c s).planDefaults = s.planDefaults ∧ (takeProbe z c s).recordBuffer = s.recordBuffer
      ∧ (takeProbe z c s).imageBuffer = s.imageBuffer ∧ (takeProbe z c s).ses = s.ses ∧ (takeProbe z c s).sup = s.sup
      ∧ (takeProbe z c s).alc = s.alc ∧ (takeProbe z c s).htr = s.htr ∧ (takeProbe z c s).mtr = s.mtr
      ∧ (takeProbe z c s).rst = s.rst ∧ (takeProbe z c s).nv = s.nv ∧ (takeProbe z c s).free = s.free
      ∧ (takeProbe z c s).pending = s.pending ∧ (takeProbe z c s).portV = s.portV ∧ (takeProbe z c s).portP = s.portP
      ∧ (takeProbe z c s).portF = s.portF ∧ (∀ p, (takeProbe z c s).port p = s.port p)
      ∧ (∀ i, (takeProbe z c s).entry i = s.entry i) ∧ (∀ i, (takeProbe z c s).zone i = s.zone i) := by
  simp [takeProbe]

@[simp] theorem startProbe_keeps (z : Fin 8) (b : BeforeProbe) (s : State) :
    (startProbe z b s).powered = s.powered ∧ (startProbe z b s).threePhases = s.threePhases
      ∧ (startProbe z b s).commission = s.commission ∧ (startProbe z b s).plan = s.plan
      ∧ (startProbe z b s).planDefaults = s.planDefaults ∧ (startProbe z b s).recordBuffer = s.recordBuffer
      ∧ (startProbe z b s).imageBuffer = s.imageBuffer ∧ (startProbe z b s).ses = s.ses
      ∧ (startProbe z b s).mtr = s.mtr ∧ (startProbe z b s).rst = s.rst ∧ (startProbe z b s).nv = s.nv
      ∧ (startProbe z b s).free = s.free ∧ (startProbe z b s).pending = s.pending
      ∧ (∀ i, (startProbe z b s).entry i = s.entry i) := by
  simp [startProbe]

@[simp] theorem clearTheLockout_keeps (s : State) :
    (clearTheLockout s).powered = s.powered ∧ (clearTheLockout s).threePhases = s.threePhases
      ∧ (clearTheLockout s).commission = s.commission ∧ (clearTheLockout s).plan = s.plan
      ∧ (clearTheLockout s).planDefaults = s.planDefaults ∧ (clearTheLockout s).recordBuffer = s.recordBuffer
      ∧ (clearTheLockout s).imageBuffer = s.imageBuffer ∧ (clearTheLockout s).ses = s.ses
      ∧ (clearTheLockout s).sup = s.sup ∧ (clearTheLockout s).alc = s.alc ∧ (clearTheLockout s).htr = s.htr
      ∧ (clearTheLockout s).mtr = s.mtr ∧ (clearTheLockout s).rst = s.rst ∧ (clearTheLockout s).nv = s.nv
      ∧ (clearTheLockout s).free = s.free ∧ (clearTheLockout s).pending = s.pending
      ∧ (∀ i, (clearTheLockout s).entry i = s.entry i) ∧ (∀ i, (clearTheLockout s).zone i = s.zone i) := by
  simp [clearTheLockout]

@[simp] theorem endRun_keeps (s : State) :
    (endRun s).powered = s.powered ∧ (endRun s).threePhases = s.threePhases ∧ (endRun s).commission = s.commission
      ∧ (endRun s).plan = s.plan ∧ (endRun s).planDefaults = s.planDefaults ∧ (endRun s).recordBuffer = s.recordBuffer
      ∧ (endRun s).imageBuffer = s.imageBuffer ∧ (endRun s).nv = s.nv ∧ (endRun s).free = s.free
      ∧ (endRun s).pending = s.pending ∧ (∀ i, (endRun s).entry i = s.entry i) := by
  unfold endRun; (repeat' split) <;> simp

@[simp] theorem localizationStep_keeps (s : State) :
    (localizationStep s).powered = s.powered ∧ (localizationStep s).threePhases = s.threePhases
      ∧ (localizationStep s).commission = s.commission ∧ (localizationStep s).plan = s.plan
      ∧ (localizationStep s).planDefaults = s.planDefaults ∧ (localizationStep s).recordBuffer = s.recordBuffer
      ∧ (localizationStep s).imageBuffer = s.imageBuffer ∧ (localizationStep s).nv = s.nv
      ∧ (localizationStep s).free = s.free ∧ (localizationStep s).pending = s.pending
      ∧ (∀ i, (localizationStep s).entry i = s.entry i) := by
  unfold localizationStep; (repeat' split) <;> simp

@[simp] theorem restartRun_keeps (s : State) :
    (restartRun s).powered = s.powered ∧ (restartRun s).threePhases = s.threePhases
      ∧ (restartRun s).commission = s.commission ∧ (restartRun s).plan = s.plan
      ∧ (restartRun s).planDefaults = s.planDefaults ∧ (restartRun s).recordBuffer = s.recordBuffer
      ∧ (restartRun s).imageBuffer = s.imageBuffer ∧ (restartRun s).ses = s.ses ∧ (restartRun s).mtr = s.mtr
      ∧ (restartRun s).rst = s.rst ∧ (restartRun s).nv = s.nv ∧ (restartRun s).free = s.free
      ∧ (restartRun s).pending = s.pending ∧ (∀ i, (restartRun s).entry i = s.entry i) := by
  unfold restartRun; (repeat' split) <;> simp

@[simp] theorem longDeadEnergization_keeps (s : State) :
    (longDeadEnergization s).powered = s.powered ∧ (longDeadEnergization s).threePhases = s.threePhases
      ∧ (longDeadEnergization s).commission = s.commission ∧ (longDeadEnergization s).plan = s.plan
      ∧ (longDeadEnergization s).planDefaults = s.planDefaults
      ∧ (longDeadEnergization s).recordBuffer = s.recordBuffer ∧ (longDeadEnergization s).imageBuffer = s.imageBuffer
      ∧ (longDeadEnergization s).nv = s.nv ∧ (longDeadEnergization s).free = s.free
      ∧ (longDeadEnergization s).pending = s.pending ∧ (∀ i, (longDeadEnergization s).entry i = s.entry i) := by
  unfold longDeadEnergization; dsimp only; (repeat' split) <;> simp

@[simp] theorem useResult_keeps (c : ResultClass) (s : State) :
    (useResult c s).powered = s.powered ∧ (useResult c s).threePhases = s.threePhases
      ∧ (useResult c s).commission = s.commission ∧ (useResult c s).plan = s.plan
      ∧ (useResult c s).planDefaults = s.planDefaults ∧ (useResult c s).recordBuffer = s.recordBuffer
      ∧ (useResult c s).imageBuffer = s.imageBuffer ∧ (useResult c s).nv = s.nv ∧ (useResult c s).free = s.free
      ∧ (useResult c s).pending = s.pending ∧ (∀ i, (useResult c s).entry i = s.entry i) := by
  unfold useResult; (repeat' split) <;> simp

@[simp] theorem endProbeAfter_keeps (purpose : Option Purpose) (l : Localization) (c : ResultClass) (s : State) :
    (endProbeAfter purpose l c s).powered = s.powered ∧ (endProbeAfter purpose l c s).threePhases = s.threePhases
      ∧ (endProbeAfter purpose l c s).commission = s.commission ∧ (endProbeAfter purpose l c s).plan = s.plan
      ∧ (endProbeAfter purpose l c s).planDefaults = s.planDefaults
      ∧ (endProbeAfter purpose l c s).recordBuffer = s.recordBuffer
      ∧ (endProbeAfter purpose l c s).imageBuffer = s.imageBuffer ∧ (endProbeAfter purpose l c s).ses = s.ses
      ∧ (endProbeAfter purpose l c s).mtr = s.mtr ∧ (endProbeAfter purpose l c s).rst = s.rst
      ∧ (endProbeAfter purpose l c s).nv = s.nv ∧ (endProbeAfter purpose l c s).free = s.free
      ∧ (endProbeAfter purpose l c s).pending = s.pending ∧ (∀ i, (endProbeAfter purpose l c s).entry i = s.entry i) := by
  unfold endProbeAfter; (repeat' split) <;> simp

@[simp] theorem validResult_keeps (r : IsoResult) (s : State) :
    (validResult r s).powered = s.powered ∧ (validResult r s).threePhases = s.threePhases
      ∧ (validResult r s).commission = s.commission ∧ (validResult r s).plan = s.plan
      ∧ (validResult r s).planDefaults = s.planDefaults ∧ (validResult r s).recordBuffer = s.recordBuffer
      ∧ (validResult r s).imageBuffer = s.imageBuffer ∧ (validResult r s).nv = s.nv ∧ (validResult r s).free = s.free
      ∧ (validResult r s).pending = s.pending ∧ (∀ i, (validResult r s).entry i = s.entry i) := by
  simp [validResult]

@[simp] theorem finishMeasurement_keeps (s : State) :
    (finishMeasurement s).powered = s.powered ∧ (finishMeasurement s).threePhases = s.threePhases
      ∧ (finishMeasurement s).commission = s.commission ∧ (finishMeasurement s).plan = s.plan
      ∧ (finishMeasurement s).planDefaults = s.planDefaults ∧ (finishMeasurement s).recordBuffer = s.recordBuffer
      ∧ (finishMeasurement s).imageBuffer = s.imageBuffer ∧ (finishMeasurement s).nv = s.nv
      ∧ (finishMeasurement s).free = s.free ∧ (finishMeasurement s).pending = s.pending
      ∧ (∀ i, (finishMeasurement s).entry i = s.entry i) := by
  unfold finishMeasurement; dsimp only; (repeat' split) <;> simp

/-! ## Allocator -/

@[simp] theorem publish_keeps (r : GrantRecord) (s : State) :
    (publish r s).powered = s.powered ∧ (publish r s).threePhases = s.threePhases
      ∧ (publish r s).commission = s.commission ∧ (publish r s).plan = s.plan
      ∧ (publish r s).planDefaults = s.planDefaults ∧ (publish r s).recordBuffer = s.recordBuffer
      ∧ (publish r s).imageBuffer = s.imageBuffer ∧ (publish r s).ses = s.ses ∧ (publish r s).sup = s.sup
      ∧ (publish r s).iso = s.iso ∧ (publish r s).mtr = s.mtr ∧ (publish r s).rst = s.rst ∧ (publish r s).nv = s.nv
      ∧ (publish r s).free = s.free ∧ (publish r s).pending = s.pending ∧ (publish r s).portV = s.portV
      ∧ (publish r s).portP = s.portP ∧ (publish r s).portF = s.portF ∧ (∀ p, (publish r s).port p = s.port p)
      ∧ (∀ i, (publish r s).entry i = s.entry i) := by
  simp [publish]

@[simp] theorem windowStep_keeps (s : State) :
    (windowStep s).powered = s.powered ∧ (windowStep s).threePhases = s.threePhases
      ∧ (windowStep s).commission = s.commission ∧ (windowStep s).plan = s.plan
      ∧ (windowStep s).planDefaults = s.planDefaults ∧ (windowStep s).recordBuffer = s.recordBuffer
      ∧ (windowStep s).imageBuffer = s.imageBuffer ∧ (windowStep s).ses = s.ses ∧ (windowStep s).sup = s.sup
      ∧ (windowStep s).htr = s.htr ∧ (windowStep s).iso = s.iso ∧ (windowStep s).mtr = s.mtr
      ∧ (windowStep s).rst = s.rst ∧ (windowStep s).nv = s.nv ∧ (windowStep s).free = s.free
      ∧ (windowStep s).pending = s.pending ∧ (windowStep s).portV = s.portV ∧ (windowStep s).portP = s.portP
      ∧ (windowStep s).portF = s.portF ∧ (∀ p, (windowStep s).port p = s.port p)
      ∧ (∀ i, (windowStep s).entry i = s.entry i) ∧ (∀ i, (windowStep s).zone i = s.zone i) := by
  unfold windowStep; split <;> simp

@[simp] theorem contradictionStep_keeps (s : State) :
    (contradictionStep s).powered = s.powered ∧ (contradictionStep s).threePhases = s.threePhases
      ∧ (contradictionStep s).commission = s.commission ∧ (contradictionStep s).plan = s.plan
      ∧ (contradictionStep s).planDefaults = s.planDefaults ∧ (contradictionStep s).recordBuffer = s.recordBuffer
      ∧ (contradictionStep s).imageBuffer = s.imageBuffer ∧ (contradictionStep s).ses = s.ses
      ∧ (contradictionStep s).sup = s.sup ∧ (contradictionStep s).htr = s.htr ∧ (contradictionStep s).iso = s.iso
      ∧ (contradictionStep s).mtr = s.mtr ∧ (contradictionStep s).rst = s.rst ∧ (contradictionStep s).nv = s.nv
      ∧ (contradictionStep s).free = s.free ∧ (contradictionStep s).pending = s.pending
      ∧ (∀ i, (contradictionStep s).entry i = s.entry i) ∧ (∀ i, (contradictionStep s).zone i = s.zone i) := by
  unfold contradictionStep; split <;> simp

@[simp] theorem windowAtPublication_keeps (waiting : Bool) (s : State) :
    (windowAtPublication waiting s).powered = s.powered ∧ (windowAtPublication waiting s).threePhases = s.threePhases
      ∧ (windowAtPublication waiting s).commission = s.commission ∧ (windowAtPublication waiting s).plan = s.plan
      ∧ (windowAtPublication waiting s).planDefaults = s.planDefaults
      ∧ (windowAtPublication waiting s).recordBuffer = s.recordBuffer
      ∧ (windowAtPublication waiting s).imageBuffer = s.imageBuffer ∧ (windowAtPublication waiting s).ses = s.ses
      ∧ (windowAtPublication waiting s).sup = s.sup ∧ (windowAtPublication waiting s).htr = s.htr
      ∧ (windowAtPublication waiting s).mtr = s.mtr ∧ (windowAtPublication waiting s).rst = s.rst
      ∧ (windowAtPublication waiting s).nv = s.nv ∧ (windowAtPublication waiting s).free = s.free
      ∧ (windowAtPublication waiting s).pending = s.pending ∧ (windowAtPublication waiting s).portV = s.portV
      ∧ (windowAtPublication waiting s).portP = s.portP ∧ (windowAtPublication waiting s).portF = s.portF
      ∧ (∀ p, (windowAtPublication waiting s).port p = s.port p)
      ∧ (∀ i, (windowAtPublication waiting s).entry i = s.entry i)
      ∧ (∀ i, (windowAtPublication waiting s).zone i = s.zone i) := by
  unfold windowAtPublication; (repeat' split) <;> simp

@[simp] theorem allocate_keeps (s : State) :
    (allocate s).powered = s.powered ∧ (allocate s).threePhases = s.threePhases
      ∧ (allocate s).commission = s.commission ∧ (allocate s).plan = s.plan
      ∧ (allocate s).planDefaults = s.planDefaults ∧ (allocate s).recordBuffer = s.recordBuffer
      ∧ (allocate s).imageBuffer = s.imageBuffer ∧ (allocate s).ses = s.ses ∧ (allocate s).mtr = s.mtr
      ∧ (allocate s).rst = s.rst ∧ (allocate s).nv = s.nv ∧ (allocate s).free = s.free
      ∧ (allocate s).pending = s.pending ∧ (∀ i, (allocate s).entry i = s.entry i) := by
  simp [allocate]

/-! ## Events and requests -/

@[simp] theorem releaseOwned_keeps (p : PortId) (s : State) :
    (releaseOwned p s).powered = s.powered ∧ (releaseOwned p s).threePhases = s.threePhases
      ∧ (releaseOwned p s).commission = s.commission ∧ (releaseOwned p s).plan = s.plan
      ∧ (releaseOwned p s).planDefaults = s.planDefaults ∧ (releaseOwned p s).imageBuffer = s.imageBuffer
      ∧ (releaseOwned p s).sup = s.sup ∧ (releaseOwned p s).htr = s.htr ∧ (releaseOwned p s).iso = s.iso
      ∧ (releaseOwned p s).free = s.free ∧ (releaseOwned p s).pending = s.pending
      ∧ (∀ i, (releaseOwned p s).entry i = s.entry i) ∧ (∀ i, (releaseOwned p s).zone i = s.zone i) := by
  cases p <;> simp [releaseOwned]

@[simp] theorem renewAcceptance_keeps (s : State) :
    (renewAcceptance s).powered = s.powered ∧ (renewAcceptance s).threePhases = s.threePhases
      ∧ (renewAcceptance s).commission = s.commission ∧ (renewAcceptance s).plan = s.plan
      ∧ (renewAcceptance s).planDefaults = s.planDefaults ∧ (renewAcceptance s).recordBuffer = s.recordBuffer
      ∧ (renewAcceptance s).imageBuffer = s.imageBuffer ∧ (renewAcceptance s).ses = s.ses
      ∧ (renewAcceptance s).sup = s.sup ∧ (renewAcceptance s).htr = s.htr ∧ (renewAcceptance s).iso = s.iso
      ∧ (renewAcceptance s).mtr = s.mtr ∧ (renewAcceptance s).rst = s.rst ∧ (renewAcceptance s).nv = s.nv
      ∧ (renewAcceptance s).free = s.free ∧ (renewAcceptance s).pending = s.pending
      ∧ (renewAcceptance s).portV = s.portV ∧ (renewAcceptance s).portP = s.portP
      ∧ (renewAcceptance s).portF = s.portF ∧ (∀ p, (renewAcceptance s).port p = s.port p)
      ∧ (∀ i, (renewAcceptance s).entry i = s.entry i) ∧ (∀ i, (renewAcceptance s).zone i = s.zone i) := by
  unfold renewAcceptance; (repeat' split) <;> simp

@[simp] theorem commitHeatingMode_keeps (s : State) :
    (commitHeatingMode s).powered = s.powered ∧ (commitHeatingMode s).threePhases = s.threePhases
      ∧ (commitHeatingMode s).commission = s.commission ∧ (commitHeatingMode s).plan = s.plan
      ∧ (commitHeatingMode s).planDefaults = s.planDefaults ∧ (commitHeatingMode s).recordBuffer = s.recordBuffer
      ∧ (commitHeatingMode s).imageBuffer = s.imageBuffer ∧ (commitHeatingMode s).ses = s.ses
      ∧ (commitHeatingMode s).mtr = s.mtr ∧ (commitHeatingMode s).rst = s.rst ∧ (commitHeatingMode s).nv = s.nv
      ∧ (commitHeatingMode s).free = s.free ∧ (commitHeatingMode s).pending = s.pending
      ∧ (∀ i, (commitHeatingMode s).entry i = s.entry i) := by
  simp [commitHeatingMode]

@[simp] theorem afterCommit_keeps (n : Fin 53) (s : State) :
    (afterCommit n s).powered = s.powered ∧ (afterCommit n s).threePhases = s.threePhases
      ∧ (afterCommit n s).commission = s.commission ∧ (afterCommit n s).plan = s.plan
      ∧ (afterCommit n s).planDefaults = s.planDefaults ∧ (afterCommit n s).recordBuffer = s.recordBuffer
      ∧ (afterCommit n s).imageBuffer = s.imageBuffer ∧ (afterCommit n s).ses = s.ses ∧ (afterCommit n s).mtr = s.mtr
      ∧ (afterCommit n s).rst = s.rst ∧ (afterCommit n s).nv = s.nv ∧ (afterCommit n s).free = s.free
      ∧ (afterCommit n s).pending = s.pending ∧ (∀ i, (afterCommit n s).entry i = s.entry i) := by
  unfold afterCommit; (repeat' split) <;> simp

@[simp] theorem cancelRun_keeps (s : State) :
    (cancelRun s).powered = s.powered ∧ (cancelRun s).threePhases = s.threePhases
      ∧ (cancelRun s).commission = s.commission ∧ (cancelRun s).plan = s.plan
      ∧ (cancelRun s).planDefaults = s.planDefaults ∧ (cancelRun s).recordBuffer = s.recordBuffer
      ∧ (cancelRun s).imageBuffer = s.imageBuffer ∧ (cancelRun s).ses = s.ses ∧ (cancelRun s).mtr = s.mtr
      ∧ (cancelRun s).rst = s.rst ∧ (cancelRun s).nv = s.nv ∧ (cancelRun s).free = s.free
      ∧ (cancelRun s).pending = s.pending ∧ (∀ i, (cancelRun s).entry i = s.entry i) := by
  unfold cancelRun; (repeat' split) <;> simp

@[simp] theorem setClock_keeps (sec : Word32) (s : State) :
    (setClock sec s).powered = s.powered ∧ (setClock sec s).threePhases = s.threePhases
      ∧ (setClock sec s).commission = s.commission ∧ (setClock sec s).plan = s.plan
      ∧ (setClock sec s).planDefaults = s.planDefaults ∧ (setClock sec s).recordBuffer = s.recordBuffer
      ∧ (setClock sec s).imageBuffer = s.imageBuffer ∧ (setClock sec s).ses = s.ses ∧ (setClock sec s).sup = s.sup
      ∧ (setClock sec s).alc = s.alc ∧ (setClock sec s).htr = s.htr ∧ (setClock sec s).iso = s.iso
      ∧ (setClock sec s).rst = s.rst ∧ (setClock sec s).nv = s.nv ∧ (setClock sec s).free = s.free
      ∧ (setClock sec s).pending = s.pending ∧ (setClock sec s).portV = s.portV ∧ (setClock sec s).portP = s.portP
      ∧ (setClock sec s).portF = s.portF ∧ (∀ p, (setClock sec s).port p = s.port p)
      ∧ (∀ i, (setClock sec s).entry i = s.entry i) ∧ (∀ i, (setClock sec s).zone i = s.zone i) := by
  simp [setClock]

@[simp] theorem queueImage_keeps (v : Vector Word 200) (s : State) :
    (queueImage v s).powered = s.powered ∧ (queueImage v s).threePhases = s.threePhases
      ∧ (queueImage v s).commission = s.commission ∧ (queueImage v s).plan = s.plan
      ∧ (queueImage v s).planDefaults = s.planDefaults ∧ (queueImage v s).recordBuffer = s.recordBuffer
      ∧ (queueImage v s).imageBuffer = s.imageBuffer ∧ (queueImage v s).ses = s.ses ∧ (queueImage v s).sup = s.sup
      ∧ (queueImage v s).alc = s.alc ∧ (queueImage v s).htr = s.htr ∧ (queueImage v s).iso = s.iso
      ∧ (queueImage v s).mtr = s.mtr ∧ (queueImage v s).nv = s.nv ∧ (queueImage v s).free = s.free
      ∧ (queueImage v s).pending = s.pending ∧ (queueImage v s).portV = s.portV ∧ (queueImage v s).portP = s.portP
      ∧ (queueImage v s).portF = s.portF ∧ (∀ p, (queueImage v s).port p = s.port p)
      ∧ (∀ i, (queueImage v s).entry i = s.entry i) ∧ (∀ i, (queueImage v s).zone i = s.zone i) := by
  unfold queueImage; (repeat' split) <;> simp

@[simp] theorem contactChange_keeps (c : Contact) (raw : Bool) (s : State) :
    (contactChange c raw s).powered = s.powered ∧ (contactChange c raw s).threePhases = s.threePhases
      ∧ (contactChange c raw s).commission = s.commission ∧ (contactChange c raw s).plan = s.plan
      ∧ (contactChange c raw s).planDefaults = s.planDefaults ∧ (contactChange c raw s).recordBuffer = s.recordBuffer
      ∧ (contactChange c raw s).imageBuffer = s.imageBuffer ∧ (contactChange c raw s).sup = s.sup
      ∧ (contactChange c raw s).alc = s.alc ∧ (contactChange c raw s).htr = s.htr
      ∧ (contactChange c raw s).iso = s.iso ∧ (contactChange c raw s).mtr = s.mtr
      ∧ (contactChange c raw s).rst = s.rst ∧ (contactChange c raw s).nv = s.nv
      ∧ (contactChange c raw s).free = s.free ∧ (contactChange c raw s).pending = s.pending
      ∧ (contactChange c raw s).portV = s.portV ∧ (contactChange c raw s).portP = s.portP
      ∧ (contactChange c raw s).portF = s.portF ∧ (∀ p, (contactChange c raw s).port p = s.port p)
      ∧ (∀ i, (contactChange c raw s).entry i = s.entry i) ∧ (∀ i, (contactChange c raw s).zone i = s.zone i) := by
  unfold contactChange; (repeat' split) <;> simp

@[simp] theorem putPilot_keeps (pilot : Pilot) (amps : Nat) (s : State) :
    (putPilot pilot amps s).powered = s.powered ∧ (putPilot pilot amps s).threePhases = s.threePhases
      ∧ (putPilot pilot amps s).commission = s.commission ∧ (putPilot pilot amps s).plan = s.plan
      ∧ (putPilot pilot amps s).planDefaults = s.planDefaults ∧ (putPilot pilot amps s).recordBuffer = s.recordBuffer
      ∧ (putPilot pilot amps s).imageBuffer = s.imageBuffer ∧ (putPilot pilot amps s).ses = s.ses
      ∧ (putPilot pilot amps s).alc = s.alc ∧ (putPilot pilot amps s).htr = s.htr
      ∧ (putPilot pilot amps s).iso = s.iso ∧ (putPilot pilot amps s).mtr = s.mtr
      ∧ (putPilot pilot amps s).rst = s.rst ∧ (putPilot pilot amps s).nv = s.nv
      ∧ (putPilot pilot amps s).free = s.free ∧ (putPilot pilot amps s).pending = s.pending
      ∧ (∀ i, (putPilot pilot amps s).entry i = s.entry i) ∧ (∀ i, (putPilot pilot amps s).zone i = s.zone i) := by
  simp [putPilot]

@[simp] theorem decodePilot_keeps (s : State) :
    (decodePilot s).powered = s.powered ∧ (decodePilot s).threePhases = s.threePhases
      ∧ (decodePilot s).commission = s.commission ∧ (decodePilot s).plan = s.plan
      ∧ (decodePilot s).planDefaults = s.planDefaults ∧ (decodePilot s).recordBuffer = s.recordBuffer
      ∧ (decodePilot s).imageBuffer = s.imageBuffer ∧ (decodePilot s).ses = s.ses ∧ (decodePilot s).alc = s.alc
      ∧ (decodePilot s).htr = s.htr ∧ (decodePilot s).iso = s.iso ∧ (decodePilot s).mtr = s.mtr
      ∧ (decodePilot s).rst = s.rst ∧ (decodePilot s).nv = s.nv ∧ (decodePilot s).free = s.free
      ∧ (decodePilot s).pending = s.pending ∧ (∀ i, (decodePilot s).entry i = s.entry i)
      ∧ (∀ i, (decodePilot s).zone i = s.zone i) := by
  simp [decodePilot]

@[simp] theorem pilotPeriodDone_keeps (period high : Nat) (s : State) :
    (pilotPeriodDone period high s).powered = s.powered ∧ (pilotPeriodDone period high s).threePhases = s.threePhases
      ∧ (pilotPeriodDone period high s).commission = s.commission ∧ (pilotPeriodDone period high s).plan = s.plan
      ∧ (pilotPeriodDone period high s).planDefaults = s.planDefaults
      ∧ (pilotPeriodDone period high s).recordBuffer = s.recordBuffer
      ∧ (pilotPeriodDone period high s).imageBuffer = s.imageBuffer ∧ (pilotPeriodDone period high s).ses = s.ses
      ∧ (pilotPeriodDone period high s).alc = s.alc ∧ (pilotPeriodDone period high s).htr = s.htr
      ∧ (pilotPeriodDone period high s).iso = s.iso ∧ (pilotPeriodDone period high s).mtr = s.mtr
      ∧ (pilotPeriodDone period high s).rst = s.rst ∧ (pilotPeriodDone period high s).nv = s.nv
      ∧ (pilotPeriodDone period high s).free = s.free ∧ (pilotPeriodDone period high s).pending = s.pending
      ∧ (∀ i, (pilotPeriodDone period high s).entry i = s.entry i)
      ∧ (∀ i, (pilotPeriodDone period high s).zone i = s.zone i) := by
  unfold pilotPeriodDone; dsimp only; (repeat' split) <;> simp

@[simp] theorem pilotSilent_keeps (s : State) :
    (pilotSilent s).powered = s.powered ∧ (pilotSilent s).threePhases = s.threePhases
      ∧ (pilotSilent s).commission = s.commission ∧ (pilotSilent s).plan = s.plan
      ∧ (pilotSilent s).planDefaults = s.planDefaults ∧ (pilotSilent s).recordBuffer = s.recordBuffer
      ∧ (pilotSilent s).imageBuffer = s.imageBuffer ∧ (pilotSilent s).ses = s.ses ∧ (pilotSilent s).alc = s.alc
      ∧ (pilotSilent s).htr = s.htr ∧ (pilotSilent s).iso = s.iso ∧ (pilotSilent s).mtr = s.mtr
      ∧ (pilotSilent s).rst = s.rst ∧ (pilotSilent s).nv = s.nv ∧ (pilotSilent s).free = s.free
      ∧ (pilotSilent s).pending = s.pending ∧ (pilotSilent s).portV = s.portV ∧ (pilotSilent s).portP = s.portP
      ∧ (pilotSilent s).portF = s.portF ∧ (∀ p, (pilotSilent s).port p = s.port p)
      ∧ (∀ i, (pilotSilent s).entry i = s.entry i) ∧ (∀ i, (pilotSilent s).zone i = s.zone i) := by
  unfold pilotSilent; (repeat' split) <;> simp

@[simp] theorem pilotLost_keeps (s : State) :
    (pilotLost s).powered = s.powered ∧ (pilotLost s).threePhases = s.threePhases
      ∧ (pilotLost s).commission = s.commission ∧ (pilotLost s).plan = s.plan
      ∧ (pilotLost s).planDefaults = s.planDefaults ∧ (pilotLost s).recordBuffer = s.recordBuffer
      ∧ (pilotLost s).imageBuffer = s.imageBuffer ∧ (pilotLost s).ses = s.ses ∧ (pilotLost s).alc = s.alc
      ∧ (pilotLost s).htr = s.htr ∧ (pilotLost s).iso = s.iso ∧ (pilotLost s).mtr = s.mtr ∧ (pilotLost s).rst = s.rst
      ∧ (pilotLost s).nv = s.nv ∧ (pilotLost s).free = s.free ∧ (pilotLost s).pending = s.pending
      ∧ (∀ i, (pilotLost s).entry i = s.entry i) ∧ (∀ i, (pilotLost s).zone i = s.zone i) := by
  unfold pilotLost; (repeat' split) <;> simp

@[simp] theorem phaseWindow_keeps (u1 u2 u3 : Nat) (s : State) :
    (phaseWindow u1 u2 u3 s).powered = s.powered ∧ (phaseWindow u1 u2 u3 s).threePhases = s.threePhases
      ∧ (phaseWindow u1 u2 u3 s).commission = s.commission ∧ (phaseWindow u1 u2 u3 s).plan = s.plan
      ∧ (phaseWindow u1 u2 u3 s).planDefaults = s.planDefaults
      ∧ (phaseWindow u1 u2 u3 s).recordBuffer = s.recordBuffer ∧ (phaseWindow u1 u2 u3 s).imageBuffer = s.imageBuffer
      ∧ (phaseWindow u1 u2 u3 s).ses = s.ses ∧ (phaseWindow u1 u2 u3 s).alc = s.alc
      ∧ (phaseWindow u1 u2 u3 s).htr = s.htr ∧ (phaseWindow u1 u2 u3 s).iso = s.iso
      ∧ (phaseWindow u1 u2 u3 s).mtr = s.mtr ∧ (phaseWindow u1 u2 u3 s).rst = s.rst
      ∧ (phaseWindow u1 u2 u3 s).nv = s.nv ∧ (phaseWindow u1 u2 u3 s).free = s.free
      ∧ (phaseWindow u1 u2 u3 s).pending = s.pending ∧ (phaseWindow u1 u2 u3 s).portV = s.portV
      ∧ (phaseWindow u1 u2 u3 s).portP = s.portP ∧ (phaseWindow u1 u2 u3 s).portF = s.portF
      ∧ (∀ p, (phaseWindow u1 u2 u3 s).port p = s.port p) ∧ (∀ i, (phaseWindow u1 u2 u3 s).entry i = s.entry i)
      ∧ (∀ i, (phaseWindow u1 u2 u3 s).zone i = s.zone i) := by
  simp [phaseWindow]

@[simp] theorem acceptanceExpired_keeps (s : State) :
    (acceptanceExpired s).powered = s.powered ∧ (acceptanceExpired s).threePhases = s.threePhases
      ∧ (acceptanceExpired s).commission = s.commission ∧ (acceptanceExpired s).plan = s.plan
      ∧ (acceptanceExpired s).planDefaults = s.planDefaults ∧ (acceptanceExpired s).recordBuffer = s.recordBuffer
      ∧ (acceptanceExpired s).imageBuffer = s.imageBuffer ∧ (acceptanceExpired s).ses = s.ses
      ∧ (acceptanceExpired s).sup = s.sup ∧ (acceptanceExpired s).htr = s.htr ∧ (acceptanceExpired s).iso = s.iso
      ∧ (acceptanceExpired s).mtr = s.mtr ∧ (acceptanceExpired s).rst = s.rst ∧ (acceptanceExpired s).nv = s.nv
      ∧ (acceptanceExpired s).free = s.free ∧ (acceptanceExpired s).pending = s.pending
      ∧ (∀ i, (acceptanceExpired s).entry i = s.entry i) ∧ (∀ i, (acceptanceExpired s).zone i = s.zone i) := by
  unfold acceptanceExpired; (repeat' split) <;> simp

@[simp] theorem readyChanged_keeps (b : Bool) (s : State) :
    (readyChanged b s).powered = s.powered ∧ (readyChanged b s).threePhases = s.threePhases
      ∧ (readyChanged b s).commission = s.commission ∧ (readyChanged b s).plan = s.plan
      ∧ (readyChanged b s).planDefaults = s.planDefaults ∧ (readyChanged b s).recordBuffer = s.recordBuffer
      ∧ (readyChanged b s).imageBuffer = s.imageBuffer ∧ (readyChanged b s).ses = s.ses
      ∧ (readyChanged b s).sup = s.sup ∧ (readyChanged b s).htr = s.htr ∧ (readyChanged b s).iso = s.iso
      ∧ (readyChanged b s).mtr = s.mtr ∧ (readyChanged b s).rst = s.rst ∧ (readyChanged b s).nv = s.nv
      ∧ (readyChanged b s).free = s.free ∧ (readyChanged b s).pending = s.pending
      ∧ (∀ i, (readyChanged b s).entry i = s.entry i) ∧ (∀ i, (readyChanged b s).zone i = s.zone i) := by
  unfold readyChanged; dsimp only; (repeat' split) <;> simp

@[simp] theorem faultChanged_keeps (b : Bool) (s : State) :
    (faultChanged b s).powered = s.powered ∧ (faultChanged b s).threePhases = s.threePhases
      ∧ (faultChanged b s).commission = s.commission ∧ (faultChanged b s).plan = s.plan
      ∧ (faultChanged b s).planDefaults = s.planDefaults ∧ (faultChanged b s).recordBuffer = s.recordBuffer
      ∧ (faultChanged b s).imageBuffer = s.imageBuffer ∧ (faultChanged b s).ses = s.ses
      ∧ (faultChanged b s).sup = s.sup ∧ (faultChanged b s).htr = s.htr ∧ (faultChanged b s).iso = s.iso
      ∧ (faultChanged b s).mtr = s.mtr ∧ (faultChanged b s).rst = s.rst ∧ (faultChanged b s).nv = s.nv
      ∧ (faultChanged b s).free = s.free ∧ (faultChanged b s).pending = s.pending
      ∧ (∀ i, (faultChanged b s).entry i = s.entry i) ∧ (∀ i, (faultChanged b s).zone i = s.zone i) := by
  unfold faultChanged; dsimp only; (repeat' split) <;> simp

@[simp] theorem recovered_keeps (s : State) :
    (recovered s).powered = s.powered ∧ (recovered s).threePhases = s.threePhases
      ∧ (recovered s).commission = s.commission ∧ (recovered s).plan = s.plan
      ∧ (recovered s).planDefaults = s.planDefaults ∧ (recovered s).recordBuffer = s.recordBuffer
      ∧ (recovered s).imageBuffer = s.imageBuffer ∧ (recovered s).ses = s.ses ∧ (recovered s).sup = s.sup
      ∧ (recovered s).htr = s.htr ∧ (recovered s).iso = s.iso ∧ (recovered s).mtr = s.mtr ∧ (recovered s).rst = s.rst
      ∧ (recovered s).nv = s.nv ∧ (recovered s).free = s.free ∧ (recovered s).pending = s.pending
      ∧ (recovered s).portV = s.portV ∧ (recovered s).portP = s.portP ∧ (recovered s).portF = s.portF
      ∧ (∀ p, (recovered s).port p = s.port p) ∧ (∀ i, (recovered s).entry i = s.entry i)
      ∧ (∀ i, (recovered s).zone i = s.zone i) := by
  unfold recovered; (repeat' split) <;> simp

@[simp] theorem applyNext_keeps (s : State) :
    (applyNext s).powered = s.powered ∧ (applyNext s).threePhases = s.threePhases
      ∧ (applyNext s).commission = s.commission ∧ (applyNext s).plan = s.plan
      ∧ (applyNext s).planDefaults = s.planDefaults ∧ (applyNext s).recordBuffer = s.recordBuffer
      ∧ (applyNext s).imageBuffer = s.imageBuffer ∧ (applyNext s).ses = s.ses ∧ (applyNext s).mtr = s.mtr
      ∧ (applyNext s).rst = s.rst ∧ (applyNext s).nv = s.nv ∧ (applyNext s).free = s.free
      ∧ (applyNext s).pending = s.pending ∧ (∀ i, (applyNext s).entry i = s.entry i) := by
  unfold applyNext; (repeat' split) <;> simp

@[simp] theorem pulseDue_keeps (s : State) :
    (pulseDue s).powered = s.powered ∧ (pulseDue s).threePhases = s.threePhases
      ∧ (pulseDue s).commission = s.commission ∧ (pulseDue s).plan = s.plan
      ∧ (pulseDue s).planDefaults = s.planDefaults ∧ (pulseDue s).recordBuffer = s.recordBuffer
      ∧ (pulseDue s).imageBuffer = s.imageBuffer ∧ (pulseDue s).ses = s.ses ∧ (pulseDue s).mtr = s.mtr
      ∧ (pulseDue s).rst = s.rst ∧ (pulseDue s).nv = s.nv ∧ (pulseDue s).free = s.free
      ∧ (pulseDue s).pending = s.pending ∧ (∀ i, (pulseDue s).entry i = s.entry i) := by
  unfold pulseDue; (repeat' split) <;> simp

@[simp] theorem pulseEnded_keeps (amps : Nat) (s : State) :
    (pulseEnded amps s).powered = s.powered ∧ (pulseEnded amps s).threePhases = s.threePhases
      ∧ (pulseEnded amps s).commission = s.commission ∧ (pulseEnded amps s).plan = s.plan
      ∧ (pulseEnded amps s).planDefaults = s.planDefaults ∧ (pulseEnded amps s).recordBuffer = s.recordBuffer
      ∧ (pulseEnded amps s).imageBuffer = s.imageBuffer ∧ (pulseEnded amps s).ses = s.ses
      ∧ (pulseEnded amps s).mtr = s.mtr ∧ (pulseEnded amps s).rst = s.rst ∧ (pulseEnded amps s).nv = s.nv
      ∧ (pulseEnded amps s).free = s.free ∧ (pulseEnded amps s).pending = s.pending
      ∧ (∀ i, (pulseEnded amps s).entry i = s.entry i) := by
  unfold pulseEnded; (repeat' split) <;> simp

@[simp] theorem convertAll_keeps (readings : Vector Thermistor 8) (s : State) :
    (convertAll readings s).powered = s.powered ∧ (convertAll readings s).threePhases = s.threePhases
      ∧ (convertAll readings s).commission = s.commission ∧ (convertAll readings s).plan = s.plan
      ∧ (convertAll readings s).planDefaults = s.planDefaults ∧ (convertAll readings s).recordBuffer = s.recordBuffer
      ∧ (convertAll readings s).imageBuffer = s.imageBuffer ∧ (convertAll readings s).ses = s.ses
      ∧ (convertAll readings s).mtr = s.mtr ∧ (convertAll readings s).rst = s.rst ∧ (convertAll readings s).nv = s.nv
      ∧ (convertAll readings s).free = s.free ∧ (convertAll readings s).pending = s.pending
      ∧ (∀ i, (convertAll readings s).entry i = s.entry i) := by
  simp [convertAll, zoneIds]

@[simp] theorem slotExpired_keeps (s : State) :
    (slotExpired s).powered = s.powered ∧ (slotExpired s).threePhases = s.threePhases
      ∧ (slotExpired s).commission = s.commission ∧ (slotExpired s).plan = s.plan
      ∧ (slotExpired s).planDefaults = s.planDefaults ∧ (slotExpired s).recordBuffer = s.recordBuffer
      ∧ (slotExpired s).imageBuffer = s.imageBuffer ∧ (slotExpired s).ses = s.ses ∧ (slotExpired s).sup = s.sup
      ∧ (slotExpired s).alc = s.alc ∧ (slotExpired s).iso = s.iso ∧ (slotExpired s).mtr = s.mtr
      ∧ (slotExpired s).rst = s.rst ∧ (slotExpired s).nv = s.nv ∧ (slotExpired s).free = s.free
      ∧ (slotExpired s).pending = s.pending ∧ (slotExpired s).portV = s.portV ∧ (slotExpired s).portP = s.portP
      ∧ (slotExpired s).portF = s.portF ∧ (∀ p, (slotExpired s).port p = s.port p)
      ∧ (∀ i, (slotExpired s).entry i = s.entry i) := by
  unfold slotExpired; (repeat' split) <;> simp

@[simp] theorem energizedConversion_keeps (s : State) :
    (energizedConversion s).powered = s.powered ∧ (energizedConversion s).threePhases = s.threePhases
      ∧ (energizedConversion s).commission = s.commission ∧ (energizedConversion s).plan = s.plan
      ∧ (energizedConversion s).planDefaults = s.planDefaults ∧ (energizedConversion s).recordBuffer = s.recordBuffer
      ∧ (energizedConversion s).imageBuffer = s.imageBuffer ∧ (energizedConversion s).nv = s.nv
      ∧ (energizedConversion s).free = s.free ∧ (energizedConversion s).pending = s.pending
      ∧ (∀ i, (energizedConversion s).entry i = s.entry i) := by
  unfold energizedConversion; dsimp only; (repeat' split) <;> simp

@[simp] theorem deadConversion_keeps (s : State) :
    (deadConversion s).powered = s.powered ∧ (deadConversion s).threePhases = s.threePhases
      ∧ (deadConversion s).commission = s.commission ∧ (deadConversion s).plan = s.plan
      ∧ (deadConversion s).planDefaults = s.planDefaults ∧ (deadConversion s).recordBuffer = s.recordBuffer
      ∧ (deadConversion s).imageBuffer = s.imageBuffer ∧ (deadConversion s).ses = s.ses
      ∧ (deadConversion s).sup = s.sup ∧ (deadConversion s).mtr = s.mtr ∧ (deadConversion s).rst = s.rst
      ∧ (deadConversion s).nv = s.nv ∧ (deadConversion s).free = s.free ∧ (deadConversion s).pending = s.pending
      ∧ (deadConversion s).portV = s.portV ∧ (deadConversion s).portP = s.portP ∧ (deadConversion s).portF = s.portF
      ∧ (∀ p, (deadConversion s).port p = s.port p) ∧ (∀ i, (deadConversion s).entry i = s.entry i) := by
  unfold deadConversion; dsimp only; (repeat' split) <;> simp

@[simp] theorem busConverted_keeps (up un : Nat) (s : State) :
    (busConverted up un s).powered = s.powered ∧ (busConverted up un s).threePhases = s.threePhases
      ∧ (busConverted up un s).commission = s.commission ∧ (busConverted up un s).plan = s.plan
      ∧ (busConverted up un s).planDefaults = s.planDefaults ∧ (busConverted up un s).recordBuffer = s.recordBuffer
      ∧ (busConverted up un s).imageBuffer = s.imageBuffer ∧ (busConverted up un s).nv = s.nv
      ∧ (busConverted up un s).free = s.free ∧ (busConverted up un s).pending = s.pending
      ∧ (∀ i, (busConverted up un s).entry i = s.entry i) := by
  unfold busConverted; dsimp only; (repeat' split) <;> simp

@[simp] theorem periodExpired_keeps (s : State) :
    (periodExpired s).powered = s.powered ∧ (periodExpired s).threePhases = s.threePhases
      ∧ (periodExpired s).commission = s.commission ∧ (periodExpired s).plan = s.plan
      ∧ (periodExpired s).planDefaults = s.planDefaults ∧ (periodExpired s).recordBuffer = s.recordBuffer
      ∧ (periodExpired s).imageBuffer = s.imageBuffer ∧ (periodExpired s).sup = s.sup ∧ (periodExpired s).htr = s.htr
      ∧ (periodExpired s).mtr = s.mtr ∧ (periodExpired s).rst = s.rst ∧ (periodExpired s).nv = s.nv
      ∧ (periodExpired s).free = s.free ∧ (periodExpired s).pending = s.pending
      ∧ (∀ i, (periodExpired s).entry i = s.entry i) ∧ (∀ i, (periodExpired s).zone i = s.zone i) := by
  unfold periodExpired; dsimp only; (repeat' split) <;> simp

@[simp] theorem phaseEnded_keeps (s : State) :
    (phaseEnded s).powered = s.powered ∧ (phaseEnded s).threePhases = s.threePhases
      ∧ (phaseEnded s).commission = s.commission ∧ (phaseEnded s).plan = s.plan
      ∧ (phaseEnded s).planDefaults = s.planDefaults ∧ (phaseEnded s).recordBuffer = s.recordBuffer
      ∧ (phaseEnded s).imageBuffer = s.imageBuffer ∧ (phaseEnded s).nv = s.nv ∧ (phaseEnded s).free = s.free
      ∧ (phaseEnded s).pending = s.pending ∧ (∀ i, (phaseEnded s).entry i = s.entry i) := by
  unfold phaseEnded; (repeat' split) <;> simp

@[simp] theorem sampled_keeps (up un : Nat) (s : State) :
    (sampled up un s).powered = s.powered ∧ (sampled up un s).threePhases = s.threePhases
      ∧ (sampled up un s).commission = s.commission ∧ (sampled up un s).plan = s.plan
      ∧ (sampled up un s).planDefaults = s.planDefaults ∧ (sampled up un s).recordBuffer = s.recordBuffer
      ∧ (sampled up un s).imageBuffer = s.imageBuffer ∧ (sampled up un s).ses = s.ses ∧ (sampled up un s).sup = s.sup
      ∧ (sampled up un s).alc = s.alc ∧ (sampled up un s).htr = s.htr ∧ (sampled up un s).mtr = s.mtr
      ∧ (sampled up un s).rst = s.rst ∧ (sampled up un s).nv = s.nv ∧ (sampled up un s).free = s.free
      ∧ (sampled up un s).pending = s.pending ∧ (sampled up un s).portV = s.portV ∧ (sampled up un s).portP = s.portP
      ∧ (sampled up un s).portF = s.portF ∧ (∀ p, (sampled up un s).port p = s.port p)
      ∧ (∀ i, (sampled up un s).entry i = s.entry i) ∧ (∀ i, (sampled up un s).zone i = s.zone i) := by
  unfold sampled; (repeat' split) <;> simp

@[simp] theorem meterTick_keeps (p1 p2 p3 : Int) (s : State) :
    (meterTick p1 p2 p3 s).powered = s.powered ∧ (meterTick p1 p2 p3 s).threePhases = s.threePhases
      ∧ (meterTick p1 p2 p3 s).commission = s.commission ∧ (meterTick p1 p2 p3 s).plan = s.plan
      ∧ (meterTick p1 p2 p3 s).planDefaults = s.planDefaults ∧ (meterTick p1 p2 p3 s).recordBuffer = s.recordBuffer
      ∧ (meterTick p1 p2 p3 s).imageBuffer = s.imageBuffer ∧ (meterTick p1 p2 p3 s).sup = s.sup
      ∧ (meterTick p1 p2 p3 s).alc = s.alc ∧ (meterTick p1 p2 p3 s).htr = s.htr ∧ (meterTick p1 p2 p3 s).iso = s.iso
      ∧ (meterTick p1 p2 p3 s).free = s.free ∧ (meterTick p1 p2 p3 s).pending = s.pending
      ∧ (meterTick p1 p2 p3 s).portV = s.portV ∧ (meterTick p1 p2 p3 s).portP = s.portP
      ∧ (meterTick p1 p2 p3 s).portF = s.portF ∧ (∀ p, (meterTick p1 p2 p3 s).port p = s.port p)
      ∧ (∀ i, (meterTick p1 p2 p3 s).entry i = s.entry i) ∧ (∀ i, (meterTick p1 p2 p3 s).zone i = s.zone i) := by
  simp [meterTick]

@[simp] theorem checkpointDone_keeps (s : State) :
    (checkpointDone s).powered = s.powered ∧ (checkpointDone s).threePhases = s.threePhases
      ∧ (checkpointDone s).commission = s.commission ∧ (checkpointDone s).plan = s.plan
      ∧ (checkpointDone s).planDefaults = s.planDefaults ∧ (checkpointDone s).recordBuffer = s.recordBuffer
      ∧ (checkpointDone s).imageBuffer = s.imageBuffer ∧ (checkpointDone s).ses = s.ses
      ∧ (checkpointDone s).sup = s.sup ∧ (checkpointDone s).alc = s.alc ∧ (checkpointDone s).htr = s.htr
      ∧ (checkpointDone s).iso = s.iso ∧ (checkpointDone s).mtr = s.mtr ∧ (checkpointDone s).free = s.free
      ∧ (checkpointDone s).pending = s.pending ∧ (checkpointDone s).portV = s.portV
      ∧ (checkpointDone s).portP = s.portP ∧ (checkpointDone s).portF = s.portF
      ∧ (∀ p, (checkpointDone s).port p = s.port p) ∧ (∀ i, (checkpointDone s).entry i = s.entry i)
      ∧ (∀ i, (checkpointDone s).zone i = s.zone i) := by
  unfold checkpointDone; (repeat' split) <;> simp

@[simp] theorem finalDone_keeps (s : State) :
    (finalDone s).powered = s.powered ∧ (finalDone s).threePhases = s.threePhases
      ∧ (finalDone s).commission = s.commission ∧ (finalDone s).plan = s.plan
      ∧ (finalDone s).planDefaults = s.planDefaults ∧ (finalDone s).recordBuffer = s.recordBuffer
      ∧ (finalDone s).imageBuffer = s.imageBuffer ∧ (finalDone s).alc = s.alc ∧ (finalDone s).htr = s.htr
      ∧ (finalDone s).iso = s.iso ∧ (finalDone s).free = s.free ∧ (finalDone s).pending = s.pending
      ∧ (∀ i, (finalDone s).entry i = s.entry i) ∧ (∀ i, (finalDone s).zone i = s.zone i) := by
  unfold finalDone; dsimp only; (repeat' split) <;> simp

@[simp] theorem imageDone_keeps (s : State) :
    (imageDone s).powered = s.powered ∧ (imageDone s).threePhases = s.threePhases
      ∧ (imageDone s).commission = s.commission ∧ (imageDone s).plan = s.plan
      ∧ (imageDone s).planDefaults = s.planDefaults ∧ (imageDone s).recordBuffer = s.recordBuffer
      ∧ (imageDone s).imageBuffer = s.imageBuffer ∧ (imageDone s).ses = s.ses ∧ (imageDone s).sup = s.sup
      ∧ (imageDone s).alc = s.alc ∧ (imageDone s).htr = s.htr ∧ (imageDone s).iso = s.iso ∧ (imageDone s).mtr = s.mtr
      ∧ (imageDone s).free = s.free ∧ (imageDone s).pending = s.pending ∧ (imageDone s).portV = s.portV
      ∧ (imageDone s).portP = s.portP ∧ (imageDone s).portF = s.portF ∧ (∀ p, (imageDone s).port p = s.port p)
      ∧ (∀ i, (imageDone s).entry i = s.entry i) ∧ (∀ i, (imageDone s).zone i = s.zone i) := by
  unfold imageDone; (repeat' split) <;> simp

end Sys2Proof.Machine
end

