-- ==== Sys2Proof/Laws/Ports.lean ====
section
/-! SUPPORT. Laws/Ports.lean: every shared operation of the blocks moves the ports in their notices alone, and loses no pending
kind (R175); and which kinds the operations raise. -/

namespace Sys2Proof.Machine

/-- A raise on a state whose ports are those of s. -/
theorem raise_grows_of_eq {s a : State} (k : Notice) (h : ∀ p, a.port p = s.port p) : Grows s (raise k a) :=
  (Grows.of_eq h).trans (raise_grows k a)

theorem raise_toldAll_of_grows {s a : State} (k : Notice) (h : Grows s a) : ToldAll k s (raise k a) :=
  (raise_toldAll k a).after h

/-! ## Ops -/

theorem evalDemand_grows (s : State) : Grows s (evalDemand s) := .of_eq (by simp)
theorem watchRecord_grows (s : State) : Grows s (watchRecord s) := .of_eq (by simp)
theorem stageFaultWith_grows (c : StageCause) (s : State) : Grows s (stageFaultWith c s) :=
  raise_grows_of_eq _ (by simp)
theorem immediateOff_grows (s : State) : Grows s (immediateOff s) := .of_eq (by simp)
theorem markHoldWithdrawn_grows (s : State) : Grows s (markHoldWithdrawn s) := .of_eq (by simp)

theorem dropHoldWithNotice_grows (s : State) : Grows s (dropHoldWithNotice s) := by
  unfold dropHoldWithNotice; split
  · exact .refl s
  · exact raise_grows_of_eq _ (by simp)

theorem endHoldByGrade_grows (s : State) : Grows s (endHoldByGrade s) := by
  unfold endHoldByGrade; split
  · exact .refl s
  · exact (raise_grows_of_eq _ (by simp)).trans (markHoldWithdrawn_grows _)

theorem suspendHold_grows (s : State) : Grows s (suspendHold s) := by
  unfold suspendHold; split
  · exact (raise_grows_of_eq _ (by simp)).trans (markHoldWithdrawn_grows _)
  · exact .refl s

theorem restoreHold_grows (s : State) : Grows s (restoreHold s) := by
  unfold restoreHold; split
  · exact raise_grows_of_eq _ (by simp)
  · exact .refl s

theorem endRestWithNotice_grows (s : State) : Grows s (endRestWithNotice s) := by
  unfold endRestWithNotice; split
  · exact raise_grows_of_eq _ (by simp)
  · exact .refl s

/-! ## Store and meter -/

theorem raiseStoreLow_grows (s : State) : Grows s (raiseStoreLow s) := raiseIf_grows _ _ s
theorem evaluateBand_grows (s : State) : Grows s (evaluateBand s) := .of_eq (by simp)

theorem breakLock_grows (s : State) : Grows s (breakLock s) := by
  unfold breakLock; split
  · exact (raise_grows_of_eq _ (by simp)).trans (evaluateBand_grows _)
  · exact .refl s

/-! ## Session -/

theorem enterSession_grows (st : SessionState) (s : State) : Grows s (enterSession st s) :=
  (raise_grows_of_eq _ (by simp)).trans (evalDemand_grows _)

theorem enterSession_told (st : SessionState) (s : State) : ToldAll .sessionChange s (enterSession st s) :=
  ((raise_toldAll _ _).grow (evalDemand_grows _)).after (.of_eq (by simp))

theorem openSession_grows (tag : Option Tag) (s : State) : Grows s (openSession tag s) :=
  (raise_grows_of_eq _ (by simp)).trans (evalDemand_grows _)

theorem openSession_told (tag : Option Tag) (s : State) : ToldAll .sessionChange s (openSession tag s) :=
  ((raise_toldAll _ _).grow (evalDemand_grows _)).after (.of_eq (by simp))

theorem authorizeSession_grows (tag : Option Tag) (s : State) : Grows s (authorizeSession tag s) := by
  unfold authorizeSession; split
  · exact openSession_grows tag s
  · exact .refl s

theorem closeSession_grows (reason : CloseReason) (s : State) : Grows s (closeSession reason s) := by
  unfold closeSession; split
  · exact (raise_grows_of_eq _ (by simp)).trans (evalDemand_grows _)
  · exact .refl s

theorem closeSession_told (reason : CloseReason) (s : State) (h : s.ses.session = .opened) :
    ToldAll .sessionChange s (closeSession reason s) := by
  unfold closeSession; rw [if_pos h]
  exact ((raise_toldAll _ _).grow (evalDemand_grows _)).after (.of_eq (by simp))

theorem leaveClosing_grows (s : State) : Grows s (leaveClosing s) := by
  unfold leaveClosing; split
  · exact (Grows.of_eq (by simp)).trans (enterSession_grows _ _)
  · exact .refl s

theorem leaveClosing_told (s : State) (h : s.ses.session = .closing) : ToldAll .sessionChange s (leaveClosing s) := by
  unfold leaveClosing; rw [if_pos h]
  exact (enterSession_told _ _).after (.of_eq (by simp))

theorem autoOpen_grows (s : State) : Grows s (autoOpen s) := by
  unfold autoOpen; split
  · exact authorizeSession_grows none s
  · exact .refl s

theorem plugEnters_grows (s : State) : Grows s (plugEnters s) := by
  unfold plugEnters; split
  · exact (enterSession_grows _ s).trans (autoOpen_grows _)
  · exact evalDemand_grows s

theorem sessionUnplugged_grows (s : State) : Grows s (sessionUnplugged s) := by
  unfold sessionUnplugged; split
  · exact closeSession_grows _ s
  · exact enterSession_grows _ s
  · exact .refl s

theorem scopedRestore_grows (s : State) : Grows s (scopedRestore s) := .of_eq (by simp)

theorem plugLeaves_grows (s : State) : Grows s (plugLeaves s) :=
  ((evalDemand_grows s).trans ((immediateOff_grows _).trans (sessionUnplugged_grows _))).trans (scopedRestore_grows _)

theorem putPlug_grows (new : Plug) (s : State) : Grows s (putPlug new s) := by
  have h : Grows s (raise .plugChange (s.setSes { s.ses with plug := new })) := raise_grows_of_eq _ (by simp)
  unfold putPlug; dsimp only; split
  · exact .refl s
  · split
    · exact h.trans (plugLeaves_grows _)
    · split
      · exact h.trans (plugEnters_grows _)
      · exact h.trans (evalDemand_grows _)

theorem putPlug_told (new : Plug) (s : State) (hn : new ≠ s.ses.plug) : ToldAll .plugChange s (putPlug new s) := by
  have h : ToldAll .plugChange s (raise .plugChange (s.setSes { s.ses with plug := new })) :=
    (raise_toldAll _ _).after (.of_eq (by simp))
  unfold putPlug; dsimp only; rw [if_neg hn]; split
  · exact h.grow (plugLeaves_grows _)
  · split
    · exact h.grow (plugEnters_grows _)
    · exact h.grow (evalDemand_grows _)

theorem derivePlug_grows (s : State) : Grows s (derivePlug s) := by
  unfold derivePlug; split
  · exact putPlug_grows _ s
  · exact .refl s

/-! ## Monitor -/

theorem testOverdue_grows (s : State) : Grows s (testOverdue s) := by
  unfold testOverdue; dsimp only; split
  · exact (Grows.of_eq (by simp)).trans (suspendHold_grows _)
  · exact .of_eq (by simp)

theorem raiseAge_grows (s : State) : Grows s (raiseAge s) := (Grows.of_eq (by simp)).trans (testOverdue_grows _)

theorem completeMeasurement_grows (s : State) : Grows s (completeMeasurement s) :=
  ((Grows.of_eq (by simp)).trans (testOverdue_grows _)).trans (restoreHold_grows _)

/-! ## Heater -/

theorem applyPending_grows (s : State) : Grows s (applyPending s) := by
  unfold applyPending; split
  · exact .refl s
  · split
    · exact .refl s
    · exact raise_grows_of_eq _ (by simp)

theorem heaterChanged_grows (before : Htr) (s : State) : Grows s (heaterChanged before s) :=
  ((Grows.of_eq (by simp)).trans (applyPending_grows _)).trans (evalDemand_grows _)

theorem forcedDeenergize_grows (s : State) : Grows s (forcedDeenergize s) :=
  (Grows.of_eq (by simp)).trans (heaterChanged_grows _ _)

theorem endProbe_grows (z : Fin 8) (leak : Bool) (s : State) : Grows s (endProbe z leak s) :=
  ((Grows.of_eq (by simp)).trans (raiseIf_grows _ _ _)).trans (heaterChanged_grows _ _)

theorem heaterConvert_grows (z : Fin 8) (r : Thermistor) (s : State) : Grows s (heaterConvert z r s) :=
  (Grows.of_eq (by simp)).trans (raiseIf_grows _ _ _)

theorem applyRecord_grows (r : GrantRecord) (s : State) : Grows s (applyRecord r s) :=
  (Grows.of_eq (by simp)).trans (heaterChanged_grows _ _)

/-! ## Grade and localization -/

theorem setLockout_grows (s : State) : Grows s (setLockout s) := by
  unfold setLockout; split
  · exact .of_eq (by intro p; split <;> simp)
  · exact raise_grows_of_eq _ (by simp)

theorem setLockout_told (s : State) (h : s.iso.lockout = false) : ToldAll .lockoutChange s (setLockout s) := by
  unfold setLockout; rw [if_neg (by simp [h])]
  exact (raise_toldAll _ _).after (.of_eq (by simp))

theorem gradeLost_grows (old new : Grade) (s : State) : Grows s (gradeLost old new s) := by
  have ha : Grows s (if old.isProven && !new.isProven then endHoldByGrade s else s) := by
    split
    · exact endHoldByGrade_grows s
    · exact .refl s
  have hb : Grows s (if new = .fault then
      closeSession .isolation (setLockout (if old.isProven && !new.isProven then endHoldByGrade s else s))
      else (if old.isProven && !new.isProven then endHoldByGrade s else s)) := by
    split
    · exact ha.trans ((setLockout_grows _).trans (closeSession_grows _ _))
    · exact ha
  unfold gradeLost; dsimp only; split
  · exact hb.trans (forcedDeenergize_grows _)
  · exact hb

theorem changeGrade_grows (new : Grade) (s : State) : Grows s (changeGrade new s) := by
  unfold changeGrade; split
  · exact .refl s
  · exact ((raise_grows_of_eq _ (by simp)).trans (gradeLost_grows _ _ _)).trans (evalDemand_grows _)

theorem changeGrade_told (new : Grade) (s : State) (h : new ≠ s.iso.grade) :
    ToldAll .gradeChange s (changeGrade new s) := by
  unfold changeGrade; rw [if_neg h]
  exact (((raise_toldAll _ _).grow (gradeLost_grows _ _ _)).grow (evalDemand_grows _)).after (.of_eq (by simp))

theorem decideGrade_grows (r : ResultClass) (s : State) : Grows s (decideGrade r s) := by
  unfold decideGrade
  (repeat' split) <;> first | exact changeGrade_grows _ s | exact .of_eq (by simp)

theorem clearTheLockout_grows (s : State) : Grows s (clearTheLockout s) := raise_grows_of_eq _ (by simp)

theorem requestMeasurement_grows (purpose : Purpose) (s : State) : Grows s (requestMeasurement purpose s) :=
  .of_eq (by simp)

theorem startProbe_grows (z : Fin 8) (b : BeforeProbe) (s : State) : Grows s (startProbe z b s) := by
  unfold startProbe; dsimp only
  refine Grows.trans ?_ (requestMeasurement_grows _ _)
  refine (Grows.of_eq (by simp)).trans ((heaterChanged_grows s.htr (s.setHtr (s.htr.enter z (.probed b)))).trans ?_)
  exact .of_eq (by simp)

theorem endRun_grows (s : State) : Grows s (endRun s) := by
  unfold endRun; split
  · exact .of_eq (by simp)
  · dsimp only
    have h : Grows s (clearTheLockout (s.setIso { s.iso with localization := .doneCulprit, candidate := none })) :=
      (Grows.of_eq (by simp)).trans (clearTheLockout_grows _)
    split
    · exact (h.trans (changeGrade_grows _ _)).trans (evalDemand_grows _)
    · exact h.trans (evalDemand_grows _)

theorem localizationStep_grows (s : State) : Grows s (localizationStep s) := by
  unfold localizationStep
  split
  · split
    · exact (Grows.of_eq (by simp)).trans (requestMeasurement_grows _ _)
    · exact requestMeasurement_grows _ s
    · split
      · exact startProbe_grows _ _ s
      · exact endRun_grows s
    · exact .refl s
  · exact .refl s

theorem restartRun_grows (s : State) : Grows s (restartRun s) := by
  unfold restartRun; split
  · exact (Grows.of_eq (by simp)).trans (endProbe_grows _ _ _)
  · exact .of_eq (by simp)
  · exact .refl s

theorem longDeadEnergization_grows (s : State) : Grows s (longDeadEnergization s) := by
  have h : Grows s (restartRun (changeGrade .unknown (s.setIso { s.iso with longDead := false }))) :=
    ((Grows.of_eq (by simp)).trans (changeGrade_grows _ _)).trans (restartRun_grows _)
  unfold longDeadEnergization; dsimp only; split
  · exact h.trans (.of_eq (by simp))
  · exact h

theorem useResult_grows (c : ResultClass) (s : State) : Grows s (useResult c s) := by
  unfold useResult
  split <;> first | exact decideGrade_grows c s | exact .of_eq (by simp)

theorem endProbeAfter_grows (purpose : Option Purpose) (l : Localization) (c : ResultClass) (s : State) :
    Grows s (endProbeAfter purpose l c s) := by
  unfold endProbeAfter
  split
  · exact endProbe_grows _ _ s
  · exact .refl s

theorem validResult_grows (r : IsoResult) (s : State) : Grows s (validResult r s) := by
  unfold validResult; dsimp only
  refine Grows.trans ?_ (endProbeAfter_grows _ _ _ _)
  refine Grows.trans ?_ (.of_eq (by simp; exact fun _ => rfl))
  refine Grows.trans ?_ (completeMeasurement_grows _)
  refine Grows.trans ?_ (useResult_grows _ _)
  exact .of_eq (by simp)

theorem finishMeasurement_grows (s : State) : Grows s (finishMeasurement s) := by
  unfold finishMeasurement; dsimp only; split
  · exact (Grows.of_eq (by simp)).trans (validResult_grows _ _)
  · exact .of_eq (by simp)

/-! ## Allocator -/

theorem contradictionStep_grows (s : State) : Grows s (contradictionStep s) := by
  unfold contradictionStep; split
  · exact stageFaultWith_grows _ s
  · exact .refl s

theorem windowAtPublication_grows (b : Bool) (s : State) : Grows s (windowAtPublication b s) := .of_eq (by simp)
theorem publish_grows (r : GrantRecord) (s : State) : Grows s (publish r s) := .of_eq (by simp)

theorem allocate_grows (s : State) : Grows s (allocate s) := by
  unfold allocate; dsimp only
  refine Grows.trans ?_ (watchRecord_grows _)
  refine Grows.trans ?_ (windowAtPublication_grows _ _)
  refine Grows.trans ?_ (publish_grows _ _)
  exact Grows.trans (.of_eq (by simp)) (contradictionStep_grows (windowStep s))

/-! ## Events and requests -/

theorem afterCommit_grows (n : Fin 53) (s : State) : Grows s (afterCommit n s) := by
  unfold afterCommit renewAcceptance commitHeatingMode
  (repeat' split)
  · exact evalDemand_grows s
  · exact .of_eq (by simp)
  · exact .refl s
  · exact (Grows.of_eq (by simp)).trans (heaterChanged_grows _ _)
  · exact .refl s

theorem commit_grows (p : PortId) (n : Fin 53) (e : Entry) (s : State) : Grows s (commit p n e s).1 := by
  unfold commit; split
  · exact .refl s
  · exact (Grows.of_eq (by simp)).trans (afterCommit_grows _ _)

theorem present_grows (p : PortId) (e : Entry) (s : State) : Grows s (present p e s).1 := by
  unfold present; repeat' split
  all_goals first | exact .refl s | exact commit_grows _ _ _ _

theorem releaseOwned_grows (p : PortId) (s : State) : Grows s (releaseOwned p s) := by
  cases p
  · exact dropHoldWithNotice_grows s
  · exact endRestWithNotice_grows s
  · exact (Grows.of_eq (by simp)).trans (breakLock_grows _)

theorem putPilot_grows (pilot : Pilot) (amps : Nat) (s : State) : Grows s (putPilot pilot amps s) :=
  (Grows.of_eq (by simp)).trans (raiseIf_grows _ _ _)

theorem pilotPeriodDone_grows (period high : Nat) (s : State) : Grows s (pilotPeriodDone period high s) := by
  unfold pilotPeriodDone; dsimp only; (repeat' split)
  · exact (Grows.of_eq (by simp)).trans (putPilot_grows _ _ _)
  · exact .of_eq (by simp)
  · exact .of_eq (by simp)

theorem pilotLost_grows (s : State) : Grows s (pilotLost s) := by
  unfold pilotLost; split
  · exact (Grows.of_eq (by simp)).trans (putPilot_grows _ _ _)
  · exact .refl s

theorem finalDone_grows (s : State) : Grows s (finalDone s) := by
  unfold finalDone; split
  · dsimp only
    exact (((Grows.of_eq (by simp)).trans (leaveClosing_grows _)).trans (raise_grows _ _)).trans (raiseStoreLow_grows _)
  · exact .refl s

theorem readyChanged_grows (b : Bool) (s : State) : Grows s (readyChanged b s) := by
  unfold readyChanged; dsimp only; split
  · exact .refl s
  · split
    · exact .of_eq (fun p => by simp)
    · split
      · exact .of_eq (fun p => by simp)
      · refine Grows.trans (.of_eq (fun p => ?_)) (stageFaultWith_grows _ _)
        simp
    · exact .of_eq (fun p => by simp)

theorem faultChanged_grows (b : Bool) (s : State) : Grows s (faultChanged b s) := by
  unfold faultChanged; split
  · exact .refl s
  · split
    · refine Grows.trans (.of_eq (fun p => ?_)) (stageFaultWith_grows _ _)
      simp
    · exact .of_eq (fun p => by simp)

theorem pulseDue_grows (s : State) : Grows s (pulseDue s) := by
  unfold pulseDue; split
  · split
    · exact .refl s
    · split
      · exact .of_eq (fun p => by simp)
      · refine Grows.trans (.of_eq (fun p => ?_)) (heaterChanged_grows _ _)
        simp
  · exact .refl s

theorem pulseEnded_grows (amps : Nat) (s : State) : Grows s (pulseEnded amps s) := by
  unfold pulseEnded; split
  · split
    · dsimp only
      refine Grows.trans ?_ (heaterChanged_grows _ _)
      refine Grows.trans ?_ (raiseIf_grows _ _ _)
      exact .of_eq (by simp)
    · exact .refl s
  · exact .refl s

theorem foldl_heaterConvert_grows (r : Vector Thermistor 8) (l : List (Fin 8)) (s : State) :
    Grows s (l.foldl (fun u z => heaterConvert z r[z] u) s) := by
  induction l generalizing s with
  | nil => exact .refl s
  | cons z l ih => exact (heaterConvert_grows _ _ _).trans (ih _)

theorem convertAll_grows (readings : Vector Thermistor 8) (s : State) : Grows s (convertAll readings s) :=
  (foldl_heaterConvert_grows readings zoneIds s).trans
    ((Grows.of_eq (by simp)).trans (heaterChanged_grows s.htr (State.setHtr _ _)))

theorem applyNext_grows (s : State) : Grows s (applyNext s) := by
  unfold applyNext; split
  · exact (Grows.of_eq (by simp)).trans (applyRecord_grows _ _)
  · exact .refl s

theorem energizedConversion_grows (s : State) : Grows s (energizedConversion s) := by
  unfold energizedConversion; dsimp only
  refine Grows.trans ?_ (localizationStep_grows _)
  have : Grows s (raiseAge (s.setIso { s.iso with deadTimer := .stopped, energizedLast := true })) :=
    (Grows.of_eq (by simp)).trans (raiseAge_grows _)
  split
  · exact this.trans (longDeadEnergization_grows _)
  · exact this

theorem busConverted_grows (up un : Nat) (s : State) : Grows s (busConverted up un s) := by
  unfold busConverted; dsimp only; split
  · exact (Grows.of_eq (by simp)).trans (energizedConversion_grows _)
  · refine .of_eq ?_
    unfold deadConversion; dsimp only; (repeat' split) <;> simp

theorem periodExpired_grows (s : State) : Grows s (periodExpired s) := by
  unfold periodExpired; dsimp only
  have : Grows s (testOverdue (s.setIso { s.iso with
    period := periodEntry s, periodTimer := .running (1000 * periodEntry s) })) :=
    (Grows.of_eq (by simp)).trans (testOverdue_grows _)
  split
  · exact this.trans (requestMeasurement_grows _ _)
  · exact this

theorem phaseEnded_grows (s : State) : Grows s (phaseEnded s) := by
  unfold phaseEnded; split <;> first | exact .refl s | exact .of_eq (by simp) | exact finishMeasurement_grows s

theorem cancelRun_grows (s : State) : Grows s (cancelRun s) := by
  unfold cancelRun; split
  · exact (Grows.of_eq (by simp)).trans (endProbe_grows _ _ _)
  · exact .of_eq (by simp)

theorem acceptanceExpired_grows (s : State) : Grows s (acceptanceExpired s) := by
  unfold acceptanceExpired; split
  · exact (Grows.of_eq (by simp)).trans (raise_grows _ _)
  · exact .refl s

end Sys2Proof.Machine
end

