-- ==== Sys2Proof/Laws/Frames.lean ====
section
/-! SUPPORT. Laws/Frames.lean: what taking an event or a frame can do (R161 to R163, R169), said once for every command. -/

namespace Sys2Proof.Machine

/-! ## Events -/

theorem live_powered {s : State} (f : State → State) (h : s.powered = true) : live s f = .next (f s) := by
  simp [live, h]

/-- What holds before a part without supply and after the event's effect holds after the event. -/
theorem live_next {P : State → Prop} {s t : State} {f : State → State} (h : live s f = .next t) (h0 : P s)
    (h1 : s.powered = true → P (f s)) : P t := by
  unfold live at h
  injection h with h
  subst h
  split
  · rename_i hp; exact h1 hp
  · exact h0

/-! ## Frames -/

@[simp] theorem clocked_length (len : Nat) (ws : List Word) : (clocked len ws).length = len := by
  simp [clocked]

/-- Every word that a frame clocks is the one to send there, or 0 (R161); no other word is sent. -/
theorem clocked_getElem? (len i : Nat) (ws : List Word) :
    (clocked len ws)[i]? = if i < len then some (ws.getD i 0) else none := by
  by_cases hi : i < len
  · by_cases hw : i < ws.length
    · simp [clocked, hi, hw]
    · simp [clocked, hi, hw, List.getElem_append_right (Nat.le_of_not_lt hw)]
  · simp [clocked, hi]

@[simp] theorem answer_keeps (p : PortId) (len : Nat) (st : Status) (data : List Word) (s t : State) :
    (answer p len st data s t).powered = t.powered ∧ (answer p len st data s t).threePhases = t.threePhases
      ∧ (answer p len st data s t).commission = t.commission ∧ (answer p len st data s t).plan = t.plan
      ∧ (answer p len st data s t).planDefaults = t.planDefaults ∧ (answer p len st data s t).recordBuffer = t.recordBuffer
      ∧ (answer p len st data s t).imageBuffer = t.imageBuffer ∧ (answer p len st data s t).ses = t.ses
      ∧ (answer p len st data s t).sup = t.sup ∧ (answer p len st data s t).alc = t.alc ∧ (answer p len st data s t).htr = t.htr
      ∧ (answer p len st data s t).iso = t.iso ∧ (answer p len st data s t).mtr = t.mtr ∧ (answer p len st data s t).rst = t.rst
      ∧ (answer p len st data s t).nv = t.nv ∧ (answer p len st data s t).free = t.free
      ∧ (answer p len st data s t).pending = t.pending ∧ (∀ i, (answer p len st data s t).entry i = t.entry i)
      ∧ ∀ i, (answer p len st data s t).zone i = t.zone i := by
  simp [answer]

@[simp] theorem answer_port (p : PortId) (len : Nat) (st : Status) (data : List Word) (s t : State) :
    (answer p len st data s t).port p = { t.port p with lastStatus := st, returned := clocked len (statusWord (s.port p) :: data) } := by
  simp [answer]

theorem answer_port_other {p q : PortId} (h : q ≠ p) (len : Nat) (st : Status) (data : List Word) (s t : State) :
    (answer p len st data s t).port q = t.port q := by
  cases p <;> cases q <;> first | rfl | exact absurd rfl h

/-- A frame's answer moves no notice. -/
theorem answer_told {k : Notice} {p : PortId} {len : Nat} {st : Status} {data : List Word} {s t : State} (q : PortId) :
    Told k ((answer p len st data s t).port q) ↔ Told k (t.port q) := by
  cases p <;> cases q <;> exact Iff.rfl

theorem ToldAll.answered {k : Notice} {p : PortId} {len : Nat} {st : Status} {data : List Word} {s u t : State}
    (h : ToldAll k u t) : ToldAll k u (answer p len st data s t) :=
  fun q hq => (answer_told q).2 (h q hq)

/-- A frame on a port that takes frames: the owner's reply, or NOT_PERMITTED by the role (R161 to R163). -/
theorem request_ready {p : PortId} {len : Nat} {s : State} (roles : List PortId) (body : State → Reply) (h : Ready p s) :
    request p len roles s body = .next (if roles.contains p then answer p len (body s).status (body s).data s (body s).st
      else answer p len .notPermitted [] s s) := by
  obtain ⟨hp, hr⟩ := h
  simp only [request, live, hp, hr, if_true, Bool.false_eq_true, if_false]
  cases roles.contains p <;> rfl

theorem request_admitted {p : PortId} {len : Nat} {s : State} {roles : List PortId} (body : State → Reply) (h : Ready p s)
    (hp : p ∈ roles) : request p len roles s body = .next (answer p len (body s).status (body s).data s (body s).st) := by
  rw [request_ready roles body h, if_pos (by simpa using hp)]

theorem request_any {p : PortId} {len : Nat} {s : State} (body : State → Reply) (h : Ready p s) :
    request p len anyPort s body = .next (answer p len (body s).status (body s).data s (body s).st) :=
  request_admitted body h (by cases p <;> simp [anyPort])

/-- What holds before, is kept by a frame's answer and holds after the owner's effect, holds after the frame. -/
theorem request_next {P : State → Prop} {p : PortId} {len : Nat} {roles : List PortId} {s t : State} {body : State → Reply}
    (h : request p len roles s body = .next t) (h0 : P s) (ha : ∀ st data u, P u → P (answer p len st data s u))
    (h1 : P (body s).st) : P t := by
  refine live_next h h0 fun hp => ?_
  cases hr : (s.port p).resetAsserted
  · have hb := request_ready (len := len) roles body ⟨hp, hr⟩
    simp only [request, live, hp, hr, if_true, Bool.false_eq_true, if_false, Host.Outcome.next.injEq] at hb
    simp only [Bool.false_eq_true, if_false, hb]
    split
    · exact ha _ _ _ h1
    · exact ha _ _ _ h0
  · exact h0

end Sys2Proof.Machine
end

