-- ==== Sys2Proof/Laws/Preserve.lean ====
section
/-! SUPPORT. Laws/Preserve.lean: the effects a command can have on the part, named once. A property of State that none of them
destroys is kept by every command and by every step; one that no effect of a command destroys is kept by that command. -/

namespace Sys2Proof.Machine

/-- P is kept by every effect a command can have. What a port itself holds is no part of P. -/
structure Preserved (P : State → Prop) : Prop where
  port : ∀ s p x, P s → P (s.setPort p x)
  queue : ∀ s q, P s → P (s.setPending q)
  powerOn : ∀ pins cut s, P s → P (powerOn pins cut s)
  losePower : ∀ cut s, P s → P (losePower cut s)
  releaseOwned : ∀ p s, P s → P (releaseOwned p s)
  commit : ∀ n e s, P s → P (afterCommit n (storeEntry n e s))
  departureHold : ∀ s, holdStatus s = .ok → P s →
    P (s.setAlc { s.alc with hold := .held, holdTimer := .running Config.holdMs })
  dropHold : ∀ s, P s → P (dropHold s)
  dropHoldWithNotice : ∀ s, P s → P (dropHoldWithNotice s)
  clearLockout : ∀ s, mayClear s = true → P s → P (evalDemand (cancelRun (clearTheLockout s)))
  rest : ∀ ms s, P s → P (s.setAlc { s.alc with resting := true, restTimer := .running ms })
  endRest : ∀ s, P s → P (endRest s)
  endRestWithNotice : ∀ s, P s → P (endRestWithNotice s)
  clearZone : ∀ z s, (s.zone z).state.isFaulted = true → P s →
    P (heaterChanged s.htr (s.setHtr (s.htr.enter z .unchecked)))
  authorize : ∀ tag s, P s → P (authorizeSession tag s)
  endSession : ∀ s, s.ses.session = .opened → P s → P (closeSession .ended s)
  setTime : ∀ sec s, P s → P (evaluateBand (setClock sec s))
  lockTariff : ∀ s, P s → P (s.setMtr { s.mtr with lockHeld := true, lockTimer := .running Config.tariffLockMs })
  unlockTariff : ∀ s, P s → P (evaluateBand (freeLock s))
  breakLock : ∀ s, P s → P (breakLock s)
  recordBuffer : ∀ b s, P s → P (s.setRecordBuffer b)
  release : ∀ i n s, oldest s.nv.slots = some (i, n) → P s → P (s.setNv (markSlot i .free s.nv))
  imageBuffer : ∀ b s, P s → P (s.setImageBuffer b)
  imageStore : ∀ v s, P s → P (queueImage v s)
  contactChange : ∀ c raw s, P s → P (contactChange c raw s)
  debounce : ∀ a b s, P s → P (derivePlug (s.setSes (debounced s.ses a b)))
  pilotPeriod : ∀ period high s, P s → P (pilotPeriodDone period high s)
  pilotSilent : ∀ s, P s → P (pilotSilent s)
  pilotLost : ∀ s, P s → P (pilotLost s)
  pilotEdge : ∀ s, P s → P (s.setSup (noteEdge s.sup))
  phaseWindow : ∀ u1 u2 u3 s, P s → P (phaseWindow u1 u2 u3 s)
  allocate : ∀ s, P s → P (allocate s)
  changeover : ∀ s, P s → P (s.setAlc { s.alc with changeover := .stopped })
  acceptance : ∀ s, P s → P (acceptanceExpired s)
  stageReady : ∀ b s, P s → P (readyChanged b s)
  stageFault : ∀ b s, P s → P (faultChanged b s)
  recovered : ∀ s, P s → P (recovered s)
  applyNext : ∀ s, P s → P (applyNext s)
  pulseDue : ∀ s, P s → P (pulseDue s)
  pulseEnded : ∀ i s, P s → P (pulseEnded i s)
  conversion : ∀ readings s, P s → P (convertAll readings s)
  slotExpired : ∀ s, P s → P (slotExpired s)
  busConverted : ∀ up un s, P s → P (busConverted up un s)
  deadBus : ∀ s, P s → P (s.setIso { s.iso with deadTimer := .stopped, longDead := true })
  periodExpired : ∀ s, P s → P (periodExpired s)
  phaseEnded : ∀ s, P s → P (phaseEnded s)
  sampled : ∀ up un s, P s → P (sampled up un s)
  meterTick : ∀ p1 p2 p3 s, P s → P (meterTick p1 p2 p3 s)
  checkpointTimer : ∀ s, s.ses.session = .opened → P s → P (askCheckpoint s)
  checkpointDone : ∀ s, P s → P (checkpointDone s)
  finalDone : ∀ s, P s → P (finalDone s)
  imageDone : ∀ s, P s → P (imageDone s)

/-- P is kept by every effect that the command c can have. -/
structure PreservedBy (c : Instr) (P : State → Prop) : Prop where
  port : ∀ s p x, P s → P (s.setPort p x)
  queue : ∀ s q, P s → P (s.setPending q)
  powerOn : ∀ pins cut, c = .powerOnReset pins cut → ∀ s, P s → P (powerOn pins cut s)
  losePower : ∀ cut, c = .powerLoss cut → ∀ s, P s → P (losePower cut s)
  releaseOwned : ∀ p, c = .portReset p → ∀ s, P s → P (releaseOwned p s)
  commit : ∀ f w, c = .writeWord f w → ∀ n e s, P s → P (afterCommit n (storeEntry n e s))
  departureHold : ∀ f, c = .departureHold f → ∀ s, holdStatus s = .ok → P s →
    P (s.setAlc { s.alc with hold := .held, holdTimer := .running Config.holdMs })
  dropHold : ∀ f, c = .releaseHold f → ∀ s, P s → P (dropHold s)
  dropHoldWithNotice : c = .holdTimerExpiry → ∀ s, P s → P (dropHoldWithNotice s)
  clearLockout : ∀ f, c = .clearLockout f → ∀ s, mayClear s = true → P s →
    P (evalDemand (cancelRun (clearTheLockout s)))
  rest : ∀ f w, c = .rest f w → ∀ ms s, P s → P (s.setAlc { s.alc with resting := true, restTimer := .running ms })
  endRest : ∀ f, c = .endRest f → ∀ s, P s → P (endRest s)
  endRestWithNotice : c = .restTimerExpiry → ∀ s, P s → P (endRestWithNotice s)
  clearZone : ∀ f arg, c = .clearZone f arg → ∀ z s, (s.zone z).state.isFaulted = true → P s →
    P (heaterChanged s.htr (s.setHtr (s.htr.enter z .unchecked)))
  authorize : ∀ f arg t0 t1 t2 t3, c = .authorize f arg t0 t1 t2 t3 → ∀ tag s, P s → P (authorizeSession tag s)
  endSession : ∀ f, c = .endSession f → ∀ s, s.ses.session = .opened → P s → P (closeSession .ended s)
  setTime : ∀ f hi lo, c = .setTime f hi lo → ∀ sec s, P s → P (evaluateBand (setClock sec s))
  lockTariff : ∀ f, c = .lockTariff f → ∀ s, P s →
    P (s.setMtr { s.mtr with lockHeld := true, lockTimer := .running Config.tariffLockMs })
  unlockTariff : ∀ f, c = .unlockTariff f → ∀ s, P s → P (evaluateBand (freeLock s))
  breakLock : c = .tariffLockExpiry → ∀ s, P s → P (breakLock s)
  recordBuffer : ∀ b s, P s → P (s.setRecordBuffer b)
  release : ∀ f hi lo, c = .release f hi lo → ∀ i n s, oldest s.nv.slots = some (i, n) → P s →
    P (s.setNv (markSlot i .free s.nv))
  imageBuffer : ∀ b s, P s → P (s.setImageBuffer b)
  imageStore : ∀ f, c = .imageStore f → ∀ v s, P s → P (queueImage v s)
  contactChange : ∀ k raw, c = .plugContactChange k raw → ∀ s, P s → P (contactChange k raw s)
  debounce : ∀ a b, c = .debounceExpiry a b → ∀ s, P s → P (derivePlug (s.setSes (debounced s.ses a b)))
  pilotPeriod : ∀ period high, c = .pilotPeriod period high → ∀ s, P s → P (pilotPeriodDone period high s)
  pilotSilent : c = .pilotSilenceTimeout → ∀ s, P s → P (pilotSilent s)
  pilotLost : c = .pilotHoldExpiry → ∀ s, P s → P (pilotLost s)
  pilotEdge : c = .pilotEdge → ∀ s, P s → P (s.setSup (noteEdge s.sup))
  phaseWindow : ∀ u1 u2 u3, c = .phaseWindowEnd u1 u2 u3 → ∀ s, P s → P (phaseWindow u1 u2 u3 s)
  allocate : c = .allocationInterval → ∀ s, P s → P (allocate s)
  changeover : c = .changeoverExpiry → ∀ s, P s → P (s.setAlc { s.alc with changeover := .stopped })
  acceptance : c = .acceptanceFreshnessExpiry → ∀ s, P s → P (acceptanceExpired s)
  stageReady : ∀ b, c = .stageReadyChange b → ∀ s, P s → P (readyChanged b s)
  stageFault : ∀ b, c = .stageFaultChange b → ∀ s, P s → P (faultChanged b s)
  recovered : c = .stageRecoveryExpiry → ∀ s, P s → P (recovered s)
  applyNext : c = .grantRecordApply → ∀ s, P s → P (applyNext s)
  pulseDue : c = .checkPulseStart → ∀ s, P s → P (pulseDue s)
  pulseEnded : ∀ i, c = .checkPulseEnd i → ∀ s, P s → P (pulseEnded i s)
  conversion : ∀ readings, c = .heaterConversion readings → ∀ s, P s → P (convertAll readings s)
  slotExpired : c = .slotTimerExpiry → ∀ s, P s → P (slotExpired s)
  busConverted : ∀ up un, c = .busConversion up un → ∀ s, P s → P (busConverted up un s)
  deadBus : c = .deadBusExpiry → ∀ s, P s → P (s.setIso { s.iso with deadTimer := .stopped, longDead := true })
  periodExpired : c = .periodExpiry → ∀ s, P s → P (periodExpired s)
  phaseEnded : c = .measurementPhaseEnd → ∀ s, P s → P (phaseEnded s)
  sampled : ∀ up un, c = .bridgeSample up un → ∀ s, P s → P (sampled up un s)
  meterTick : ∀ p1 p2 p3, c = .meterInterval p1 p2 p3 → ∀ s, P s → P (meterTick p1 p2 p3 s)
  checkpointTimer : c = .checkpointTimerExpiry → ∀ s, s.ses.session = .opened → P s → P (askCheckpoint s)
  checkpointDone : c = .checkpointWriteComplete → ∀ s, P s → P (checkpointDone s)
  finalDone : c = .finalWriteComplete → ∀ s, P s → P (finalDone s)
  imageDone : c = .imageWriteComplete → ∀ s, P s → P (imageDone s)

/-- A property that every effect of a command keeps is kept by that command. -/
theorem PreservedBy.exec {P : State → Prop} {c : Instr} (k : PreservedBy c P) {s t : State} (h : P s)
    (he : exec c s = .next t) : P t := by
  have ans : ∀ {p len st data u}, P u → P (answer p len st data s u) := fun hu => k.port _ _ _ hu
  cases c
  case powerOnReset pins cut => cases he; exact k.powerOn _ _ rfl _ h
  case powerLoss cut => cases he; exact k.losePower _ rfl _ h
  case portReset p =>
    refine live_next he h fun _ => ?_
    unfold resetPort; split
    · exact h
    · exact k.releaseOwned _ rfl _ (k.port _ _ _ h)
  case portResetRelease p =>
    refine live_next he h fun _ => ?_
    unfold releasePort; split
    · exact k.port _ _ _ h
    · exact h
  case frameIncomplete =>
    simp only [Machine.exec, execFrameIncomplete] at he
    refine live_next he h fun _ => ?_
    split
    · exact h
    · exact k.port _ _ _ h
  case unknownCommand =>
    simp only [Machine.exec, execUnknownCommand] at he
    exact request_next he h (fun _ _ _ => ans) h
  case noOperation =>
    simp only [Machine.exec, execNoOperation] at he
    exact request_next he h (fun _ _ _ => ans) h
  case setReadPointer =>
    simp only [Machine.exec, execSetReadPointer] at he
    refine request_next he h (fun _ _ _ => ans) ?_
    split
    · exact h
    · exact k.port _ _ _ h
  case setWritePointer =>
    simp only [Machine.exec, execSetWritePointer] at he
    refine request_next he h (fun _ _ _ => ans) ?_
    split
    · exact h
    · exact k.port _ _ _ h
  case readWord =>
    simp only [Machine.exec, execReadWord] at he
    refine request_next he h (fun _ _ _ => ans) ?_
    split
    · exact k.port _ _ _ h
    · exact k.port _ _ _ h
    · exact h
  case writeWord =>
    simp only [Machine.exec, execWriteWord] at he
    refine request_next he h (fun _ _ _ => ans) ?_
    split
    · split
      · refine k.port _ _ _ ?_
        unfold present
        (repeat' split) <;> try exact h
        unfold Machine.commit
        split
        · exact h
        · exact k.commit _ _ rfl _ _ _ h
      · exact k.port _ _ _ h
    · exact h
  case getPointer =>
    simp only [Machine.exec, execGetPointer] at he
    exact request_next he h (fun _ _ _ => ans) h
  case protectWindow =>
    simp only [Machine.exec, execProtectWindow] at he
    refine request_next he h (fun _ _ _ => ans) ?_
    split
    · exact h
    · exact k.port _ _ _ h
  case closeWindow =>
    simp only [Machine.exec, execCloseWindow] at he
    refine request_next he h (fun _ _ _ => ans) ?_
    split
    · exact h
    · exact k.port _ _ _ h
  case readNotices =>
    simp only [Machine.exec, execReadNotices] at he
    refine request_next he h (fun _ _ _ => ans) ?_
    split
    · exact k.port _ _ _ h
    · exact h
  case ackNotices =>
    simp only [Machine.exec, execAckNotices] at he
    refine request_next he h (fun _ _ _ => ans) ?_
    split
    · exact k.port _ _ _ h
    · exact h
  case attentionPulseEnd =>
    simp only [Machine.exec, execAttentionPulseEnd] at he
    refine live_next he h fun _ => ?_
    split
    · exact k.port _ _ _ h
    · exact h
  case departureHold =>
    simp only [Machine.exec, execDepartureHold] at he
    refine request_next he h (fun _ _ _ => ans) ?_
    split
    · exact k.departureHold _ rfl _ ‹_› h
    · exact h
  case releaseHold =>
    simp only [Machine.exec, execReleaseHold] at he
    refine request_next he h (fun _ _ _ => ans) ?_
    split
    · exact h
    · exact k.dropHold _ rfl _ h
  case clearLockout =>
    simp only [Machine.exec, execClearLockout] at he
    refine request_next he h (fun _ _ _ => ans) ?_
    split
    · exact k.clearLockout _ rfl _ ‹_› h
    · exact h
  case rest =>
    simp only [Machine.exec, execRest] at he
    exact request_next he h (fun _ _ _ => ans) (k.rest _ _ rfl _ _ h)
  case endRest =>
    simp only [Machine.exec, execEndRest] at he
    refine request_next he h (fun _ _ _ => ans) ?_
    split
    · exact k.endRest _ rfl _ h
    · exact h
  case clearZone =>
    simp only [Machine.exec, execClearZone] at he
    refine request_next he h (fun _ _ _ => ans) ?_
    split
    · exact h
    · split
      · exact k.clearZone _ _ rfl _ _ ‹_› h
      · exact h
  case authorize =>
    simp only [Machine.exec, execAuthorize] at he
    refine request_next he h (fun _ _ _ => ans) ?_
    split
    · exact k.authorize _ _ _ _ _ _ rfl _ _ h
    · exact h
  case endSession =>
    simp only [Machine.exec, execEndSession] at he
    refine request_next he h (fun _ _ _ => ans) ?_
    split
    · exact k.endSession _ rfl _ ‹_› h
    · exact h
  case setTime =>
    simp only [Machine.exec, execSetTime] at he
    exact request_next he h (fun _ _ _ => ans) (k.setTime _ _ _ rfl _ _ h)
  case lockTariff =>
    simp only [Machine.exec, execLockTariff] at he
    refine request_next he h (fun _ _ _ => ans) ?_
    split
    · exact h
    · exact k.lockTariff _ rfl _ h
  case unlockTariff =>
    simp only [Machine.exec, execUnlockTariff] at he
    refine request_next he h (fun _ _ _ => ans) ?_
    split
    · exact k.unlockTariff _ rfl _ h
    · exact h
  case collect =>
    simp only [Machine.exec, execCollect] at he
    refine request_next he h (fun _ _ _ => ans) ?_
    split <;> exact k.recordBuffer _ _ h
  case readRecordWord =>
    simp only [Machine.exec, execReadRecordWord] at he
    refine request_next he h (fun _ _ _ => ans) ?_
    split
    · exact h
    · split
      · exact k.recordBuffer _ _ h
      · exact h
  case release =>
    simp only [Machine.exec, execRelease] at he
    refine request_next he h (fun _ _ _ => ans) ?_
    split
    · exact h
    · split
      · exact k.recordBuffer _ _ (k.release _ _ _ rfl _ _ _ ‹_› h)
      · exact h
  case imageRead =>
    simp only [Machine.exec, execImageRead] at he
    refine request_next he h (fun _ _ _ => ans) ?_
    (repeat' split) <;> exact h
  case imageWrite =>
    simp only [Machine.exec, execImageWrite] at he
    refine request_next he h (fun _ _ _ => ans) ?_
    (repeat' split) <;> first | exact h | exact k.imageBuffer _ _ h
  case imageStore =>
    simp only [Machine.exec, execImageStore] at he
    refine request_next he h (fun _ _ _ => ans) ?_
    (repeat' split) <;> first | exact h | exact k.imageStore _ rfl _ _ (k.imageBuffer _ _ h)
  case plugContactChange => exact live_next he h fun _ => k.contactChange _ _ rfl _ h
  case debounceExpiry =>
    simp only [Machine.exec, execDebounceExpiry] at he
    exact live_next he h fun _ => k.debounce _ _ rfl _ h
  case pilotPeriod => exact live_next he h fun _ => k.pilotPeriod _ _ rfl _ h
  case pilotSilenceTimeout => exact live_next he h fun _ => k.pilotSilent rfl _ h
  case pilotHoldExpiry => exact live_next he h fun _ => k.pilotLost rfl _ h
  case phaseWindowEnd => exact live_next he h fun _ => k.phaseWindow _ _ _ rfl _ h
  case allocationInterval => exact live_next he h fun _ => k.allocate rfl _ h
  case changeoverExpiry =>
    simp only [Machine.exec, execChangeoverExpiry] at he
    exact live_next he h fun _ => k.changeover rfl _ h
  case acceptanceFreshnessExpiry => exact live_next he h fun _ => k.acceptance rfl _ h
  case stageReadyChange => exact live_next he h fun _ => k.stageReady _ rfl _ h
  case stageFaultChange => exact live_next he h fun _ => k.stageFault _ rfl _ h
  case stageRecoveryExpiry => exact live_next he h fun _ => k.recovered rfl _ h
  case holdTimerExpiry =>
    simp only [Machine.exec, execHoldTimerExpiry] at he
    refine live_next he h fun _ => ?_
    split
    · exact k.dropHoldWithNotice rfl _ h
    · exact h
  case restTimerExpiry =>
    simp only [Machine.exec, execRestTimerExpiry] at he
    refine live_next he h fun _ => ?_
    split
    · exact k.endRestWithNotice rfl _ h
    · exact h
  case grantRecordApply => exact live_next he h fun _ => k.applyNext rfl _ h
  case checkPulseStart => exact live_next he h fun _ => k.pulseDue rfl _ h
  case checkPulseEnd => exact live_next he h fun _ => k.pulseEnded _ rfl _ h
  case heaterConversion => exact live_next he h fun _ => k.conversion _ rfl _ h
  case slotTimerExpiry => exact live_next he h fun _ => k.slotExpired rfl _ h
  case busConversion => exact live_next he h fun _ => k.busConverted _ _ rfl _ h
  case deadBusExpiry =>
    simp only [Machine.exec, execDeadBusExpiry] at he
    refine live_next he h fun _ => ?_
    split
    · exact k.deadBus rfl _ h
    · exact h
  case periodExpiry => exact live_next he h fun _ => k.periodExpired rfl _ h
  case measurementPhaseEnd => exact live_next he h fun _ => k.phaseEnded rfl _ h
  case bridgeSample => exact live_next he h fun _ => k.sampled _ _ rfl _ h
  case meterInterval => exact live_next he h fun _ => k.meterTick _ _ _ rfl _ h
  case tariffLockExpiry =>
    simp only [Machine.exec, execTariffLockExpiry] at he
    refine live_next he h fun _ => ?_
    split
    · exact k.breakLock rfl _ h
    · exact h
  case checkpointTimerExpiry =>
    simp only [Machine.exec, execCheckpointTimerExpiry] at he
    refine live_next he h fun _ => ?_
    split
    · rename_i hc
      simp only [Bool.and_eq_true, beq_iff_eq] at hc
      exact k.checkpointTimer rfl _ hc.2 h
    · exact h
  case checkpointWriteComplete => exact live_next he h fun _ => k.checkpointDone rfl _ h
  case finalWriteComplete => exact live_next he h fun _ => k.finalDone rfl _ h
  case imageWriteComplete => exact live_next he h fun _ => k.imageDone rfl _ h
  case pilotEdge =>
    simp only [Machine.exec, execPilotEdge] at he
    exact live_next he h fun _ => k.pilotEdge rfl _ h

/-- What every effect keeps, the effects of each command keep. -/
theorem Preserved.by {P : State → Prop} (k : Preserved P) (c : Instr) : PreservedBy c P where
  port := k.port
  queue := k.queue
  powerOn := fun pins cut _ s => k.powerOn pins cut s
  losePower := fun cut _ s => k.losePower cut s
  releaseOwned := fun p _ s => k.releaseOwned p s
  commit := fun _ _ _ n e s => k.commit n e s
  departureHold := fun _ _ s => k.departureHold s
  dropHold := fun _ _ s => k.dropHold s
  dropHoldWithNotice := fun _ s => k.dropHoldWithNotice s
  clearLockout := fun _ _ s => k.clearLockout s
  rest := fun _ _ _ ms s => k.rest ms s
  endRest := fun _ _ s => k.endRest s
  endRestWithNotice := fun _ s => k.endRestWithNotice s
  clearZone := fun _ _ _ z s => k.clearZone z s
  authorize := fun _ _ _ _ _ _ _ tag s => k.authorize tag s
  endSession := fun _ _ s => k.endSession s
  setTime := fun _ _ _ _ sec s => k.setTime sec s
  lockTariff := fun _ _ s => k.lockTariff s
  unlockTariff := fun _ _ s => k.unlockTariff s
  breakLock := fun _ s => k.breakLock s
  recordBuffer := k.recordBuffer
  release := fun _ _ _ _ i n s => k.release i n s
  imageBuffer := k.imageBuffer
  imageStore := fun _ _ v s => k.imageStore v s
  contactChange := fun c raw _ s => k.contactChange c raw s
  debounce := fun a b _ s => k.debounce a b s
  pilotPeriod := fun period high _ s => k.pilotPeriod period high s
  pilotSilent := fun _ s => k.pilotSilent s
  pilotLost := fun _ s => k.pilotLost s
  pilotEdge := fun _ s => k.pilotEdge s
  phaseWindow := fun u1 u2 u3 _ s => k.phaseWindow u1 u2 u3 s
  allocate := fun _ s => k.allocate s
  changeover := fun _ s => k.changeover s
  acceptance := fun _ s => k.acceptance s
  stageReady := fun b _ s => k.stageReady b s
  stageFault := fun b _ s => k.stageFault b s
  recovered := fun _ s => k.recovered s
  applyNext := fun _ s => k.applyNext s
  pulseDue := fun _ s => k.pulseDue s
  pulseEnded := fun i _ s => k.pulseEnded i s
  conversion := fun readings _ s => k.conversion readings s
  slotExpired := fun _ s => k.slotExpired s
  busConverted := fun up un _ s => k.busConverted up un s
  deadBus := fun _ s => k.deadBus s
  periodExpired := fun _ s => k.periodExpired s
  phaseEnded := fun _ s => k.phaseEnded s
  sampled := fun up un _ s => k.sampled up un s
  meterTick := fun p1 p2 p3 _ s => k.meterTick p1 p2 p3 s
  checkpointTimer := fun _ s => k.checkpointTimer s
  checkpointDone := fun _ s => k.checkpointDone s
  finalDone := fun _ s => k.finalDone s
  imageDone := fun _ s => k.imageDone s

/-- A property that every effect keeps is kept by every command. -/
theorem Preserved.exec {P : State → Prop} (k : Preserved P) {c : Instr} {s t : State} (h : P s)
    (he : exec c s = .next t) : P t := (k.by c).exec h he

/-- A property that every effect keeps is kept by every step. -/
theorem Preserved.step {P : State → Prop} (k : Preserved P) {s t : State} (h : P s) (he : step s = .next t) : P t := by
  unfold Machine.step at he
  split at he
  · cases he; exact h
  · exact k.exec (k.queue s _ h) he

end Sys2Proof.Machine
end

