-- ==== Sys2Proof/Laws/Within.lean ====
section
/-! SUPPORT. Laws/Within.lean: of the blocks that a shared operation or an event does touch, the registers it leaves alone: one lemma per
operation. -/

namespace Sys2Proof.Machine

/-! ## Small updates -/

@[simp] theorem freshAfter_within (old new : Mode) (a : Alc) :
    (freshAfter old new a).record = a.record ∧ (freshAfter old new a).hold = a.hold
      ∧ (freshAfter old new a).holdTimer = a.holdTimer ∧ (freshAfter old new a).resting = a.resting
      ∧ (freshAfter old new a).restTimer = a.restTimer ∧ (freshAfter old new a).window = a.window
      ∧ (freshAfter old new a).stage = a.stage ∧ (freshAfter old new a).stageReady = a.stageReady
      ∧ (freshAfter old new a).stageFault = a.stageFault ∧ (freshAfter old new a).recovery = a.recovery
      ∧ (freshAfter old new a).cause = a.cause := by
  unfold freshAfter; (repeat' split) <;> simp

@[simp] theorem setArea_within (a : AreaId) (x : Area) (nv : Nv) :
    (setArea a x nv).slots = nv.slots ∧ (setArea a x nv).counter = nv.counter ∧ (setArea a x nv).image = nv.image := by
  cases a <;> simp [setArea]

@[simp] theorem setArea_area (a : AreaId) (x : Area) (nv : Nv) : (setArea a x nv).area a = x := by
  cases a <;> rfl

@[simp] theorem setArea_area_other (a : AreaId) (x : Area) (nv : Nv) : (setArea a x nv).area a.other = nv.area a.other := by
  cases a <;> rfl

@[simp] theorem endCheck_within (h : Htr) (z : Fin 8) (st : ZoneState) :
    (h.endCheck z st).mode = h.mode ∧ (h.endCheck z st).pendingMode = h.pendingMode ∧ (h.endCheck z st).p = h.p
      ∧ (h.endCheck z st).s = h.s ∧ (h.endCheck z st).energized = h.energized ∧ (h.endCheck z st).inbox = h.inbox
      ∧ (h.endCheck z st).applied = h.applied ∧ (h.endCheck z st).converted = h.converted := by
  simp [Htr.endCheck, Htr.enter, Htr.setZone]

@[simp] theorem deenergize_within (h : Htr) (z : Fin 8) (st : ZoneState) :
    (h.deenergize z st).mode = h.mode ∧ (h.deenergize z st).pendingMode = h.pendingMode ∧ (h.deenergize z st).p = h.p
      ∧ (h.deenergize z st).s = h.s ∧ (h.deenergize z st).check = h.check ∧ (h.deenergize z st).inbox = h.inbox
      ∧ (h.deenergize z st).applied = h.applied ∧ (h.deenergize z st).converted = h.converted
      ∧ (h.deenergize z st).slotTimer = h.slotTimer ∧ (h.deenergize z st).boundaryDue = h.boundaryDue := by
  simp [Htr.deenergize, Htr.enter, Htr.setZone]

@[simp] theorem setZone_within (h : Htr) (z : Fin 8) (x : Zone) :
    (h.setZone z x).mode = h.mode ∧ (h.setZone z x).pendingMode = h.pendingMode ∧ (h.setZone z x).p = h.p
      ∧ (h.setZone z x).s = h.s ∧ (h.setZone z x).check = h.check ∧ (h.setZone z x).inbox = h.inbox
      ∧ (h.setZone z x).applied = h.applied ∧ (h.setZone z x).converted = h.converted
      ∧ (h.setZone z x).slotTimer = h.slotTimer ∧ (h.setZone z x).boundaryDue = h.boundaryDue
      ∧ (h.setZone z x).energized = h.energized := by
  simp [Htr.setZone]

@[simp] theorem convertZone_within (s : State) (z : Fin 8) (r : Thermistor) :
    (convertZone s z r).mode = s.htr.mode ∧ (convertZone s z r).pendingMode = s.htr.pendingMode
      ∧ (convertZone s z r).p = s.htr.p ∧ (convertZone s z r).s = s.htr.s ∧ (convertZone s z r).inbox = s.htr.inbox
      ∧ (convertZone s z r).applied = s.htr.applied ∧ (convertZone s z r).converted = s.htr.converted := by
  unfold convertZone; dsimp only; (repeat' split) <;> simp

@[simp] theorem leaveProbe_within (h : Htr) (z : Fin 8) (b : Bool) :
    (h.leaveProbe z b).mode = h.mode ∧ (h.leaveProbe z b).pendingMode = h.pendingMode ∧ (h.leaveProbe z b).p = h.p
      ∧ (h.leaveProbe z b).s = h.s ∧ (h.leaveProbe z b).check = h.check ∧ (h.leaveProbe z b).inbox = h.inbox
      ∧ (h.leaveProbe z b).applied = h.applied ∧ (h.leaveProbe z b).converted = h.converted
      ∧ (h.leaveProbe z b).slotTimer = h.slotTimer ∧ (h.leaveProbe z b).boundaryDue = h.boundaryDue
      ∧ (h.leaveProbe z b).energized = h.energized := by
  unfold Htr.leaveProbe; split <;> simp [Htr.enter]

@[simp] theorem abortCheck_within (h : Htr) (st : ZoneState) :
    (h.abortCheck st).mode = h.mode ∧ (h.abortCheck st).pendingMode = h.pendingMode ∧ (h.abortCheck st).p = h.p
      ∧ (h.abortCheck st).s = h.s ∧ (h.abortCheck st).energized = h.energized ∧ (h.abortCheck st).inbox = h.inbox
      ∧ (h.abortCheck st).applied = h.applied ∧ (h.abortCheck st).converted = h.converted
      ∧ (h.abortCheck st).check = none := by
  unfold Htr.abortCheck; split
  · simp; rfl
  · simp_all

@[simp] theorem allOff_within (h : Htr) :
    h.allOff.mode = h.mode ∧ h.allOff.pendingMode = h.pendingMode ∧ h.allOff.p = h.p ∧ h.allOff.s = h.s
      ∧ h.allOff.energized = [] ∧ h.allOff.inbox = h.inbox ∧ h.allOff.applied = h.applied
      ∧ h.allOff.converted = h.converted ∧ h.allOff.check = none := by
  simp [Htr.allOff]

@[simp] theorem enter_within (h : Htr) (z : Fin 8) (st : ZoneState) :
    (h.enter z st).mode = h.mode ∧ (h.enter z st).pendingMode = h.pendingMode ∧ (h.enter z st).p = h.p
      ∧ (h.enter z st).s = h.s ∧ (h.enter z st).check = h.check ∧ (h.enter z st).inbox = h.inbox
      ∧ (h.enter z st).applied = h.applied ∧ (h.enter z st).converted = h.converted
      ∧ (h.enter z st).slotTimer = h.slotTimer ∧ (h.enter z st).boundaryDue = h.boundaryDue
      ∧ (h.enter z st).energized = h.energized := by
  simp [Htr.enter]

@[simp] theorem beginRun_within (i : Iso) :
    (beginRun i).grade = i.grade ∧ (beginRun i).lockout = i.lockout ∧ (beginRun i).candidate = i.candidate
      ∧ (beginRun i).latest = i.latest ∧ (beginRun i).age = i.age ∧ (beginRun i).overdue = i.overdue
      ∧ (beginRun i).period = i.period ∧ (beginRun i).uBus = i.uBus ∧ (beginRun i).longDead = i.longDead
      ∧ (beginRun i).energizedLast = i.energizedLast ∧ (beginRun i).phase = i.phase
      ∧ (beginRun i).purpose = i.purpose ∧ (beginRun i).restarts = i.restarts := by
  simp [beginRun]

/-! ## Ops and Plan -/

@[simp] theorem evalDemand_within (s : State) :
    (evalDemand s).sup.pilot = s.sup.pilot ∧ (evalDemand s).sup.iPil = s.sup.iPil ∧ (evalDemand s).sup.nPh = s.sup.nPh
      ∧ (evalDemand s).sup.uMin = s.sup.uMin ∧ (evalDemand s).sup.supplyPresent = s.sup.supplyPresent := by
  simp [evalDemand]

@[simp] theorem watchRecord_within (s : State) :
    (watchRecord s).sup.pilot = s.sup.pilot ∧ (watchRecord s).sup.iPil = s.sup.iPil
      ∧ (watchRecord s).sup.nPh = s.sup.nPh ∧ (watchRecord s).sup.uMin = s.sup.uMin
      ∧ (watchRecord s).sup.supplyPresent = s.sup.supplyPresent := by
  unfold watchRecord; dsimp only; (repeat' split) <;> simp

@[simp] theorem stageFaultWith_within (c : StageCause) (s : State) :
    (stageFaultWith c s).alc.record = s.alc.record ∧ (stageFaultWith c s).alc.hold = s.alc.hold
      ∧ (stageFaultWith c s).alc.holdTimer = s.alc.holdTimer ∧ (stageFaultWith c s).alc.resting = s.alc.resting
      ∧ (stageFaultWith c s).alc.restTimer = s.alc.restTimer ∧ (stageFaultWith c s).alc.window = s.alc.window
      ∧ (stageFaultWith c s).alc.stage = s.alc.stage ∧ (stageFaultWith c s).alc.stageReady = s.alc.stageReady
      ∧ (stageFaultWith c s).alc.stageFault = s.alc.stageFault ∧ (stageFaultWith c s).alc.fresh = s.alc.fresh
      ∧ (stageFaultWith c s).alc.freshTimer = s.alc.freshTimer
      ∧ (stageFaultWith c s).alc.changeover = s.alc.changeover ∧ (stageFaultWith c s).alc.link = s.alc.link
      ∧ (stageFaultWith c s).alc.mirror54 = s.alc.mirror54 ∧ (stageFaultWith c s).alc.mirror55 = s.alc.mirror55 := by
  simp [stageFaultWith]

@[simp] theorem immediateOff_within (s : State) :
    (immediateOff s).alc.hold = s.alc.hold ∧ (immediateOff s).alc.holdTimer = s.alc.holdTimer
      ∧ (immediateOff s).alc.resting = s.alc.resting ∧ (immediateOff s).alc.restTimer = s.alc.restTimer
      ∧ (immediateOff s).alc.window = s.alc.window ∧ (immediateOff s).alc.stage = s.alc.stage
      ∧ (immediateOff s).alc.stageReady = s.alc.stageReady ∧ (immediateOff s).alc.stageFault = s.alc.stageFault
      ∧ (immediateOff s).alc.cause = s.alc.cause ∧ (immediateOff s).alc.mirror54 = s.alc.mirror54
      ∧ (immediateOff s).alc.mirror55 = s.alc.mirror55 := by
  simp [immediateOff]

@[simp] theorem markHoldWithdrawn_within (s : State) :
    (markHoldWithdrawn s).ses.plug = s.ses.plug ∧ (markHoldWithdrawn s).ses.session = s.ses.session
      ∧ (markHoldWithdrawn s).ses.tag = s.ses.tag ∧ (markHoldWithdrawn s).ses.number = s.ses.number
      ∧ (markHoldWithdrawn s).ses.prices = s.ses.prices ∧ (markHoldWithdrawn s).ses.startTime = s.ses.startTime
      ∧ (markHoldWithdrawn s).ses.timeUnknown = s.ses.timeUnknown
      ∧ (markHoldWithdrawn s).ses.bandHeld = s.ses.bandHeld
      ∧ (markHoldWithdrawn s).ses.closeReason = s.ses.closeReason ∧ (markHoldWithdrawn s).ses.endTime = s.ses.endTime
      ∧ (markHoldWithdrawn s).ses.debA = s.ses.debA ∧ (markHoldWithdrawn s).ses.debB = s.ses.debB
      ∧ (markHoldWithdrawn s).ses.scopedReset = s.ses.scopedReset
      ∧ (markHoldWithdrawn s).ses.defaultAccount = s.ses.defaultAccount
      ∧ (markHoldWithdrawn s).ses.autoOpen = s.ses.autoOpen := by
  unfold markHoldWithdrawn; split <;> simp

@[simp] theorem dropHold_within (s : State) :
    (dropHold s).alc.record = s.alc.record ∧ (dropHold s).alc.resting = s.alc.resting
      ∧ (dropHold s).alc.restTimer = s.alc.restTimer ∧ (dropHold s).alc.window = s.alc.window
      ∧ (dropHold s).alc.stage = s.alc.stage ∧ (dropHold s).alc.stageReady = s.alc.stageReady
      ∧ (dropHold s).alc.stageFault = s.alc.stageFault ∧ (dropHold s).alc.cause = s.alc.cause
      ∧ (dropHold s).alc.fresh = s.alc.fresh ∧ (dropHold s).alc.freshTimer = s.alc.freshTimer
      ∧ (dropHold s).alc.changeover = s.alc.changeover ∧ (dropHold s).alc.link = s.alc.link
      ∧ (dropHold s).alc.mirror54 = s.alc.mirror54 ∧ (dropHold s).alc.mirror55 = s.alc.mirror55 := by
  simp [dropHold]

@[simp] theorem dropHoldWithNotice_within (s : State) :
    (dropHoldWithNotice s).alc.record = s.alc.record ∧ (dropHoldWithNotice s).alc.resting = s.alc.resting
      ∧ (dropHoldWithNotice s).alc.restTimer = s.alc.restTimer ∧ (dropHoldWithNotice s).alc.window = s.alc.window
      ∧ (dropHoldWithNotice s).alc.stage = s.alc.stage ∧ (dropHoldWithNotice s).alc.stageReady = s.alc.stageReady
      ∧ (dropHoldWithNotice s).alc.stageFault = s.alc.stageFault ∧ (dropHoldWithNotice s).alc.cause = s.alc.cause
      ∧ (dropHoldWithNotice s).alc.fresh = s.alc.fresh ∧ (dropHoldWithNotice s).alc.freshTimer = s.alc.freshTimer
      ∧ (dropHoldWithNotice s).alc.changeover = s.alc.changeover ∧ (dropHoldWithNotice s).alc.link = s.alc.link
      ∧ (dropHoldWithNotice s).alc.mirror54 = s.alc.mirror54 ∧ (dropHoldWithNotice s).alc.mirror55 = s.alc.mirror55 := by
  unfold dropHoldWithNotice; split <;> simp

@[simp] theorem endHoldByGrade_within (s : State) :
    (endHoldByGrade s).alc.record = s.alc.record ∧ (endHoldByGrade s).alc.resting = s.alc.resting
      ∧ (endHoldByGrade s).alc.restTimer = s.alc.restTimer ∧ (endHoldByGrade s).alc.window = s.alc.window
      ∧ (endHoldByGrade s).alc.stage = s.alc.stage ∧ (endHoldByGrade s).alc.stageReady = s.alc.stageReady
      ∧ (endHoldByGrade s).alc.stageFault = s.alc.stageFault ∧ (endHoldByGrade s).alc.cause = s.alc.cause
      ∧ (endHoldByGrade s).alc.fresh = s.alc.fresh ∧ (endHoldByGrade s).alc.freshTimer = s.alc.freshTimer
      ∧ (endHoldByGrade s).alc.changeover = s.alc.changeover ∧ (endHoldByGrade s).alc.link = s.alc.link
      ∧ (endHoldByGrade s).alc.mirror54 = s.alc.mirror54 ∧ (endHoldByGrade s).alc.mirror55 = s.alc.mirror55
      ∧ (endHoldByGrade s).ses.plug = s.ses.plug ∧ (endHoldByGrade s).ses.session = s.ses.session
      ∧ (endHoldByGrade s).ses.tag = s.ses.tag ∧ (endHoldByGrade s).ses.number = s.ses.number
      ∧ (endHoldByGrade s).ses.prices = s.ses.prices ∧ (endHoldByGrade s).ses.startTime = s.ses.startTime
      ∧ (endHoldByGrade s).ses.timeUnknown = s.ses.timeUnknown ∧ (endHoldByGrade s).ses.bandHeld = s.ses.bandHeld
      ∧ (endHoldByGrade s).ses.closeReason = s.ses.closeReason ∧ (endHoldByGrade s).ses.endTime = s.ses.endTime
      ∧ (endHoldByGrade s).ses.debA = s.ses.debA ∧ (endHoldByGrade s).ses.debB = s.ses.debB
      ∧ (endHoldByGrade s).ses.scopedReset = s.ses.scopedReset
      ∧ (endHoldByGrade s).ses.defaultAccount = s.ses.defaultAccount
      ∧ (endHoldByGrade s).ses.autoOpen = s.ses.autoOpen := by
  unfold endHoldByGrade; split <;> simp

@[simp] theorem suspendHold_within (s : State) :
    (suspendHold s).alc.record = s.alc.record ∧ (suspendHold s).alc.holdTimer = s.alc.holdTimer
      ∧ (suspendHold s).alc.resting = s.alc.resting ∧ (suspendHold s).alc.restTimer = s.alc.restTimer
      ∧ (suspendHold s).alc.window = s.alc.window ∧ (suspendHold s).alc.stage = s.alc.stage
      ∧ (suspendHold s).alc.stageReady = s.alc.stageReady ∧ (suspendHold s).alc.stageFault = s.alc.stageFault
      ∧ (suspendHold s).alc.cause = s.alc.cause ∧ (suspendHold s).alc.fresh = s.alc.fresh
      ∧ (suspendHold s).alc.freshTimer = s.alc.freshTimer ∧ (suspendHold s).alc.changeover = s.alc.changeover
      ∧ (suspendHold s).alc.link = s.alc.link ∧ (suspendHold s).alc.mirror54 = s.alc.mirror54
      ∧ (suspendHold s).alc.mirror55 = s.alc.mirror55 ∧ (suspendHold s).ses.plug = s.ses.plug
      ∧ (suspendHold s).ses.session = s.ses.session ∧ (suspendHold s).ses.tag = s.ses.tag
      ∧ (suspendHold s).ses.number = s.ses.number ∧ (suspendHold s).ses.prices = s.ses.prices
      ∧ (suspendHold s).ses.startTime = s.ses.startTime ∧ (suspendHold s).ses.timeUnknown = s.ses.timeUnknown
      ∧ (suspendHold s).ses.bandHeld = s.ses.bandHeld ∧ (suspendHold s).ses.closeReason = s.ses.closeReason
      ∧ (suspendHold s).ses.endTime = s.ses.endTime ∧ (suspendHold s).ses.debA = s.ses.debA
      ∧ (suspendHold s).ses.debB = s.ses.debB ∧ (suspendHold s).ses.scopedReset = s.ses.scopedReset
      ∧ (suspendHold s).ses.defaultAccount = s.ses.defaultAccount ∧ (suspendHold s).ses.autoOpen = s.ses.autoOpen := by
  unfold suspendHold; split <;> simp

@[simp] theorem restoreHold_within (s : State) :
    (restoreHold s).alc.record = s.alc.record ∧ (restoreHold s).alc.holdTimer = s.alc.holdTimer
      ∧ (restoreHold s).alc.resting = s.alc.resting ∧ (restoreHold s).alc.restTimer = s.alc.restTimer
      ∧ (restoreHold s).alc.window = s.alc.window ∧ (restoreHold s).alc.stage = s.alc.stage
      ∧ (restoreHold s).alc.stageReady = s.alc.stageReady ∧ (restoreHold s).alc.stageFault = s.alc.stageFault
      ∧ (restoreHold s).alc.cause = s.alc.cause ∧ (restoreHold s).alc.fresh = s.alc.fresh
      ∧ (restoreHold s).alc.freshTimer = s.alc.freshTimer ∧ (restoreHold s).alc.changeover = s.alc.changeover
      ∧ (restoreHold s).alc.link = s.alc.link ∧ (restoreHold s).alc.mirror54 = s.alc.mirror54
      ∧ (restoreHold s).alc.mirror55 = s.alc.mirror55 := by
  unfold restoreHold; (repeat' split) <;> simp

@[simp] theorem endRest_within (s : State) :
    (endRest s).alc.record = s.alc.record ∧ (endRest s).alc.hold = s.alc.hold
      ∧ (endRest s).alc.holdTimer = s.alc.holdTimer ∧ (endRest s).alc.window = s.alc.window
      ∧ (endRest s).alc.stage = s.alc.stage ∧ (endRest s).alc.stageReady = s.alc.stageReady
      ∧ (endRest s).alc.stageFault = s.alc.stageFault ∧ (endRest s).alc.cause = s.alc.cause
      ∧ (endRest s).alc.fresh = s.alc.fresh ∧ (endRest s).alc.freshTimer = s.alc.freshTimer
      ∧ (endRest s).alc.changeover = s.alc.changeover ∧ (endRest s).alc.link = s.alc.link
      ∧ (endRest s).alc.mirror54 = s.alc.mirror54 ∧ (endRest s).alc.mirror55 = s.alc.mirror55 := by
  simp [endRest]

@[simp] theorem endRestWithNotice_within (s : State) :
    (endRestWithNotice s).alc.record = s.alc.record ∧ (endRestWithNotice s).alc.hold = s.alc.hold
      ∧ (endRestWithNotice s).alc.holdTimer = s.alc.holdTimer ∧ (endRestWithNotice s).alc.window = s.alc.window
      ∧ (endRestWithNotice s).alc.stage = s.alc.stage ∧ (endRestWithNotice s).alc.stageReady = s.alc.stageReady
      ∧ (endRestWithNotice s).alc.stageFault = s.alc.stageFault ∧ (endRestWithNotice s).alc.cause = s.alc.cause
      ∧ (endRestWithNotice s).alc.fresh = s.alc.fresh ∧ (endRestWithNotice s).alc.freshTimer = s.alc.freshTimer
      ∧ (endRestWithNotice s).alc.changeover = s.alc.changeover ∧ (endRestWithNotice s).alc.link = s.alc.link
      ∧ (endRestWithNotice s).alc.mirror54 = s.alc.mirror54 ∧ (endRestWithNotice s).alc.mirror55 = s.alc.mirror55 := by
  unfold endRestWithNotice; split <;> simp

/-! ## Store -/

@[simp] theorem startCheckpoint_within (c : Checkpoint) (s : State) :
    (startCheckpoint c s).rst.waitFinal = s.rst.waitFinal
      ∧ (startCheckpoint c s).rst.waitCheckpoint = s.rst.waitCheckpoint
      ∧ (startCheckpoint c s).rst.waitImage = s.rst.waitImage ∧ (startCheckpoint c s).nv.slots = s.nv.slots
      ∧ (startCheckpoint c s).nv.counter = s.nv.counter ∧ (startCheckpoint c s).nv.image = s.nv.image := by
  simp [startCheckpoint]

@[simp] theorem checkpointRequest_within (c : Checkpoint) (s : State) :
    (checkpointRequest c s).rst.waitFinal = s.rst.waitFinal ∧ (checkpointRequest c s).rst.waitImage = s.rst.waitImage
      ∧ (checkpointRequest c s).nv.slots = s.nv.slots ∧ (checkpointRequest c s).nv.counter = s.nv.counter
      ∧ (checkpointRequest c s).nv.image = s.nv.image := by
  unfold checkpointRequest; (repeat' split) <;> simp

@[simp] theorem handoverFinal_within (n : Word32) (ws : List Word) (s : State) :
    (handoverFinal n ws s).rst.waitImage = s.rst.waitImage := by
  unfold handoverFinal; split <;> simp

@[simp] theorem nextWrite_within (s : State) :
    (nextWrite s).nv.slots = s.nv.slots ∧ (nextWrite s).nv.counter = s.nv.counter
      ∧ (nextWrite s).nv.image = s.nv.image := by
  unfold nextWrite; (repeat' split) <;> simp

/-! ## Meter -/

@[simp] theorem bookSession_within (sh : Shares) (s : State) :
    (bookSession sh s).mtr.minPerVolt = s.mtr.minPerVolt ∧ (bookSession sh s).mtr.worst = s.mtr.worst
      ∧ (bookSession sh s).mtr.unassigned = s.mtr.unassigned ∧ (bookSession sh s).mtr.clock = s.mtr.clock
      ∧ (bookSession sh s).mtr.band = s.mtr.band ∧ (bookSession sh s).mtr.lockHeld = s.mtr.lockHeld
      ∧ (bookSession sh s).mtr.lockTimer = s.mtr.lockTimer
      ∧ (bookSession sh s).mtr.checkpointTimer = s.mtr.checkpointTimer := by
  simp [bookSession]

@[simp] theorem bookUnassigned_within (e : Nat) (s : State) :
    (bookUnassigned e s).mtr.chg = s.mtr.chg ∧ (bookUnassigned e s).mtr.heat = s.mtr.heat
      ∧ (bookUnassigned e s).mtr.aux = s.mtr.aux ∧ (bookUnassigned e s).mtr.standby = s.mtr.standby
      ∧ (bookUnassigned e s).mtr.lines = s.mtr.lines ∧ (bookUnassigned e s).mtr.minPerVolt = s.mtr.minPerVolt
      ∧ (bookUnassigned e s).mtr.worst = s.mtr.worst ∧ (bookUnassigned e s).mtr.clock = s.mtr.clock
      ∧ (bookUnassigned e s).mtr.band = s.mtr.band ∧ (bookUnassigned e s).mtr.lockHeld = s.mtr.lockHeld
      ∧ (bookUnassigned e s).mtr.lockTimer = s.mtr.lockTimer
      ∧ (bookUnassigned e s).mtr.checkpointTimer = s.mtr.checkpointTimer := by
  simp [bookUnassigned]

@[simp] theorem bookEnergy_within (e : Nat) (s : State) :
    (bookEnergy e s).mtr.minPerVolt = s.mtr.minPerVolt ∧ (bookEnergy e s).mtr.worst = s.mtr.worst
      ∧ (bookEnergy e s).mtr.clock = s.mtr.clock ∧ (bookEnergy e s).mtr.band = s.mtr.band
      ∧ (bookEnergy e s).mtr.lockHeld = s.mtr.lockHeld ∧ (bookEnergy e s).mtr.lockTimer = s.mtr.lockTimer
      ∧ (bookEnergy e s).mtr.checkpointTimer = s.mtr.checkpointTimer := by
  unfold bookEnergy; split <;> simp

@[simp] theorem askCheckpoint_within (s : State) :
    (askCheckpoint s).mtr.chg = s.mtr.chg ∧ (askCheckpoint s).mtr.heat = s.mtr.heat
      ∧ (askCheckpoint s).mtr.aux = s.mtr.aux ∧ (askCheckpoint s).mtr.standby = s.mtr.standby
      ∧ (askCheckpoint s).mtr.lines = s.mtr.lines ∧ (askCheckpoint s).mtr.minPerVolt = s.mtr.minPerVolt
      ∧ (askCheckpoint s).mtr.worst = s.mtr.worst ∧ (askCheckpoint s).mtr.unassigned = s.mtr.unassigned
      ∧ (askCheckpoint s).mtr.clock = s.mtr.clock ∧ (askCheckpoint s).mtr.band = s.mtr.band
      ∧ (askCheckpoint s).mtr.lockHeld = s.mtr.lockHeld ∧ (askCheckpoint s).mtr.lockTimer = s.mtr.lockTimer
      ∧ (askCheckpoint s).rst.waitFinal = s.rst.waitFinal ∧ (askCheckpoint s).rst.waitImage = s.rst.waitImage
      ∧ (askCheckpoint s).nv.slots = s.nv.slots ∧ (askCheckpoint s).nv.counter = s.nv.counter
      ∧ (askCheckpoint s).nv.image = s.nv.image := by
  simp [askCheckpoint]

@[simp] theorem markTimeUnknown_within (s : State) :
    (markTimeUnknown s).ses.plug = s.ses.plug ∧ (markTimeUnknown s).ses.session = s.ses.session
      ∧ (markTimeUnknown s).ses.tag = s.ses.tag ∧ (markTimeUnknown s).ses.number = s.ses.number
      ∧ (markTimeUnknown s).ses.prices = s.ses.prices ∧ (markTimeUnknown s).ses.startTime = s.ses.startTime
      ∧ (markTimeUnknown s).ses.bandHeld = s.ses.bandHeld
      ∧ (markTimeUnknown s).ses.holdWithdrawn = s.ses.holdWithdrawn
      ∧ (markTimeUnknown s).ses.closeReason = s.ses.closeReason ∧ (markTimeUnknown s).ses.endTime = s.ses.endTime
      ∧ (markTimeUnknown s).ses.debA = s.ses.debA ∧ (markTimeUnknown s).ses.debB = s.ses.debB
      ∧ (markTimeUnknown s).ses.scopedReset = s.ses.scopedReset
      ∧ (markTimeUnknown s).ses.defaultAccount = s.ses.defaultAccount
      ∧ (markTimeUnknown s).ses.autoOpen = s.ses.autoOpen := by
  unfold markTimeUnknown; split <;> simp

@[simp] theorem adoptBand_within (s : State) :
    (adoptBand s).mtr.chg = s.mtr.chg ∧ (adoptBand s).mtr.heat = s.mtr.heat ∧ (adoptBand s).mtr.aux = s.mtr.aux
      ∧ (adoptBand s).mtr.standby = s.mtr.standby ∧ (adoptBand s).mtr.lines = s.mtr.lines
      ∧ (adoptBand s).mtr.minPerVolt = s.mtr.minPerVolt ∧ (adoptBand s).mtr.worst = s.mtr.worst
      ∧ (adoptBand s).mtr.unassigned = s.mtr.unassigned ∧ (adoptBand s).mtr.clock = s.mtr.clock
      ∧ (adoptBand s).mtr.lockHeld = s.mtr.lockHeld ∧ (adoptBand s).mtr.lockTimer = s.mtr.lockTimer
      ∧ (adoptBand s).mtr.checkpointTimer = s.mtr.checkpointTimer := by
  simp [adoptBand]

@[simp] theorem evaluateBand_within (s : State) :
    (evaluateBand s).ses.plug = s.ses.plug ∧ (evaluateBand s).ses.session = s.ses.session
      ∧ (evaluateBand s).ses.tag = s.ses.tag ∧ (evaluateBand s).ses.number = s.ses.number
      ∧ (evaluateBand s).ses.prices = s.ses.prices ∧ (evaluateBand s).ses.startTime = s.ses.startTime
      ∧ (evaluateBand s).ses.bandHeld = s.ses.bandHeld ∧ (evaluateBand s).ses.holdWithdrawn = s.ses.holdWithdrawn
      ∧ (evaluateBand s).ses.closeReason = s.ses.closeReason ∧ (evaluateBand s).ses.endTime = s.ses.endTime
      ∧ (evaluateBand s).ses.debA = s.ses.debA ∧ (evaluateBand s).ses.debB = s.ses.debB
      ∧ (evaluateBand s).ses.scopedReset = s.ses.scopedReset
      ∧ (evaluateBand s).ses.defaultAccount = s.ses.defaultAccount ∧ (evaluateBand s).ses.autoOpen = s.ses.autoOpen
      ∧ (evaluateBand s).mtr.chg = s.mtr.chg ∧ (evaluateBand s).mtr.heat = s.mtr.heat
      ∧ (evaluateBand s).mtr.aux = s.mtr.aux ∧ (evaluateBand s).mtr.standby = s.mtr.standby
      ∧ (evaluateBand s).mtr.lines = s.mtr.lines ∧ (evaluateBand s).mtr.minPerVolt = s.mtr.minPerVolt
      ∧ (evaluateBand s).mtr.worst = s.mtr.worst ∧ (evaluateBand s).mtr.unassigned = s.mtr.unassigned
      ∧ (evaluateBand s).mtr.clock = s.mtr.clock ∧ (evaluateBand s).mtr.lockHeld = s.mtr.lockHeld
      ∧ (evaluateBand s).mtr.lockTimer = s.mtr.lockTimer ∧ (evaluateBand s).rst.waitFinal = s.rst.waitFinal
      ∧ (evaluateBand s).rst.waitImage = s.rst.waitImage ∧ (evaluateBand s).nv.slots = s.nv.slots
      ∧ (evaluateBand s).nv.counter = s.nv.counter ∧ (evaluateBand s).nv.image = s.nv.image := by
  unfold evaluateBand; dsimp only; (repeat' split) <;> simp

@[simp] theorem slotBoundary_within (s : State) :
    (slotBoundary s).ses.plug = s.ses.plug ∧ (slotBoundary s).ses.session = s.ses.session
      ∧ (slotBoundary s).ses.tag = s.ses.tag ∧ (slotBoundary s).ses.number = s.ses.number
      ∧ (slotBoundary s).ses.prices = s.ses.prices ∧ (slotBoundary s).ses.startTime = s.ses.startTime
      ∧ (slotBoundary s).ses.holdWithdrawn = s.ses.holdWithdrawn
      ∧ (slotBoundary s).ses.closeReason = s.ses.closeReason ∧ (slotBoundary s).ses.endTime = s.ses.endTime
      ∧ (slotBoundary s).ses.debA = s.ses.debA ∧ (slotBoundary s).ses.debB = s.ses.debB
      ∧ (slotBoundary s).ses.scopedReset = s.ses.scopedReset
      ∧ (slotBoundary s).ses.defaultAccount = s.ses.defaultAccount ∧ (slotBoundary s).ses.autoOpen = s.ses.autoOpen
      ∧ (slotBoundary s).mtr.chg = s.mtr.chg ∧ (slotBoundary s).mtr.heat = s.mtr.heat
      ∧ (slotBoundary s).mtr.aux = s.mtr.aux ∧ (slotBoundary s).mtr.standby = s.mtr.standby
      ∧ (slotBoundary s).mtr.lines = s.mtr.lines ∧ (slotBoundary s).mtr.minPerVolt = s.mtr.minPerVolt
      ∧ (slotBoundary s).mtr.worst = s.mtr.worst ∧ (slotBoundary s).mtr.unassigned = s.mtr.unassigned
      ∧ (slotBoundary s).mtr.clock = s.mtr.clock ∧ (slotBoundary s).mtr.lockHeld = s.mtr.lockHeld
      ∧ (slotBoundary s).mtr.lockTimer = s.mtr.lockTimer ∧ (slotBoundary s).rst.waitFinal = s.rst.waitFinal
      ∧ (slotBoundary s).rst.waitImage = s.rst.waitImage ∧ (slotBoundary s).nv.slots = s.nv.slots
      ∧ (slotBoundary s).nv.counter = s.nv.counter ∧ (slotBoundary s).nv.image = s.nv.image := by
  unfold slotBoundary; dsimp only; (repeat' split) <;> simp

@[simp] theorem advanceClock_within (s : State) :
    (advanceClock s).ses.plug = s.ses.plug ∧ (advanceClock s).ses.session = s.ses.session
      ∧ (advanceClock s).ses.tag = s.ses.tag ∧ (advanceClock s).ses.number = s.ses.number
      ∧ (advanceClock s).ses.prices = s.ses.prices ∧ (advanceClock s).ses.startTime = s.ses.startTime
      ∧ (advanceClock s).ses.holdWithdrawn = s.ses.holdWithdrawn
      ∧ (advanceClock s).ses.closeReason = s.ses.closeReason ∧ (advanceClock s).ses.endTime = s.ses.endTime
      ∧ (advanceClock s).ses.debA = s.ses.debA ∧ (advanceClock s).ses.debB = s.ses.debB
      ∧ (advanceClock s).ses.scopedReset = s.ses.scopedReset
      ∧ (advanceClock s).ses.defaultAccount = s.ses.defaultAccount ∧ (advanceClock s).ses.autoOpen = s.ses.autoOpen
      ∧ (advanceClock s).mtr.chg = s.mtr.chg ∧ (advanceClock s).mtr.heat = s.mtr.heat
      ∧ (advanceClock s).mtr.aux = s.mtr.aux ∧ (advanceClock s).mtr.standby = s.mtr.standby
      ∧ (advanceClock s).mtr.lines = s.mtr.lines ∧ (advanceClock s).mtr.minPerVolt = s.mtr.minPerVolt
      ∧ (advanceClock s).mtr.worst = s.mtr.worst ∧ (advanceClock s).mtr.unassigned = s.mtr.unassigned
      ∧ (advanceClock s).mtr.lockHeld = s.mtr.lockHeld ∧ (advanceClock s).mtr.lockTimer = s.mtr.lockTimer
      ∧ (advanceClock s).rst.waitFinal = s.rst.waitFinal ∧ (advanceClock s).rst.waitImage = s.rst.waitImage
      ∧ (advanceClock s).nv.slots = s.nv.slots ∧ (advanceClock s).nv.counter = s.nv.counter
      ∧ (advanceClock s).nv.image = s.nv.image := by
  unfold advanceClock; (repeat' split) <;> simp

@[simp] theorem freeLock_within (s : State) :
    (freeLock s).mtr.chg = s.mtr.chg ∧ (freeLock s).mtr.heat = s.mtr.heat ∧ (freeLock s).mtr.aux = s.mtr.aux
      ∧ (freeLock s).mtr.standby = s.mtr.standby ∧ (freeLock s).mtr.lines = s.mtr.lines
      ∧ (freeLock s).mtr.minPerVolt = s.mtr.minPerVolt ∧ (freeLock s).mtr.worst = s.mtr.worst
      ∧ (freeLock s).mtr.unassigned = s.mtr.unassigned ∧ (freeLock s).mtr.clock = s.mtr.clock
      ∧ (freeLock s).mtr.band = s.mtr.band ∧ (freeLock s).mtr.checkpointTimer = s.mtr.checkpointTimer := by
  simp [freeLock]

@[simp] theorem breakLock_within (s : State) :
    (breakLock s).ses.plug = s.ses.plug ∧ (breakLock s).ses.session = s.ses.session
      ∧ (breakLock s).ses.tag = s.ses.tag ∧ (breakLock s).ses.number = s.ses.number
      ∧ (breakLock s).ses.prices = s.ses.prices ∧ (breakLock s).ses.startTime = s.ses.startTime
      ∧ (breakLock s).ses.bandHeld = s.ses.bandHeld ∧ (breakLock s).ses.holdWithdrawn = s.ses.holdWithdrawn
      ∧ (breakLock s).ses.closeReason = s.ses.closeReason ∧ (breakLock s).ses.endTime = s.ses.endTime
      ∧ (breakLock s).ses.debA = s.ses.debA ∧ (breakLock s).ses.debB = s.ses.debB
      ∧ (breakLock s).ses.scopedReset = s.ses.scopedReset ∧ (breakLock s).ses.defaultAccount = s.ses.defaultAccount
      ∧ (breakLock s).ses.autoOpen = s.ses.autoOpen ∧ (breakLock s).mtr.chg = s.mtr.chg
      ∧ (breakLock s).mtr.heat = s.mtr.heat ∧ (breakLock s).mtr.aux = s.mtr.aux
      ∧ (breakLock s).mtr.standby = s.mtr.standby ∧ (breakLock s).mtr.lines = s.mtr.lines
      ∧ (breakLock s).mtr.minPerVolt = s.mtr.minPerVolt ∧ (breakLock s).mtr.worst = s.mtr.worst
      ∧ (breakLock s).mtr.unassigned = s.mtr.unassigned ∧ (breakLock s).mtr.clock = s.mtr.clock
      ∧ (breakLock s).rst.waitFinal = s.rst.waitFinal ∧ (breakLock s).rst.waitImage = s.rst.waitImage
      ∧ (breakLock s).nv.slots = s.nv.slots ∧ (breakLock s).nv.counter = s.nv.counter
      ∧ (breakLock s).nv.image = s.nv.image := by
  unfold breakLock; split <;> simp

@[simp] theorem updateSummary_within (r : IsoResult) (s : State) :
    (updateSummary r s).mtr.chg = s.mtr.chg ∧ (updateSummary r s).mtr.heat = s.mtr.heat
      ∧ (updateSummary r s).mtr.aux = s.mtr.aux ∧ (updateSummary r s).mtr.standby = s.mtr.standby
      ∧ (updateSummary r s).mtr.lines = s.mtr.lines ∧ (updateSummary r s).mtr.unassigned = s.mtr.unassigned
      ∧ (updateSummary r s).mtr.clock = s.mtr.clock ∧ (updateSummary r s).mtr.band = s.mtr.band
      ∧ (updateSummary r s).mtr.lockHeld = s.mtr.lockHeld ∧ (updateSummary r s).mtr.lockTimer = s.mtr.lockTimer
      ∧ (updateSummary r s).mtr.checkpointTimer = s.mtr.checkpointTimer := by
  unfold updateSummary; (repeat' split) <;> simp

/-! ## Session -/

@[simp] theorem enterSession_within (st : SessionState) (s : State) :
    (enterSession st s).ses.plug = s.ses.plug ∧ (enterSession st s).ses.tag = s.ses.tag
      ∧ (enterSession st s).ses.number = s.ses.number ∧ (enterSession st s).ses.prices = s.ses.prices
      ∧ (enterSession st s).ses.startTime = s.ses.startTime ∧ (enterSession st s).ses.timeUnknown = s.ses.timeUnknown
      ∧ (enterSession st s).ses.bandHeld = s.ses.bandHeld
      ∧ (enterSession st s).ses.holdWithdrawn = s.ses.holdWithdrawn
      ∧ (enterSession st s).ses.closeReason = s.ses.closeReason ∧ (enterSession st s).ses.endTime = s.ses.endTime
      ∧ (enterSession st s).ses.debA = s.ses.debA ∧ (enterSession st s).ses.debB = s.ses.debB
      ∧ (enterSession st s).ses.scopedReset = s.ses.scopedReset
      ∧ (enterSession st s).ses.defaultAccount = s.ses.defaultAccount
      ∧ (enterSession st s).ses.autoOpen = s.ses.autoOpen ∧ (enterSession st s).sup.pilot = s.sup.pilot
      ∧ (enterSession st s).sup.iPil = s.sup.iPil ∧ (enterSession st s).sup.nPh = s.sup.nPh
      ∧ (enterSession st s).sup.uMin = s.sup.uMin ∧ (enterSession st s).sup.supplyPresent = s.sup.supplyPresent := by
  simp [enterSession]

@[simp] theorem openSession_within (tag : Option Tag) (s : State) :
    (openSession tag s).ses.plug = s.ses.plug ∧ (openSession tag s).ses.debA = s.ses.debA
      ∧ (openSession tag s).ses.debB = s.ses.debB ∧ (openSession tag s).ses.scopedReset = s.ses.scopedReset
      ∧ (openSession tag s).ses.defaultAccount = s.ses.defaultAccount
      ∧ (openSession tag s).ses.autoOpen = s.ses.autoOpen ∧ (openSession tag s).mtr.unassigned = s.mtr.unassigned
      ∧ (openSession tag s).mtr.clock = s.mtr.clock ∧ (openSession tag s).mtr.lockHeld = s.mtr.lockHeld
      ∧ (openSession tag s).mtr.lockTimer = s.mtr.lockTimer ∧ (openSession tag s).rst.writer = s.rst.writer
      ∧ (openSession tag s).rst.waitFinal = s.rst.waitFinal
      ∧ (openSession tag s).rst.waitCheckpoint = s.rst.waitCheckpoint
      ∧ (openSession tag s).rst.waitImage = s.rst.waitImage ∧ (openSession tag s).sup.pilot = s.sup.pilot
      ∧ (openSession tag s).sup.iPil = s.sup.iPil ∧ (openSession tag s).sup.nPh = s.sup.nPh
      ∧ (openSession tag s).sup.uMin = s.sup.uMin ∧ (openSession tag s).sup.supplyPresent = s.sup.supplyPresent := by
  simp [openSession, Ses.opening, Mtr.emptied]

@[simp] theorem authorizeSession_within (tag : Option Tag) (s : State) :
    (authorizeSession tag s).ses.plug = s.ses.plug ∧ (authorizeSession tag s).ses.debA = s.ses.debA
      ∧ (authorizeSession tag s).ses.debB = s.ses.debB ∧ (authorizeSession tag s).ses.scopedReset = s.ses.scopedReset
      ∧ (authorizeSession tag s).ses.defaultAccount = s.ses.defaultAccount
      ∧ (authorizeSession tag s).ses.autoOpen = s.ses.autoOpen
      ∧ (authorizeSession tag s).mtr.unassigned = s.mtr.unassigned ∧ (authorizeSession tag s).mtr.clock = s.mtr.clock
      ∧ (authorizeSession tag s).mtr.lockHeld = s.mtr.lockHeld
      ∧ (authorizeSession tag s).mtr.lockTimer = s.mtr.lockTimer ∧ (authorizeSession tag s).rst.writer = s.rst.writer
      ∧ (authorizeSession tag s).rst.waitFinal = s.rst.waitFinal
      ∧ (authorizeSession tag s).rst.waitCheckpoint = s.rst.waitCheckpoint
      ∧ (authorizeSession tag s).rst.waitImage = s.rst.waitImage ∧ (authorizeSession tag s).sup.pilot = s.sup.pilot
      ∧ (authorizeSession tag s).sup.iPil = s.sup.iPil ∧ (authorizeSession tag s).sup.nPh = s.sup.nPh
      ∧ (authorizeSession tag s).sup.uMin = s.sup.uMin
      ∧ (authorizeSession tag s).sup.supplyPresent = s.sup.supplyPresent := by
  unfold authorizeSession; split <;> simp

@[simp] theorem closeSession_within (reason : CloseReason) (s : State) :
    (closeSession reason s).ses.plug = s.ses.plug ∧ (closeSession reason s).ses.tag = s.ses.tag
      ∧ (closeSession reason s).ses.number = s.ses.number ∧ (closeSession reason s).ses.prices = s.ses.prices
      ∧ (closeSession reason s).ses.startTime = s.ses.startTime
      ∧ (closeSession reason s).ses.bandHeld = s.ses.bandHeld
      ∧ (closeSession reason s).ses.holdWithdrawn = s.ses.holdWithdrawn
      ∧ (closeSession reason s).ses.debA = s.ses.debA ∧ (closeSession reason s).ses.debB = s.ses.debB
      ∧ (closeSession reason s).ses.scopedReset = s.ses.scopedReset
      ∧ (closeSession reason s).ses.defaultAccount = s.ses.defaultAccount
      ∧ (closeSession reason s).ses.autoOpen = s.ses.autoOpen ∧ (closeSession reason s).mtr.chg = s.mtr.chg
      ∧ (closeSession reason s).mtr.heat = s.mtr.heat ∧ (closeSession reason s).mtr.aux = s.mtr.aux
      ∧ (closeSession reason s).mtr.standby = s.mtr.standby ∧ (closeSession reason s).mtr.lines = s.mtr.lines
      ∧ (closeSession reason s).mtr.minPerVolt = s.mtr.minPerVolt ∧ (closeSession reason s).mtr.worst = s.mtr.worst
      ∧ (closeSession reason s).mtr.unassigned = s.mtr.unassigned ∧ (closeSession reason s).mtr.clock = s.mtr.clock
      ∧ (closeSession reason s).mtr.band = s.mtr.band ∧ (closeSession reason s).mtr.lockHeld = s.mtr.lockHeld
      ∧ (closeSession reason s).mtr.lockTimer = s.mtr.lockTimer
      ∧ (closeSession reason s).rst.waitImage = s.rst.waitImage ∧ (closeSession reason s).sup.pilot = s.sup.pilot
      ∧ (closeSession reason s).sup.iPil = s.sup.iPil ∧ (closeSession reason s).sup.nPh = s.sup.nPh
      ∧ (closeSession reason s).sup.uMin = s.sup.uMin
      ∧ (closeSession reason s).sup.supplyPresent = s.sup.supplyPresent := by
  unfold closeSession; split <;> simp

@[simp] theorem leaveClosing_within (s : State) :
    (leaveClosing s).ses.plug = s.ses.plug ∧ (leaveClosing s).ses.startTime = s.ses.startTime
      ∧ (leaveClosing s).ses.timeUnknown = s.ses.timeUnknown ∧ (leaveClosing s).ses.bandHeld = s.ses.bandHeld
      ∧ (leaveClosing s).ses.holdWithdrawn = s.ses.holdWithdrawn
      ∧ (leaveClosing s).ses.closeReason = s.ses.closeReason ∧ (leaveClosing s).ses.endTime = s.ses.endTime
      ∧ (leaveClosing s).ses.debA = s.ses.debA ∧ (leaveClosing s).ses.debB = s.ses.debB
      ∧ (leaveClosing s).ses.scopedReset = s.ses.scopedReset
      ∧ (leaveClosing s).ses.defaultAccount = s.ses.defaultAccount ∧ (leaveClosing s).ses.autoOpen = s.ses.autoOpen
      ∧ (leaveClosing s).mtr.unassigned = s.mtr.unassigned ∧ (leaveClosing s).mtr.clock = s.mtr.clock
      ∧ (leaveClosing s).mtr.band = s.mtr.band ∧ (leaveClosing s).mtr.lockHeld = s.mtr.lockHeld
      ∧ (leaveClosing s).mtr.lockTimer = s.mtr.lockTimer
      ∧ (leaveClosing s).mtr.checkpointTimer = s.mtr.checkpointTimer ∧ (leaveClosing s).sup.pilot = s.sup.pilot
      ∧ (leaveClosing s).sup.iPil = s.sup.iPil ∧ (leaveClosing s).sup.nPh = s.sup.nPh
      ∧ (leaveClosing s).sup.uMin = s.sup.uMin ∧ (leaveClosing s).sup.supplyPresent = s.sup.supplyPresent := by
  unfold leaveClosing; split <;> simp [Ses.emptied, Mtr.emptied]

@[simp] theorem autoOpen_within (s : State) :
    (autoOpen s).ses.plug = s.ses.plug ∧ (autoOpen s).ses.debA = s.ses.debA ∧ (autoOpen s).ses.debB = s.ses.debB
      ∧ (autoOpen s).ses.scopedReset = s.ses.scopedReset ∧ (autoOpen s).ses.defaultAccount = s.ses.defaultAccount
      ∧ (autoOpen s).ses.autoOpen = s.ses.autoOpen ∧ (autoOpen s).mtr.unassigned = s.mtr.unassigned
      ∧ (autoOpen s).mtr.clock = s.mtr.clock ∧ (autoOpen s).mtr.lockHeld = s.mtr.lockHeld
      ∧ (autoOpen s).mtr.lockTimer = s.mtr.lockTimer ∧ (autoOpen s).rst.writer = s.rst.writer
      ∧ (autoOpen s).rst.waitFinal = s.rst.waitFinal ∧ (autoOpen s).rst.waitCheckpoint = s.rst.waitCheckpoint
      ∧ (autoOpen s).rst.waitImage = s.rst.waitImage ∧ (autoOpen s).sup.pilot = s.sup.pilot
      ∧ (autoOpen s).sup.iPil = s.sup.iPil ∧ (autoOpen s).sup.nPh = s.sup.nPh ∧ (autoOpen s).sup.uMin = s.sup.uMin
      ∧ (autoOpen s).sup.supplyPresent = s.sup.supplyPresent := by
  unfold autoOpen; split <;> simp

@[simp] theorem plugEnters_within (s : State) :
    (plugEnters s).ses.plug = s.ses.plug ∧ (plugEnters s).ses.debA = s.ses.debA ∧ (plugEnters s).ses.debB = s.ses.debB
      ∧ (plugEnters s).ses.scopedReset = s.ses.scopedReset ∧ (plugEnters s).ses.defaultAccount = s.ses.defaultAccount
      ∧ (plugEnters s).ses.autoOpen = s.ses.autoOpen ∧ (plugEnters s).mtr.unassigned = s.mtr.unassigned
      ∧ (plugEnters s).mtr.clock = s.mtr.clock ∧ (plugEnters s).mtr.lockHeld = s.mtr.lockHeld
      ∧ (plugEnters s).mtr.lockTimer = s.mtr.lockTimer ∧ (plugEnters s).rst.writer = s.rst.writer
      ∧ (plugEnters s).rst.waitFinal = s.rst.waitFinal ∧ (plugEnters s).rst.waitCheckpoint = s.rst.waitCheckpoint
      ∧ (plugEnters s).rst.waitImage = s.rst.waitImage ∧ (plugEnters s).sup.pilot = s.sup.pilot
      ∧ (plugEnters s).sup.iPil = s.sup.iPil ∧ (plugEnters s).sup.nPh = s.sup.nPh
      ∧ (plugEnters s).sup.uMin = s.sup.uMin ∧ (plugEnters s).sup.supplyPresent = s.sup.supplyPresent := by
  unfold plugEnters; (repeat' split) <;> simp

@[simp] theorem sessionUnplugged_within (s : State) :
    (sessionUnplugged s).ses.plug = s.ses.plug ∧ (sessionUnplugged s).ses.tag = s.ses.tag
      ∧ (sessionUnplugged s).ses.number = s.ses.number ∧ (sessionUnplugged s).ses.prices = s.ses.prices
      ∧ (sessionUnplugged s).ses.startTime = s.ses.startTime ∧ (sessionUnplugged s).ses.bandHeld = s.ses.bandHeld
      ∧ (sessionUnplugged s).ses.holdWithdrawn = s.ses.holdWithdrawn ∧ (sessionUnplugged s).ses.debA = s.ses.debA
      ∧ (sessionUnplugged s).ses.debB = s.ses.debB ∧ (sessionUnplugged s).ses.scopedReset = s.ses.scopedReset
      ∧ (sessionUnplugged s).ses.defaultAccount = s.ses.defaultAccount
      ∧ (sessionUnplugged s).ses.autoOpen = s.ses.autoOpen ∧ (sessionUnplugged s).mtr.chg = s.mtr.chg
      ∧ (sessionUnplugged s).mtr.heat = s.mtr.heat ∧ (sessionUnplugged s).mtr.aux = s.mtr.aux
      ∧ (sessionUnplugged s).mtr.standby = s.mtr.standby ∧ (sessionUnplugged s).mtr.lines = s.mtr.lines
      ∧ (sessionUnplugged s).mtr.minPerVolt = s.mtr.minPerVolt ∧ (sessionUnplugged s).mtr.worst = s.mtr.worst
      ∧ (sessionUnplugged s).mtr.unassigned = s.mtr.unassigned ∧ (sessionUnplugged s).mtr.clock = s.mtr.clock
      ∧ (sessionUnplugged s).mtr.band = s.mtr.band ∧ (sessionUnplugged s).mtr.lockHeld = s.mtr.lockHeld
      ∧ (sessionUnplugged s).mtr.lockTimer = s.mtr.lockTimer ∧ (sessionUnplugged s).rst.waitImage = s.rst.waitImage
      ∧ (sessionUnplugged s).sup.pilot = s.sup.pilot ∧ (sessionUnplugged s).sup.iPil = s.sup.iPil
      ∧ (sessionUnplugged s).sup.nPh = s.sup.nPh ∧ (sessionUnplugged s).sup.uMin = s.sup.uMin
      ∧ (sessionUnplugged s).sup.supplyPresent = s.sup.supplyPresent := by
  unfold sessionUnplugged; (repeat' split) <;> simp

@[simp] theorem plugLeaves_within (s : State) :
    (plugLeaves s).alc.hold = s.alc.hold ∧ (plugLeaves s).alc.holdTimer = s.alc.holdTimer
      ∧ (plugLeaves s).alc.resting = s.alc.resting ∧ (plugLeaves s).alc.restTimer = s.alc.restTimer
      ∧ (plugLeaves s).alc.window = s.alc.window ∧ (plugLeaves s).alc.stage = s.alc.stage
      ∧ (plugLeaves s).alc.stageReady = s.alc.stageReady ∧ (plugLeaves s).alc.stageFault = s.alc.stageFault
      ∧ (plugLeaves s).alc.cause = s.alc.cause ∧ (plugLeaves s).alc.mirror54 = s.alc.mirror54
      ∧ (plugLeaves s).alc.mirror55 = s.alc.mirror55 ∧ (plugLeaves s).ses.plug = s.ses.plug
      ∧ (plugLeaves s).ses.tag = s.ses.tag ∧ (plugLeaves s).ses.number = s.ses.number
      ∧ (plugLeaves s).ses.prices = s.ses.prices ∧ (plugLeaves s).ses.startTime = s.ses.startTime
      ∧ (plugLeaves s).ses.bandHeld = s.ses.bandHeld ∧ (plugLeaves s).ses.holdWithdrawn = s.ses.holdWithdrawn
      ∧ (plugLeaves s).ses.debA = s.ses.debA ∧ (plugLeaves s).ses.debB = s.ses.debB
      ∧ (plugLeaves s).ses.scopedReset = s.ses.scopedReset ∧ (plugLeaves s).ses.defaultAccount = s.ses.defaultAccount
      ∧ (plugLeaves s).ses.autoOpen = s.ses.autoOpen ∧ (plugLeaves s).mtr.chg = s.mtr.chg
      ∧ (plugLeaves s).mtr.heat = s.mtr.heat ∧ (plugLeaves s).mtr.aux = s.mtr.aux
      ∧ (plugLeaves s).mtr.standby = s.mtr.standby ∧ (plugLeaves s).mtr.lines = s.mtr.lines
      ∧ (plugLeaves s).mtr.minPerVolt = s.mtr.minPerVolt ∧ (plugLeaves s).mtr.worst = s.mtr.worst
      ∧ (plugLeaves s).mtr.unassigned = s.mtr.unassigned ∧ (plugLeaves s).mtr.clock = s.mtr.clock
      ∧ (plugLeaves s).mtr.band = s.mtr.band ∧ (plugLeaves s).mtr.lockHeld = s.mtr.lockHeld
      ∧ (plugLeaves s).mtr.lockTimer = s.mtr.lockTimer ∧ (plugLeaves s).rst.waitImage = s.rst.waitImage
      ∧ (plugLeaves s).sup.pilot = s.sup.pilot ∧ (plugLeaves s).sup.iPil = s.sup.iPil
      ∧ (plugLeaves s).sup.nPh = s.sup.nPh ∧ (plugLeaves s).sup.uMin = s.sup.uMin
      ∧ (plugLeaves s).sup.supplyPresent = s.sup.supplyPresent := by
  simp [plugLeaves]

@[simp] theorem putPlug_within (new : Plug) (s : State) :
    (putPlug new s).alc.hold = s.alc.hold ∧ (putPlug new s).alc.holdTimer = s.alc.holdTimer
      ∧ (putPlug new s).alc.resting = s.alc.resting ∧ (putPlug new s).alc.restTimer = s.alc.restTimer
      ∧ (putPlug new s).alc.window = s.alc.window ∧ (putPlug new s).alc.stage = s.alc.stage
      ∧ (putPlug new s).alc.stageReady = s.alc.stageReady ∧ (putPlug new s).alc.stageFault = s.alc.stageFault
      ∧ (putPlug new s).alc.cause = s.alc.cause ∧ (putPlug new s).alc.mirror54 = s.alc.mirror54
      ∧ (putPlug new s).alc.mirror55 = s.alc.mirror55 ∧ (putPlug new s).ses.debA = s.ses.debA
      ∧ (putPlug new s).ses.debB = s.ses.debB ∧ (putPlug new s).ses.scopedReset = s.ses.scopedReset
      ∧ (putPlug new s).ses.defaultAccount = s.ses.defaultAccount ∧ (putPlug new s).ses.autoOpen = s.ses.autoOpen
      ∧ (putPlug new s).mtr.unassigned = s.mtr.unassigned ∧ (putPlug new s).mtr.clock = s.mtr.clock
      ∧ (putPlug new s).mtr.lockHeld = s.mtr.lockHeld ∧ (putPlug new s).mtr.lockTimer = s.mtr.lockTimer
      ∧ (putPlug new s).rst.waitImage = s.rst.waitImage ∧ (putPlug new s).sup.pilot = s.sup.pilot
      ∧ (putPlug new s).sup.iPil = s.sup.iPil ∧ (putPlug new s).sup.nPh = s.sup.nPh
      ∧ (putPlug new s).sup.uMin = s.sup.uMin ∧ (putPlug new s).sup.supplyPresent = s.sup.supplyPresent := by
  unfold putPlug; (repeat' split) <;> simp

@[simp] theorem derivePlug_within (s : State) :
    (derivePlug s).alc.hold = s.alc.hold ∧ (derivePlug s).alc.holdTimer = s.alc.holdTimer
      ∧ (derivePlug s).alc.resting = s.alc.resting ∧ (derivePlug s).alc.restTimer = s.alc.restTimer
      ∧ (derivePlug s).alc.window = s.alc.window ∧ (derivePlug s).alc.stage = s.alc.stage
      ∧ (derivePlug s).alc.stageReady = s.alc.stageReady ∧ (derivePlug s).alc.stageFault = s.alc.stageFault
      ∧ (derivePlug s).alc.cause = s.alc.cause ∧ (derivePlug s).alc.mirror54 = s.alc.mirror54
      ∧ (derivePlug s).alc.mirror55 = s.alc.mirror55 ∧ (derivePlug s).ses.debA = s.ses.debA
      ∧ (derivePlug s).ses.debB = s.ses.debB ∧ (derivePlug s).ses.scopedReset = s.ses.scopedReset
      ∧ (derivePlug s).ses.defaultAccount = s.ses.defaultAccount ∧ (derivePlug s).ses.autoOpen = s.ses.autoOpen
      ∧ (derivePlug s).mtr.unassigned = s.mtr.unassigned ∧ (derivePlug s).mtr.clock = s.mtr.clock
      ∧ (derivePlug s).mtr.lockHeld = s.mtr.lockHeld ∧ (derivePlug s).mtr.lockTimer = s.mtr.lockTimer
      ∧ (derivePlug s).rst.waitImage = s.rst.waitImage ∧ (derivePlug s).sup.pilot = s.sup.pilot
      ∧ (derivePlug s).sup.iPil = s.sup.iPil ∧ (derivePlug s).sup.nPh = s.sup.nPh
      ∧ (derivePlug s).sup.uMin = s.sup.uMin ∧ (derivePlug s).sup.supplyPresent = s.sup.supplyPresent := by
  unfold derivePlug; (repeat' split) <;> simp

/-! ## Monitor -/

@[simp] theorem startSettle_within (s : State) :
    (startSettle s).iso.grade = s.iso.grade ∧ (startSettle s).iso.lockout = s.iso.lockout
      ∧ (startSettle s).iso.candidate = s.iso.candidate ∧ (startSettle s).iso.latest = s.iso.latest
      ∧ (startSettle s).iso.localization = s.iso.localization ∧ (startSettle s).iso.age = s.iso.age
      ∧ (startSettle s).iso.overdue = s.iso.overdue ∧ (startSettle s).iso.period = s.iso.period
      ∧ (startSettle s).iso.uBus = s.iso.uBus ∧ (startSettle s).iso.longDead = s.iso.longDead
      ∧ (startSettle s).iso.energizedLast = s.iso.energizedLast ∧ (startSettle s).iso.purpose = s.iso.purpose
      ∧ (startSettle s).iso.restarts = s.iso.restarts ∧ (startSettle s).iso.marked = s.iso.marked := by
  simp [startSettle]

@[simp] theorem grantWindow_within (s : State) :
    (grantWindow s).iso.grade = s.iso.grade ∧ (grantWindow s).iso.lockout = s.iso.lockout
      ∧ (grantWindow s).iso.candidate = s.iso.candidate ∧ (grantWindow s).iso.latest = s.iso.latest
      ∧ (grantWindow s).iso.localization = s.iso.localization ∧ (grantWindow s).iso.age = s.iso.age
      ∧ (grantWindow s).iso.overdue = s.iso.overdue ∧ (grantWindow s).iso.period = s.iso.period
      ∧ (grantWindow s).iso.uBus = s.iso.uBus ∧ (grantWindow s).iso.longDead = s.iso.longDead
      ∧ (grantWindow s).iso.energizedLast = s.iso.energizedLast ∧ (grantWindow s).iso.purpose = s.iso.purpose
      ∧ (grantWindow s).iso.restarts = s.iso.restarts ∧ (grantWindow s).iso.marked = s.iso.marked
      ∧ (grantWindow s).alc.record = s.alc.record ∧ (grantWindow s).alc.hold = s.alc.hold
      ∧ (grantWindow s).alc.holdTimer = s.alc.holdTimer ∧ (grantWindow s).alc.resting = s.alc.resting
      ∧ (grantWindow s).alc.restTimer = s.alc.restTimer ∧ (grantWindow s).alc.stage = s.alc.stage
      ∧ (grantWindow s).alc.stageReady = s.alc.stageReady ∧ (grantWindow s).alc.stageFault = s.alc.stageFault
      ∧ (grantWindow s).alc.cause = s.alc.cause ∧ (grantWindow s).alc.fresh = s.alc.fresh
      ∧ (grantWindow s).alc.freshTimer = s.alc.freshTimer ∧ (grantWindow s).alc.changeover = s.alc.changeover
      ∧ (grantWindow s).alc.link = s.alc.link ∧ (grantWindow s).alc.mirror54 = s.alc.mirror54
      ∧ (grantWindow s).alc.mirror55 = s.alc.mirror55 := by
  simp [grantWindow]

@[simp] theorem requestMeasurement_within (purpose : Purpose) (s : State) :
    (requestMeasurement purpose s).iso.grade = s.iso.grade
      ∧ (requestMeasurement purpose s).iso.lockout = s.iso.lockout
      ∧ (requestMeasurement purpose s).iso.candidate = s.iso.candidate
      ∧ (requestMeasurement purpose s).iso.latest = s.iso.latest
      ∧ (requestMeasurement purpose s).iso.localization = s.iso.localization
      ∧ (requestMeasurement purpose s).iso.age = s.iso.age
      ∧ (requestMeasurement purpose s).iso.overdue = s.iso.overdue
      ∧ (requestMeasurement purpose s).iso.period = s.iso.period
      ∧ (requestMeasurement purpose s).iso.uBus = s.iso.uBus
      ∧ (requestMeasurement purpose s).iso.longDead = s.iso.longDead
      ∧ (requestMeasurement purpose s).iso.energizedLast = s.iso.energizedLast
      ∧ (requestMeasurement purpose s).iso.marked = s.iso.marked
      ∧ (requestMeasurement purpose s).alc.record = s.alc.record
      ∧ (requestMeasurement purpose s).alc.hold = s.alc.hold
      ∧ (requestMeasurement purpose s).alc.holdTimer = s.alc.holdTimer
      ∧ (requestMeasurement purpose s).alc.resting = s.alc.resting
      ∧ (requestMeasurement purpose s).alc.restTimer = s.alc.restTimer
      ∧ (requestMeasurement purpose s).alc.stage = s.alc.stage
      ∧ (requestMeasurement purpose s).alc.stageReady = s.alc.stageReady
      ∧ (requestMeasurement purpose s).alc.stageFault = s.alc.stageFault
      ∧ (requestMeasurement purpose s).alc.cause = s.alc.cause
      ∧ (requestMeasurement purpose s).alc.fresh = s.alc.fresh
      ∧ (requestMeasurement purpose s).alc.freshTimer = s.alc.freshTimer
      ∧ (requestMeasurement purpose s).alc.changeover = s.alc.changeover
      ∧ (requestMeasurement purpose s).alc.link = s.alc.link
      ∧ (requestMeasurement purpose s).alc.mirror54 = s.alc.mirror54
      ∧ (requestMeasurement purpose s).alc.mirror55 = s.alc.mirror55 := by
  unfold requestMeasurement; dsimp only; (repeat' split) <;> simp

@[simp] theorem monitorIdle_within (s : State) :
    (monitorIdle s).iso.grade = s.iso.grade ∧ (monitorIdle s).iso.lockout = s.iso.lockout
      ∧ (monitorIdle s).iso.candidate = s.iso.candidate ∧ (monitorIdle s).iso.latest = s.iso.latest
      ∧ (monitorIdle s).iso.localization = s.iso.localization ∧ (monitorIdle s).iso.age = s.iso.age
      ∧ (monitorIdle s).iso.overdue = s.iso.overdue ∧ (monitorIdle s).iso.period = s.iso.period
      ∧ (monitorIdle s).iso.uBus = s.iso.uBus ∧ (monitorIdle s).iso.longDead = s.iso.longDead
      ∧ (monitorIdle s).iso.energizedLast = s.iso.energizedLast ∧ (monitorIdle s).iso.purpose = s.iso.purpose
      ∧ (monitorIdle s).iso.restarts = s.iso.restarts ∧ (monitorIdle s).iso.marked = s.iso.marked := by
  simp [monitorIdle]

@[simp] theorem releaseWindow_within (s : State) :
    (releaseWindow s).alc.record = s.alc.record ∧ (releaseWindow s).alc.hold = s.alc.hold
      ∧ (releaseWindow s).alc.holdTimer = s.alc.holdTimer ∧ (releaseWindow s).alc.resting = s.alc.resting
      ∧ (releaseWindow s).alc.restTimer = s.alc.restTimer ∧ (releaseWindow s).alc.stage = s.alc.stage
      ∧ (releaseWindow s).alc.stageReady = s.alc.stageReady ∧ (releaseWindow s).alc.stageFault = s.alc.stageFault
      ∧ (releaseWindow s).alc.cause = s.alc.cause ∧ (releaseWindow s).alc.fresh = s.alc.fresh
      ∧ (releaseWindow s).alc.freshTimer = s.alc.freshTimer ∧ (releaseWindow s).alc.changeover = s.alc.changeover
      ∧ (releaseWindow s).alc.link = s.alc.link ∧ (releaseWindow s).alc.mirror54 = s.alc.mirror54
      ∧ (releaseWindow s).alc.mirror55 = s.alc.mirror55 ∧ (releaseWindow s).htr.zones = s.htr.zones
      ∧ (releaseWindow s).htr.mode = s.htr.mode ∧ (releaseWindow s).htr.pendingMode = s.htr.pendingMode
      ∧ (releaseWindow s).htr.p = s.htr.p ∧ (releaseWindow s).htr.s = s.htr.s
      ∧ (releaseWindow s).htr.energized = s.htr.energized ∧ (releaseWindow s).htr.inbox = s.htr.inbox
      ∧ (releaseWindow s).htr.applied = s.htr.applied ∧ (releaseWindow s).htr.converted = s.htr.converted
      ∧ (releaseWindow s).htr.slotTimer = s.htr.slotTimer ∧ (releaseWindow s).htr.boundaryDue = s.htr.boundaryDue := by
  simp [releaseWindow, Htr.startWaitingPulse]

@[simp] theorem discardMeasurement_within (s : State) :
    (discardMeasurement s).iso.grade = s.iso.grade ∧ (discardMeasurement s).iso.lockout = s.iso.lockout
      ∧ (discardMeasurement s).iso.candidate = s.iso.candidate ∧ (discardMeasurement s).iso.latest = s.iso.latest
      ∧ (discardMeasurement s).iso.age = s.iso.age ∧ (discardMeasurement s).iso.overdue = s.iso.overdue
      ∧ (discardMeasurement s).iso.period = s.iso.period ∧ (discardMeasurement s).iso.uBus = s.iso.uBus
      ∧ (discardMeasurement s).iso.longDead = s.iso.longDead
      ∧ (discardMeasurement s).iso.energizedLast = s.iso.energizedLast
      ∧ (discardMeasurement s).iso.purpose = s.iso.purpose ∧ (discardMeasurement s).iso.restarts = s.iso.restarts
      ∧ (discardMeasurement s).iso.marked = s.iso.marked ∧ (discardMeasurement s).alc.record = s.alc.record
      ∧ (discardMeasurement s).alc.hold = s.alc.hold ∧ (discardMeasurement s).alc.holdTimer = s.alc.holdTimer
      ∧ (discardMeasurement s).alc.resting = s.alc.resting ∧ (discardMeasurement s).alc.restTimer = s.alc.restTimer
      ∧ (discardMeasurement s).alc.stage = s.alc.stage ∧ (discardMeasurement s).alc.stageReady = s.alc.stageReady
      ∧ (discardMeasurement s).alc.stageFault = s.alc.stageFault ∧ (discardMeasurement s).alc.cause = s.alc.cause
      ∧ (discardMeasurement s).alc.fresh = s.alc.fresh ∧ (discardMeasurement s).alc.freshTimer = s.alc.freshTimer
      ∧ (discardMeasurement s).alc.changeover = s.alc.changeover ∧ (discardMeasurement s).alc.link = s.alc.link
      ∧ (discardMeasurement s).alc.mirror54 = s.alc.mirror54 ∧ (discardMeasurement s).alc.mirror55 = s.alc.mirror55
      ∧ (discardMeasurement s).htr.zones = s.htr.zones ∧ (discardMeasurement s).htr.mode = s.htr.mode
      ∧ (discardMeasurement s).htr.pendingMode = s.htr.pendingMode ∧ (discardMeasurement s).htr.p = s.htr.p
      ∧ (discardMeasurement s).htr.s = s.htr.s ∧ (discardMeasurement s).htr.energized = s.htr.energized
      ∧ (discardMeasurement s).htr.inbox = s.htr.inbox ∧ (discardMeasurement s).htr.applied = s.htr.applied
      ∧ (discardMeasurement s).htr.converted = s.htr.converted
      ∧ (discardMeasurement s).htr.slotTimer = s.htr.slotTimer
      ∧ (discardMeasurement s).htr.boundaryDue = s.htr.boundaryDue := by
  simp [discardMeasurement]

@[simp] theorem abandonMeasurement_within (s : State) :
    (abandonMeasurement s).iso.grade = s.iso.grade ∧ (abandonMeasurement s).iso.lockout = s.iso.lockout
      ∧ (abandonMeasurement s).iso.candidate = s.iso.candidate ∧ (abandonMeasurement s).iso.latest = s.iso.latest
      ∧ (abandonMeasurement s).iso.age = s.iso.age ∧ (abandonMeasurement s).iso.overdue = s.iso.overdue
      ∧ (abandonMeasurement s).iso.period = s.iso.period ∧ (abandonMeasurement s).iso.uBus = s.iso.uBus
      ∧ (abandonMeasurement s).iso.longDead = s.iso.longDead
      ∧ (abandonMeasurement s).iso.energizedLast = s.iso.energizedLast
      ∧ (abandonMeasurement s).iso.purpose = s.iso.purpose ∧ (abandonMeasurement s).iso.restarts = s.iso.restarts
      ∧ (abandonMeasurement s).iso.marked = s.iso.marked ∧ (abandonMeasurement s).alc.record = s.alc.record
      ∧ (abandonMeasurement s).alc.hold = s.alc.hold ∧ (abandonMeasurement s).alc.holdTimer = s.alc.holdTimer
      ∧ (abandonMeasurement s).alc.resting = s.alc.resting ∧ (abandonMeasurement s).alc.restTimer = s.alc.restTimer
      ∧ (abandonMeasurement s).alc.stage = s.alc.stage ∧ (abandonMeasurement s).alc.stageReady = s.alc.stageReady
      ∧ (abandonMeasurement s).alc.stageFault = s.alc.stageFault ∧ (abandonMeasurement s).alc.cause = s.alc.cause
      ∧ (abandonMeasurement s).alc.fresh = s.alc.fresh ∧ (abandonMeasurement s).alc.freshTimer = s.alc.freshTimer
      ∧ (abandonMeasurement s).alc.changeover = s.alc.changeover ∧ (abandonMeasurement s).alc.link = s.alc.link
      ∧ (abandonMeasurement s).alc.mirror54 = s.alc.mirror54 ∧ (abandonMeasurement s).alc.mirror55 = s.alc.mirror55 := by
  simp [abandonMeasurement]

@[simp] theorem switchChange_within (s : State) :
    (switchChange s).iso.grade = s.iso.grade ∧ (switchChange s).iso.lockout = s.iso.lockout
      ∧ (switchChange s).iso.candidate = s.iso.candidate ∧ (switchChange s).iso.latest = s.iso.latest
      ∧ (switchChange s).iso.age = s.iso.age ∧ (switchChange s).iso.overdue = s.iso.overdue
      ∧ (switchChange s).iso.period = s.iso.period ∧ (switchChange s).iso.uBus = s.iso.uBus
      ∧ (switchChange s).iso.longDead = s.iso.longDead ∧ (switchChange s).iso.energizedLast = s.iso.energizedLast
      ∧ (switchChange s).iso.purpose = s.iso.purpose ∧ (switchChange s).iso.marked = s.iso.marked
      ∧ (switchChange s).alc.record = s.alc.record ∧ (switchChange s).alc.hold = s.alc.hold
      ∧ (switchChange s).alc.holdTimer = s.alc.holdTimer ∧ (switchChange s).alc.resting = s.alc.resting
      ∧ (switchChange s).alc.restTimer = s.alc.restTimer ∧ (switchChange s).alc.stage = s.alc.stage
      ∧ (switchChange s).alc.stageReady = s.alc.stageReady ∧ (switchChange s).alc.stageFault = s.alc.stageFault
      ∧ (switchChange s).alc.cause = s.alc.cause ∧ (switchChange s).alc.fresh = s.alc.fresh
      ∧ (switchChange s).alc.freshTimer = s.alc.freshTimer ∧ (switchChange s).alc.changeover = s.alc.changeover
      ∧ (switchChange s).alc.link = s.alc.link ∧ (switchChange s).alc.mirror54 = s.alc.mirror54
      ∧ (switchChange s).alc.mirror55 = s.alc.mirror55 ∧ (switchChange s).htr.zones = s.htr.zones
      ∧ (switchChange s).htr.mode = s.htr.mode ∧ (switchChange s).htr.pendingMode = s.htr.pendingMode
      ∧ (switchChange s).htr.p = s.htr.p ∧ (switchChange s).htr.s = s.htr.s
      ∧ (switchChange s).htr.energized = s.htr.energized ∧ (switchChange s).htr.inbox = s.htr.inbox
      ∧ (switchChange s).htr.applied = s.htr.applied ∧ (switchChange s).htr.converted = s.htr.converted
      ∧ (switchChange s).htr.slotTimer = s.htr.slotTimer ∧ (switchChange s).htr.boundaryDue = s.htr.boundaryDue := by
  unfold switchChange; (repeat' split) <;> simp

@[simp] theorem testOverdue_within (s : State) :
    (testOverdue s).iso.grade = s.iso.grade ∧ (testOverdue s).iso.lockout = s.iso.lockout
      ∧ (testOverdue s).iso.candidate = s.iso.candidate ∧ (testOverdue s).iso.latest = s.iso.latest
      ∧ (testOverdue s).iso.localization = s.iso.localization ∧ (testOverdue s).iso.age = s.iso.age
      ∧ (testOverdue s).iso.period = s.iso.period ∧ (testOverdue s).iso.uBus = s.iso.uBus
      ∧ (testOverdue s).iso.longDead = s.iso.longDead ∧ (testOverdue s).iso.energizedLast = s.iso.energizedLast
      ∧ (testOverdue s).iso.phase = s.iso.phase ∧ (testOverdue s).iso.purpose = s.iso.purpose
      ∧ (testOverdue s).iso.restarts = s.iso.restarts ∧ (testOverdue s).iso.marked = s.iso.marked
      ∧ (testOverdue s).alc.record = s.alc.record ∧ (testOverdue s).alc.holdTimer = s.alc.holdTimer
      ∧ (testOverdue s).alc.resting = s.alc.resting ∧ (testOverdue s).alc.restTimer = s.alc.restTimer
      ∧ (testOverdue s).alc.window = s.alc.window ∧ (testOverdue s).alc.stage = s.alc.stage
      ∧ (testOverdue s).alc.stageReady = s.alc.stageReady ∧ (testOverdue s).alc.stageFault = s.alc.stageFault
      ∧ (testOverdue s).alc.cause = s.alc.cause ∧ (testOverdue s).alc.fresh = s.alc.fresh
      ∧ (testOverdue s).alc.freshTimer = s.alc.freshTimer ∧ (testOverdue s).alc.changeover = s.alc.changeover
      ∧ (testOverdue s).alc.link = s.alc.link ∧ (testOverdue s).alc.mirror54 = s.alc.mirror54
      ∧ (testOverdue s).alc.mirror55 = s.alc.mirror55 ∧ (testOverdue s).ses.plug = s.ses.plug
      ∧ (testOverdue s).ses.session = s.ses.session ∧ (testOverdue s).ses.tag = s.ses.tag
      ∧ (testOverdue s).ses.number = s.ses.number ∧ (testOverdue s).ses.prices = s.ses.prices
      ∧ (testOverdue s).ses.startTime = s.ses.startTime ∧ (testOverdue s).ses.timeUnknown = s.ses.timeUnknown
      ∧ (testOverdue s).ses.bandHeld = s.ses.bandHeld ∧ (testOverdue s).ses.closeReason = s.ses.closeReason
      ∧ (testOverdue s).ses.endTime = s.ses.endTime ∧ (testOverdue s).ses.debA = s.ses.debA
      ∧ (testOverdue s).ses.debB = s.ses.debB ∧ (testOverdue s).ses.scopedReset = s.ses.scopedReset
      ∧ (testOverdue s).ses.defaultAccount = s.ses.defaultAccount ∧ (testOverdue s).ses.autoOpen = s.ses.autoOpen := by
  unfold testOverdue; dsimp only; (repeat' split) <;> simp

@[simp] theorem raiseAge_within (s : State) :
    (raiseAge s).iso.grade = s.iso.grade ∧ (raiseAge s).iso.lockout = s.iso.lockout
      ∧ (raiseAge s).iso.candidate = s.iso.candidate ∧ (raiseAge s).iso.latest = s.iso.latest
      ∧ (raiseAge s).iso.localization = s.iso.localization ∧ (raiseAge s).iso.period = s.iso.period
      ∧ (raiseAge s).iso.uBus = s.iso.uBus ∧ (raiseAge s).iso.longDead = s.iso.longDead
      ∧ (raiseAge s).iso.energizedLast = s.iso.energizedLast ∧ (raiseAge s).iso.phase = s.iso.phase
      ∧ (raiseAge s).iso.purpose = s.iso.purpose ∧ (raiseAge s).iso.restarts = s.iso.restarts
      ∧ (raiseAge s).iso.marked = s.iso.marked ∧ (raiseAge s).alc.record = s.alc.record
      ∧ (raiseAge s).alc.holdTimer = s.alc.holdTimer ∧ (raiseAge s).alc.resting = s.alc.resting
      ∧ (raiseAge s).alc.restTimer = s.alc.restTimer ∧ (raiseAge s).alc.window = s.alc.window
      ∧ (raiseAge s).alc.stage = s.alc.stage ∧ (raiseAge s).alc.stageReady = s.alc.stageReady
      ∧ (raiseAge s).alc.stageFault = s.alc.stageFault ∧ (raiseAge s).alc.cause = s.alc.cause
      ∧ (raiseAge s).alc.fresh = s.alc.fresh ∧ (raiseAge s).alc.freshTimer = s.alc.freshTimer
      ∧ (raiseAge s).alc.changeover = s.alc.changeover ∧ (raiseAge s).alc.link = s.alc.link
      ∧ (raiseAge s).alc.mirror54 = s.alc.mirror54 ∧ (raiseAge s).alc.mirror55 = s.alc.mirror55
      ∧ (raiseAge s).ses.plug = s.ses.plug ∧ (raiseAge s).ses.session = s.ses.session
      ∧ (raiseAge s).ses.tag = s.ses.tag ∧ (raiseAge s).ses.number = s.ses.number
      ∧ (raiseAge s).ses.prices = s.ses.prices ∧ (raiseAge s).ses.startTime = s.ses.startTime
      ∧ (raiseAge s).ses.timeUnknown = s.ses.timeUnknown ∧ (raiseAge s).ses.bandHeld = s.ses.bandHeld
      ∧ (raiseAge s).ses.closeReason = s.ses.closeReason ∧ (raiseAge s).ses.endTime = s.ses.endTime
      ∧ (raiseAge s).ses.debA = s.ses.debA ∧ (raiseAge s).ses.debB = s.ses.debB
      ∧ (raiseAge s).ses.scopedReset = s.ses.scopedReset ∧ (raiseAge s).ses.defaultAccount = s.ses.defaultAccount
      ∧ (raiseAge s).ses.autoOpen = s.ses.autoOpen := by
  simp [raiseAge]

@[simp] theorem completeMeasurement_within (s : State) :
    (completeMeasurement s).iso.grade = s.iso.grade ∧ (completeMeasurement s).iso.lockout = s.iso.lockout
      ∧ (completeMeasurement s).iso.candidate = s.iso.candidate ∧ (completeMeasurement s).iso.latest = s.iso.latest
      ∧ (completeMeasurement s).iso.localization = s.iso.localization
      ∧ (completeMeasurement s).iso.period = s.iso.period ∧ (completeMeasurement s).iso.uBus = s.iso.uBus
      ∧ (completeMeasurement s).iso.longDead = s.iso.longDead
      ∧ (completeMeasurement s).iso.energizedLast = s.iso.energizedLast
      ∧ (completeMeasurement s).iso.phase = s.iso.phase ∧ (completeMeasurement s).iso.purpose = s.iso.purpose
      ∧ (completeMeasurement s).iso.restarts = s.iso.restarts ∧ (completeMeasurement s).iso.marked = s.iso.marked
      ∧ (completeMeasurement s).alc.record = s.alc.record ∧ (completeMeasurement s).alc.holdTimer = s.alc.holdTimer
      ∧ (completeMeasurement s).alc.resting = s.alc.resting ∧ (completeMeasurement s).alc.restTimer = s.alc.restTimer
      ∧ (completeMeasurement s).alc.window = s.alc.window ∧ (completeMeasurement s).alc.stage = s.alc.stage
      ∧ (completeMeasurement s).alc.stageReady = s.alc.stageReady
      ∧ (completeMeasurement s).alc.stageFault = s.alc.stageFault ∧ (completeMeasurement s).alc.cause = s.alc.cause
      ∧ (completeMeasurement s).alc.fresh = s.alc.fresh ∧ (completeMeasurement s).alc.freshTimer = s.alc.freshTimer
      ∧ (completeMeasurement s).alc.changeover = s.alc.changeover ∧ (completeMeasurement s).alc.link = s.alc.link
      ∧ (completeMeasurement s).alc.mirror54 = s.alc.mirror54 ∧ (completeMeasurement s).alc.mirror55 = s.alc.mirror55
      ∧ (completeMeasurement s).ses.plug = s.ses.plug ∧ (completeMeasurement s).ses.session = s.ses.session
      ∧ (completeMeasurement s).ses.tag = s.ses.tag ∧ (completeMeasurement s).ses.number = s.ses.number
      ∧ (completeMeasurement s).ses.prices = s.ses.prices ∧ (completeMeasurement s).ses.startTime = s.ses.startTime
      ∧ (completeMeasurement s).ses.timeUnknown = s.ses.timeUnknown
      ∧ (completeMeasurement s).ses.bandHeld = s.ses.bandHeld
      ∧ (completeMeasurement s).ses.closeReason = s.ses.closeReason
      ∧ (completeMeasurement s).ses.endTime = s.ses.endTime ∧ (completeMeasurement s).ses.debA = s.ses.debA
      ∧ (completeMeasurement s).ses.debB = s.ses.debB ∧ (completeMeasurement s).ses.scopedReset = s.ses.scopedReset
      ∧ (completeMeasurement s).ses.defaultAccount = s.ses.defaultAccount
      ∧ (completeMeasurement s).ses.autoOpen = s.ses.autoOpen := by
  simp [completeMeasurement]

/-! ## Heater -/

@[simp] theorem reportSwitches_within (before : Htr) (s : State) :
    (reportSwitches before s).iso.grade = s.iso.grade ∧ (reportSwitches before s).iso.lockout = s.iso.lockout
      ∧ (reportSwitches before s).iso.candidate = s.iso.candidate
      ∧ (reportSwitches before s).iso.latest = s.iso.latest ∧ (reportSwitches before s).iso.age = s.iso.age
      ∧ (reportSwitches before s).iso.overdue = s.iso.overdue ∧ (reportSwitches before s).iso.period = s.iso.period
      ∧ (reportSwitches before s).iso.uBus = s.iso.uBus ∧ (reportSwitches before s).iso.longDead = s.iso.longDead
      ∧ (reportSwitches before s).iso.energizedLast = s.iso.energizedLast
      ∧ (reportSwitches before s).iso.purpose = s.iso.purpose ∧ (reportSwitches before s).iso.marked = s.iso.marked
      ∧ (reportSwitches before s).alc.record = s.alc.record ∧ (reportSwitches before s).alc.hold = s.alc.hold
      ∧ (reportSwitches before s).alc.holdTimer = s.alc.holdTimer
      ∧ (reportSwitches before s).alc.resting = s.alc.resting
      ∧ (reportSwitches before s).alc.restTimer = s.alc.restTimer ∧ (reportSwitches before s).alc.stage = s.alc.stage
      ∧ (reportSwitches before s).alc.stageReady = s.alc.stageReady
      ∧ (reportSwitches before s).alc.stageFault = s.alc.stageFault
      ∧ (reportSwitches before s).alc.cause = s.alc.cause ∧ (reportSwitches before s).alc.fresh = s.alc.fresh
      ∧ (reportSwitches before s).alc.freshTimer = s.alc.freshTimer
      ∧ (reportSwitches before s).alc.changeover = s.alc.changeover ∧ (reportSwitches before s).alc.link = s.alc.link
      ∧ (reportSwitches before s).alc.mirror54 = s.alc.mirror54
      ∧ (reportSwitches before s).alc.mirror55 = s.alc.mirror55 ∧ (reportSwitches before s).htr.zones = s.htr.zones
      ∧ (reportSwitches before s).htr.mode = s.htr.mode
      ∧ (reportSwitches before s).htr.pendingMode = s.htr.pendingMode ∧ (reportSwitches before s).htr.p = s.htr.p
      ∧ (reportSwitches before s).htr.s = s.htr.s ∧ (reportSwitches before s).htr.energized = s.htr.energized
      ∧ (reportSwitches before s).htr.inbox = s.htr.inbox ∧ (reportSwitches before s).htr.applied = s.htr.applied
      ∧ (reportSwitches before s).htr.converted = s.htr.converted
      ∧ (reportSwitches before s).htr.slotTimer = s.htr.slotTimer
      ∧ (reportSwitches before s).htr.boundaryDue = s.htr.boundaryDue := by
  unfold reportSwitches; split <;> simp

@[simp] theorem applyPending_within (s : State) :
    (applyPending s).htr.zones = s.htr.zones ∧ (applyPending s).htr.energized = s.htr.energized
      ∧ (applyPending s).htr.check = s.htr.check ∧ (applyPending s).htr.inbox = s.htr.inbox
      ∧ (applyPending s).htr.applied = s.htr.applied ∧ (applyPending s).htr.converted = s.htr.converted
      ∧ (applyPending s).htr.slotTimer = s.htr.slotTimer ∧ (applyPending s).htr.boundaryDue = s.htr.boundaryDue := by
  unfold applyPending; (repeat' split) <;> simp

@[simp] theorem heaterChanged_within (before : Htr) (s : State) :
    (heaterChanged before s).iso.grade = s.iso.grade ∧ (heaterChanged before s).iso.lockout = s.iso.lockout
      ∧ (heaterChanged before s).iso.candidate = s.iso.candidate ∧ (heaterChanged before s).iso.latest = s.iso.latest
      ∧ (heaterChanged before s).iso.age = s.iso.age ∧ (heaterChanged before s).iso.overdue = s.iso.overdue
      ∧ (heaterChanged before s).iso.period = s.iso.period ∧ (heaterChanged before s).iso.uBus = s.iso.uBus
      ∧ (heaterChanged before s).iso.longDead = s.iso.longDead
      ∧ (heaterChanged before s).iso.energizedLast = s.iso.energizedLast
      ∧ (heaterChanged before s).iso.purpose = s.iso.purpose ∧ (heaterChanged before s).iso.marked = s.iso.marked
      ∧ (heaterChanged before s).alc.record = s.alc.record ∧ (heaterChanged before s).alc.hold = s.alc.hold
      ∧ (heaterChanged before s).alc.holdTimer = s.alc.holdTimer
      ∧ (heaterChanged before s).alc.resting = s.alc.resting
      ∧ (heaterChanged before s).alc.restTimer = s.alc.restTimer ∧ (heaterChanged before s).alc.stage = s.alc.stage
      ∧ (heaterChanged before s).alc.stageReady = s.alc.stageReady
      ∧ (heaterChanged before s).alc.stageFault = s.alc.stageFault ∧ (heaterChanged before s).alc.cause = s.alc.cause
      ∧ (heaterChanged before s).alc.fresh = s.alc.fresh ∧ (heaterChanged before s).alc.freshTimer = s.alc.freshTimer
      ∧ (heaterChanged before s).alc.changeover = s.alc.changeover ∧ (heaterChanged before s).alc.link = s.alc.link
      ∧ (heaterChanged before s).alc.mirror54 = s.alc.mirror54
      ∧ (heaterChanged before s).alc.mirror55 = s.alc.mirror55 ∧ (heaterChanged before s).htr.zones = s.htr.zones
      ∧ (heaterChanged before s).htr.energized = s.htr.energized ∧ (heaterChanged before s).htr.inbox = s.htr.inbox
      ∧ (heaterChanged before s).htr.applied = s.htr.applied
      ∧ (heaterChanged before s).htr.converted = s.htr.converted
      ∧ (heaterChanged before s).htr.slotTimer = s.htr.slotTimer
      ∧ (heaterChanged before s).htr.boundaryDue = s.htr.boundaryDue
      ∧ (heaterChanged before s).sup.pilot = s.sup.pilot ∧ (heaterChanged before s).sup.iPil = s.sup.iPil
      ∧ (heaterChanged before s).sup.nPh = s.sup.nPh ∧ (heaterChanged before s).sup.uMin = s.sup.uMin
      ∧ (heaterChanged before s).sup.supplyPresent = s.sup.supplyPresent := by
  simp [heaterChanged]

@[simp] theorem forcedDeenergize_within (s : State) :
    (forcedDeenergize s).iso.grade = s.iso.grade ∧ (forcedDeenergize s).iso.lockout = s.iso.lockout
      ∧ (forcedDeenergize s).iso.candidate = s.iso.candidate ∧ (forcedDeenergize s).iso.latest = s.iso.latest
      ∧ (forcedDeenergize s).iso.age = s.iso.age ∧ (forcedDeenergize s).iso.overdue = s.iso.overdue
      ∧ (forcedDeenergize s).iso.period = s.iso.period ∧ (forcedDeenergize s).iso.uBus = s.iso.uBus
      ∧ (forcedDeenergize s).iso.longDead = s.iso.longDead
      ∧ (forcedDeenergize s).iso.energizedLast = s.iso.energizedLast
      ∧ (forcedDeenergize s).iso.purpose = s.iso.purpose ∧ (forcedDeenergize s).iso.marked = s.iso.marked
      ∧ (forcedDeenergize s).alc.record = s.alc.record ∧ (forcedDeenergize s).alc.hold = s.alc.hold
      ∧ (forcedDeenergize s).alc.holdTimer = s.alc.holdTimer ∧ (forcedDeenergize s).alc.resting = s.alc.resting
      ∧ (forcedDeenergize s).alc.restTimer = s.alc.restTimer ∧ (forcedDeenergize s).alc.stage = s.alc.stage
      ∧ (forcedDeenergize s).alc.stageReady = s.alc.stageReady
      ∧ (forcedDeenergize s).alc.stageFault = s.alc.stageFault ∧ (forcedDeenergize s).alc.cause = s.alc.cause
      ∧ (forcedDeenergize s).alc.fresh = s.alc.fresh ∧ (forcedDeenergize s).alc.freshTimer = s.alc.freshTimer
      ∧ (forcedDeenergize s).alc.changeover = s.alc.changeover ∧ (forcedDeenergize s).alc.link = s.alc.link
      ∧ (forcedDeenergize s).alc.mirror54 = s.alc.mirror54 ∧ (forcedDeenergize s).alc.mirror55 = s.alc.mirror55
      ∧ (forcedDeenergize s).sup.pilot = s.sup.pilot ∧ (forcedDeenergize s).sup.iPil = s.sup.iPil
      ∧ (forcedDeenergize s).sup.nPh = s.sup.nPh ∧ (forcedDeenergize s).sup.uMin = s.sup.uMin
      ∧ (forcedDeenergize s).sup.supplyPresent = s.sup.supplyPresent ∧ (forcedDeenergize s).htr.inbox = s.htr.inbox
      ∧ (forcedDeenergize s).htr.applied = s.htr.applied ∧ (forcedDeenergize s).htr.converted = s.htr.converted := by
  simp [forcedDeenergize]

@[simp] theorem endProbe_within (z : Fin 8) (leak : Bool) (s : State) :
    (endProbe z leak s).iso.grade = s.iso.grade ∧ (endProbe z leak s).iso.lockout = s.iso.lockout
      ∧ (endProbe z leak s).iso.candidate = s.iso.candidate ∧ (endProbe z leak s).iso.latest = s.iso.latest
      ∧ (endProbe z leak s).iso.age = s.iso.age ∧ (endProbe z leak s).iso.overdue = s.iso.overdue
      ∧ (endProbe z leak s).iso.period = s.iso.period ∧ (endProbe z leak s).iso.uBus = s.iso.uBus
      ∧ (endProbe z leak s).iso.longDead = s.iso.longDead
      ∧ (endProbe z leak s).iso.energizedLast = s.iso.energizedLast ∧ (endProbe z leak s).iso.purpose = s.iso.purpose
      ∧ (endProbe z leak s).iso.marked = s.iso.marked ∧ (endProbe z leak s).alc.record = s.alc.record
      ∧ (endProbe z leak s).alc.hold = s.alc.hold ∧ (endProbe z leak s).alc.holdTimer = s.alc.holdTimer
      ∧ (endProbe z leak s).alc.resting = s.alc.resting ∧ (endProbe z leak s).alc.restTimer = s.alc.restTimer
      ∧ (endProbe z leak s).alc.stage = s.alc.stage ∧ (endProbe z leak s).alc.stageReady = s.alc.stageReady
      ∧ (endProbe z leak s).alc.stageFault = s.alc.stageFault ∧ (endProbe z leak s).alc.cause = s.alc.cause
      ∧ (endProbe z leak s).alc.fresh = s.alc.fresh ∧ (endProbe z leak s).alc.freshTimer = s.alc.freshTimer
      ∧ (endProbe z leak s).alc.changeover = s.alc.changeover ∧ (endProbe z leak s).alc.link = s.alc.link
      ∧ (endProbe z leak s).alc.mirror54 = s.alc.mirror54 ∧ (endProbe z leak s).alc.mirror55 = s.alc.mirror55
      ∧ (endProbe z leak s).sup.pilot = s.sup.pilot ∧ (endProbe z leak s).sup.iPil = s.sup.iPil
      ∧ (endProbe z leak s).sup.nPh = s.sup.nPh ∧ (endProbe z leak s).sup.uMin = s.sup.uMin
      ∧ (endProbe z leak s).sup.supplyPresent = s.sup.supplyPresent
      ∧ (endProbe z leak s).htr.energized = s.htr.energized ∧ (endProbe z leak s).htr.inbox = s.htr.inbox
      ∧ (endProbe z leak s).htr.applied = s.htr.applied ∧ (endProbe z leak s).htr.converted = s.htr.converted
      ∧ (endProbe z leak s).htr.slotTimer = s.htr.slotTimer ∧ (endProbe z leak s).htr.boundaryDue = s.htr.boundaryDue := by
  simp [endProbe]

@[simp] theorem heaterConvert_within (z : Fin 8) (r : Thermistor) (s : State) :
    (heaterConvert z r s).htr.mode = s.htr.mode ∧ (heaterConvert z r s).htr.pendingMode = s.htr.pendingMode
      ∧ (heaterConvert z r s).htr.p = s.htr.p ∧ (heaterConvert z r s).htr.s = s.htr.s
      ∧ (heaterConvert z r s).htr.inbox = s.htr.inbox ∧ (heaterConvert z r s).htr.applied = s.htr.applied
      ∧ (heaterConvert z r s).htr.converted = s.htr.converted := by
  simp [heaterConvert]

@[simp] theorem applyRecord_within (r : GrantRecord) (s : State) :
    (applyRecord r s).iso.grade = s.iso.grade ∧ (applyRecord r s).iso.lockout = s.iso.lockout
      ∧ (applyRecord r s).iso.candidate = s.iso.candidate ∧ (applyRecord r s).iso.latest = s.iso.latest
      ∧ (applyRecord r s).iso.age = s.iso.age ∧ (applyRecord r s).iso.overdue = s.iso.overdue
      ∧ (applyRecord r s).iso.period = s.iso.period ∧ (applyRecord r s).iso.uBus = s.iso.uBus
      ∧ (applyRecord r s).iso.longDead = s.iso.longDead ∧ (applyRecord r s).iso.energizedLast = s.iso.energizedLast
      ∧ (applyRecord r s).iso.purpose = s.iso.purpose ∧ (applyRecord r s).iso.marked = s.iso.marked
      ∧ (applyRecord r s).alc.record = s.alc.record ∧ (applyRecord r s).alc.hold = s.alc.hold
      ∧ (applyRecord r s).alc.holdTimer = s.alc.holdTimer ∧ (applyRecord r s).alc.resting = s.alc.resting
      ∧ (applyRecord r s).alc.restTimer = s.alc.restTimer ∧ (applyRecord r s).alc.stage = s.alc.stage
      ∧ (applyRecord r s).alc.stageReady = s.alc.stageReady ∧ (applyRecord r s).alc.stageFault = s.alc.stageFault
      ∧ (applyRecord r s).alc.cause = s.alc.cause ∧ (applyRecord r s).alc.fresh = s.alc.fresh
      ∧ (applyRecord r s).alc.freshTimer = s.alc.freshTimer ∧ (applyRecord r s).alc.changeover = s.alc.changeover
      ∧ (applyRecord r s).alc.link = s.alc.link ∧ (applyRecord r s).alc.mirror54 = s.alc.mirror54
      ∧ (applyRecord r s).alc.mirror55 = s.alc.mirror55 ∧ (applyRecord r s).sup.pilot = s.sup.pilot
      ∧ (applyRecord r s).sup.iPil = s.sup.iPil ∧ (applyRecord r s).sup.nPh = s.sup.nPh
      ∧ (applyRecord r s).sup.uMin = s.sup.uMin ∧ (applyRecord r s).sup.supplyPresent = s.sup.supplyPresent := by
  simp [applyRecord]

/-! ## Grade -/

@[simp] theorem setLockout_within (s : State) :
    (setLockout s).iso.grade = s.iso.grade ∧ (setLockout s).iso.candidate = s.iso.candidate
      ∧ (setLockout s).iso.latest = s.iso.latest ∧ (setLockout s).iso.age = s.iso.age
      ∧ (setLockout s).iso.overdue = s.iso.overdue ∧ (setLockout s).iso.period = s.iso.period
      ∧ (setLockout s).iso.uBus = s.iso.uBus ∧ (setLockout s).iso.longDead = s.iso.longDead
      ∧ (setLockout s).iso.energizedLast = s.iso.energizedLast ∧ (setLockout s).iso.phase = s.iso.phase
      ∧ (setLockout s).iso.purpose = s.iso.purpose ∧ (setLockout s).iso.restarts = s.iso.restarts := by
  unfold setLockout; (repeat' split) <;> simp [beginRun]

@[simp] theorem gradeLost_within (old new : Grade) (s : State) :
    (gradeLost old new s).iso.grade = s.iso.grade ∧ (gradeLost old new s).iso.candidate = s.iso.candidate
      ∧ (gradeLost old new s).iso.latest = s.iso.latest ∧ (gradeLost old new s).iso.age = s.iso.age
      ∧ (gradeLost old new s).iso.overdue = s.iso.overdue ∧ (gradeLost old new s).iso.period = s.iso.period
      ∧ (gradeLost old new s).iso.uBus = s.iso.uBus ∧ (gradeLost old new s).iso.longDead = s.iso.longDead
      ∧ (gradeLost old new s).iso.energizedLast = s.iso.energizedLast
      ∧ (gradeLost old new s).iso.purpose = s.iso.purpose ∧ (gradeLost old new s).alc.record = s.alc.record
      ∧ (gradeLost old new s).alc.resting = s.alc.resting ∧ (gradeLost old new s).alc.restTimer = s.alc.restTimer
      ∧ (gradeLost old new s).alc.stage = s.alc.stage ∧ (gradeLost old new s).alc.stageReady = s.alc.stageReady
      ∧ (gradeLost old new s).alc.stageFault = s.alc.stageFault ∧ (gradeLost old new s).alc.cause = s.alc.cause
      ∧ (gradeLost old new s).alc.fresh = s.alc.fresh ∧ (gradeLost old new s).alc.freshTimer = s.alc.freshTimer
      ∧ (gradeLost old new s).alc.changeover = s.alc.changeover ∧ (gradeLost old new s).alc.link = s.alc.link
      ∧ (gradeLost old new s).alc.mirror54 = s.alc.mirror54 ∧ (gradeLost old new s).alc.mirror55 = s.alc.mirror55
      ∧ (gradeLost old new s).sup.pilot = s.sup.pilot ∧ (gradeLost old new s).sup.iPil = s.sup.iPil
      ∧ (gradeLost old new s).sup.nPh = s.sup.nPh ∧ (gradeLost old new s).sup.uMin = s.sup.uMin
      ∧ (gradeLost old new s).sup.supplyPresent = s.sup.supplyPresent ∧ (gradeLost old new s).ses.plug = s.ses.plug
      ∧ (gradeLost old new s).ses.tag = s.ses.tag ∧ (gradeLost old new s).ses.number = s.ses.number
      ∧ (gradeLost old new s).ses.prices = s.ses.prices ∧ (gradeLost old new s).ses.startTime = s.ses.startTime
      ∧ (gradeLost old new s).ses.bandHeld = s.ses.bandHeld ∧ (gradeLost old new s).ses.debA = s.ses.debA
      ∧ (gradeLost old new s).ses.debB = s.ses.debB ∧ (gradeLost old new s).ses.scopedReset = s.ses.scopedReset
      ∧ (gradeLost old new s).ses.defaultAccount = s.ses.defaultAccount
      ∧ (gradeLost old new s).ses.autoOpen = s.ses.autoOpen ∧ (gradeLost old new s).mtr.chg = s.mtr.chg
      ∧ (gradeLost old new s).mtr.heat = s.mtr.heat ∧ (gradeLost old new s).mtr.aux = s.mtr.aux
      ∧ (gradeLost old new s).mtr.standby = s.mtr.standby ∧ (gradeLost old new s).mtr.lines = s.mtr.lines
      ∧ (gradeLost old new s).mtr.minPerVolt = s.mtr.minPerVolt ∧ (gradeLost old new s).mtr.worst = s.mtr.worst
      ∧ (gradeLost old new s).mtr.unassigned = s.mtr.unassigned ∧ (gradeLost old new s).mtr.clock = s.mtr.clock
      ∧ (gradeLost old new s).mtr.band = s.mtr.band ∧ (gradeLost old new s).mtr.lockHeld = s.mtr.lockHeld
      ∧ (gradeLost old new s).mtr.lockTimer = s.mtr.lockTimer ∧ (gradeLost old new s).rst.waitImage = s.rst.waitImage
      ∧ (gradeLost old new s).htr.inbox = s.htr.inbox ∧ (gradeLost old new s).htr.applied = s.htr.applied
      ∧ (gradeLost old new s).htr.converted = s.htr.converted := by
  unfold gradeLost; (repeat' split) <;> simp

@[simp] theorem changeGrade_within (new : Grade) (s : State) :
    (changeGrade new s).iso.latest = s.iso.latest ∧ (changeGrade new s).iso.age = s.iso.age
      ∧ (changeGrade new s).iso.overdue = s.iso.overdue ∧ (changeGrade new s).iso.period = s.iso.period
      ∧ (changeGrade new s).iso.uBus = s.iso.uBus ∧ (changeGrade new s).iso.longDead = s.iso.longDead
      ∧ (changeGrade new s).iso.energizedLast = s.iso.energizedLast ∧ (changeGrade new s).iso.purpose = s.iso.purpose
      ∧ (changeGrade new s).alc.record = s.alc.record ∧ (changeGrade new s).alc.resting = s.alc.resting
      ∧ (changeGrade new s).alc.restTimer = s.alc.restTimer ∧ (changeGrade new s).alc.stage = s.alc.stage
      ∧ (changeGrade new s).alc.stageReady = s.alc.stageReady ∧ (changeGrade new s).alc.stageFault = s.alc.stageFault
      ∧ (changeGrade new s).alc.cause = s.alc.cause ∧ (changeGrade new s).alc.fresh = s.alc.fresh
      ∧ (changeGrade new s).alc.freshTimer = s.alc.freshTimer ∧ (changeGrade new s).alc.changeover = s.alc.changeover
      ∧ (changeGrade new s).alc.link = s.alc.link ∧ (changeGrade new s).alc.mirror54 = s.alc.mirror54
      ∧ (changeGrade new s).alc.mirror55 = s.alc.mirror55 ∧ (changeGrade new s).sup.pilot = s.sup.pilot
      ∧ (changeGrade new s).sup.iPil = s.sup.iPil ∧ (changeGrade new s).sup.nPh = s.sup.nPh
      ∧ (changeGrade new s).sup.uMin = s.sup.uMin ∧ (changeGrade new s).sup.supplyPresent = s.sup.supplyPresent
      ∧ (changeGrade new s).ses.plug = s.ses.plug ∧ (changeGrade new s).ses.tag = s.ses.tag
      ∧ (changeGrade new s).ses.number = s.ses.number ∧ (changeGrade new s).ses.prices = s.ses.prices
      ∧ (changeGrade new s).ses.startTime = s.ses.startTime ∧ (changeGrade new s).ses.bandHeld = s.ses.bandHeld
      ∧ (changeGrade new s).ses.debA = s.ses.debA ∧ (changeGrade new s).ses.debB = s.ses.debB
      ∧ (changeGrade new s).ses.scopedReset = s.ses.scopedReset
      ∧ (changeGrade new s).ses.defaultAccount = s.ses.defaultAccount
      ∧ (changeGrade new s).ses.autoOpen = s.ses.autoOpen ∧ (changeGrade new s).mtr.chg = s.mtr.chg
      ∧ (changeGrade new s).mtr.heat = s.mtr.heat ∧ (changeGrade new s).mtr.aux = s.mtr.aux
      ∧ (changeGrade new s).mtr.standby = s.mtr.standby ∧ (changeGrade new s).mtr.lines = s.mtr.lines
      ∧ (changeGrade new s).mtr.minPerVolt = s.mtr.minPerVolt ∧ (changeGrade new s).mtr.worst = s.mtr.worst
      ∧ (changeGrade new s).mtr.unassigned = s.mtr.unassigned ∧ (changeGrade new s).mtr.clock = s.mtr.clock
      ∧ (changeGrade new s).mtr.band = s.mtr.band ∧ (changeGrade new s).mtr.lockHeld = s.mtr.lockHeld
      ∧ (changeGrade new s).mtr.lockTimer = s.mtr.lockTimer ∧ (changeGrade new s).rst.waitImage = s.rst.waitImage
      ∧ (changeGrade new s).htr.inbox = s.htr.inbox ∧ (changeGrade new s).htr.applied = s.htr.applied
      ∧ (changeGrade new s).htr.converted = s.htr.converted := by
  unfold changeGrade; (repeat' split) <;> simp

@[simp] theorem decideGrade_within (r : ResultClass) (s : State) :
    (decideGrade r s).iso.latest = s.iso.latest ∧ (decideGrade r s).iso.age = s.iso.age
      ∧ (decideGrade r s).iso.overdue = s.iso.overdue ∧ (decideGrade r s).iso.period = s.iso.period
      ∧ (decideGrade r s).iso.uBus = s.iso.uBus ∧ (decideGrade r s).iso.longDead = s.iso.longDead
      ∧ (decideGrade r s).iso.energizedLast = s.iso.energizedLast ∧ (decideGrade r s).iso.purpose = s.iso.purpose
      ∧ (decideGrade r s).alc.record = s.alc.record ∧ (decideGrade r s).alc.resting = s.alc.resting
      ∧ (decideGrade r s).alc.restTimer = s.alc.restTimer ∧ (decideGrade r s).alc.stage = s.alc.stage
      ∧ (decideGrade r s).alc.stageReady = s.alc.stageReady ∧ (decideGrade r s).alc.stageFault = s.alc.stageFault
      ∧ (decideGrade r s).alc.cause = s.alc.cause ∧ (decideGrade r s).alc.fresh = s.alc.fresh
      ∧ (decideGrade r s).alc.freshTimer = s.alc.freshTimer ∧ (decideGrade r s).alc.changeover = s.alc.changeover
      ∧ (decideGrade r s).alc.link = s.alc.link ∧ (decideGrade r s).alc.mirror54 = s.alc.mirror54
      ∧ (decideGrade r s).alc.mirror55 = s.alc.mirror55 ∧ (decideGrade r s).sup.pilot = s.sup.pilot
      ∧ (decideGrade r s).sup.iPil = s.sup.iPil ∧ (decideGrade r s).sup.nPh = s.sup.nPh
      ∧ (decideGrade r s).sup.uMin = s.sup.uMin ∧ (decideGrade r s).sup.supplyPresent = s.sup.supplyPresent
      ∧ (decideGrade r s).ses.plug = s.ses.plug ∧ (decideGrade r s).ses.tag = s.ses.tag
      ∧ (decideGrade r s).ses.number = s.ses.number ∧ (decideGrade r s).ses.prices = s.ses.prices
      ∧ (decideGrade r s).ses.startTime = s.ses.startTime ∧ (decideGrade r s).ses.bandHeld = s.ses.bandHeld
      ∧ (decideGrade r s).ses.debA = s.ses.debA ∧ (decideGrade r s).ses.debB = s.ses.debB
      ∧ (decideGrade r s).ses.scopedReset = s.ses.scopedReset
      ∧ (decideGrade r s).ses.defaultAccount = s.ses.defaultAccount ∧ (decideGrade r s).ses.autoOpen = s.ses.autoOpen
      ∧ (decideGrade r s).mtr.chg = s.mtr.chg ∧ (decideGrade r s).mtr.heat = s.mtr.heat
      ∧ (decideGrade r s).mtr.aux = s.mtr.aux ∧ (decideGrade r s).mtr.standby = s.mtr.standby
      ∧ (decideGrade r s).mtr.lines = s.mtr.lines ∧ (decideGrade r s).mtr.minPerVolt = s.mtr.minPerVolt
      ∧ (decideGrade r s).mtr.worst = s.mtr.worst ∧ (decideGrade r s).mtr.unassigned = s.mtr.unassigned
      ∧ (decideGrade r s).mtr.clock = s.mtr.clock ∧ (decideGrade r s).mtr.band = s.mtr.band
      ∧ (decideGrade r s).mtr.lockHeld = s.mtr.lockHeld ∧ (decideGrade r s).mtr.lockTimer = s.mtr.lockTimer
      ∧ (decideGrade r s).rst.waitImage = s.rst.waitImage ∧ (decideGrade r s).htr.inbox = s.htr.inbox
      ∧ (decideGrade r s).htr.applied = s.htr.applied ∧ (decideGrade r s).htr.converted = s.htr.converted := by
  unfold decideGrade; (repeat' split) <;> simp

@[simp] theorem takeBaseline_within (c : ResultClass) (s : State) :
    (takeBaseline c s).iso.grade = s.iso.grade ∧ (takeBaseline c s).iso.lockout = s.iso.lockout
      ∧ (takeBaseline c s).iso.candidate = s.iso.candidate ∧ (takeBaseline c s).iso.latest = s.iso.latest
      ∧ (takeBaseline c s).iso.age = s.iso.age ∧ (takeBaseline c s).iso.overdue = s.iso.overdue
      ∧ (takeBaseline c s).iso.period = s.iso.period ∧ (takeBaseline c s).iso.uBus = s.iso.uBus
      ∧ (takeBaseline c s).iso.longDead = s.iso.longDead ∧ (takeBaseline c s).iso.energizedLast = s.iso.energizedLast
      ∧ (takeBaseline c s).iso.phase = s.iso.phase ∧ (takeBaseline c s).iso.purpose = s.iso.purpose
      ∧ (takeBaseline c s).iso.restarts = s.iso.restarts ∧ (takeBaseline c s).iso.marked = s.iso.marked := by
  simp [takeBaseline]

@[simp] theorem takeProbe_within (z : Fin 8) (c : ResultClass) (s : State) :
    (takeProbe z c s).iso.grade = s.iso.grade ∧ (takeProbe z c s).iso.lockout = s.iso.lockout
      ∧ (takeProbe z c s).iso.candidate = s.iso.candidate ∧ (takeProbe z c s).iso.latest = s.iso.latest
      ∧ (takeProbe z c s).iso.age = s.iso.age ∧ (takeProbe z c s).iso.overdue = s.iso.overdue
      ∧ (takeProbe z c s).iso.period = s.iso.period ∧ (takeProbe z c s).iso.uBus = s.iso.uBus
      ∧ (takeProbe z c s).iso.longDead = s.iso.longDead ∧ (takeProbe z c s).iso.energizedLast = s.iso.energizedLast
      ∧ (takeProbe z c s).iso.phase = s.iso.phase ∧ (takeProbe z c s).iso.purpose = s.iso.purpose
      ∧ (takeProbe z c s).iso.restarts = s.iso.restarts := by
  simp [takeProbe]

@[simp] theorem startProbe_within (z : Fin 8) (b : BeforeProbe) (s : State) :
    (startProbe z b s).iso.grade = s.iso.grade ∧ (startProbe z b s).iso.lockout = s.iso.lockout
      ∧ (startProbe z b s).iso.candidate = s.iso.candidate ∧ (startProbe z b s).iso.latest = s.iso.latest
      ∧ (startProbe z b s).iso.age = s.iso.age ∧ (startProbe z b s).iso.overdue = s.iso.overdue
      ∧ (startProbe z b s).iso.period = s.iso.period ∧ (startProbe z b s).iso.uBus = s.iso.uBus
      ∧ (startProbe z b s).iso.longDead = s.iso.longDead ∧ (startProbe z b s).iso.energizedLast = s.iso.energizedLast
      ∧ (startProbe z b s).iso.marked = s.iso.marked ∧ (startProbe z b s).alc.record = s.alc.record
      ∧ (startProbe z b s).alc.hold = s.alc.hold ∧ (startProbe z b s).alc.holdTimer = s.alc.holdTimer
      ∧ (startProbe z b s).alc.resting = s.alc.resting ∧ (startProbe z b s).alc.restTimer = s.alc.restTimer
      ∧ (startProbe z b s).alc.stage = s.alc.stage ∧ (startProbe z b s).alc.stageReady = s.alc.stageReady
      ∧ (startProbe z b s).alc.stageFault = s.alc.stageFault ∧ (startProbe z b s).alc.cause = s.alc.cause
      ∧ (startProbe z b s).alc.fresh = s.alc.fresh ∧ (startProbe z b s).alc.freshTimer = s.alc.freshTimer
      ∧ (startProbe z b s).alc.changeover = s.alc.changeover ∧ (startProbe z b s).alc.link = s.alc.link
      ∧ (startProbe z b s).alc.mirror54 = s.alc.mirror54 ∧ (startProbe z b s).alc.mirror55 = s.alc.mirror55
      ∧ (startProbe z b s).sup.pilot = s.sup.pilot ∧ (startProbe z b s).sup.iPil = s.sup.iPil
      ∧ (startProbe z b s).sup.nPh = s.sup.nPh ∧ (startProbe z b s).sup.uMin = s.sup.uMin
      ∧ (startProbe z b s).sup.supplyPresent = s.sup.supplyPresent
      ∧ (startProbe z b s).htr.energized = s.htr.energized ∧ (startProbe z b s).htr.inbox = s.htr.inbox
      ∧ (startProbe z b s).htr.applied = s.htr.applied ∧ (startProbe z b s).htr.converted = s.htr.converted
      ∧ (startProbe z b s).htr.slotTimer = s.htr.slotTimer ∧ (startProbe z b s).htr.boundaryDue = s.htr.boundaryDue := by
  simp [startProbe]

@[simp] theorem clearTheLockout_within (s : State) :
    (clearTheLockout s).iso.grade = s.iso.grade ∧ (clearTheLockout s).iso.candidate = s.iso.candidate
      ∧ (clearTheLockout s).iso.latest = s.iso.latest ∧ (clearTheLockout s).iso.localization = s.iso.localization
      ∧ (clearTheLockout s).iso.age = s.iso.age ∧ (clearTheLockout s).iso.overdue = s.iso.overdue
      ∧ (clearTheLockout s).iso.period = s.iso.period ∧ (clearTheLockout s).iso.uBus = s.iso.uBus
      ∧ (clearTheLockout s).iso.longDead = s.iso.longDead
      ∧ (clearTheLockout s).iso.energizedLast = s.iso.energizedLast ∧ (clearTheLockout s).iso.phase = s.iso.phase
      ∧ (clearTheLockout s).iso.purpose = s.iso.purpose ∧ (clearTheLockout s).iso.restarts = s.iso.restarts
      ∧ (clearTheLockout s).iso.marked = s.iso.marked := by
  simp [clearTheLockout]

@[simp] theorem endRun_within (s : State) :
    (endRun s).iso.latest = s.iso.latest ∧ (endRun s).iso.age = s.iso.age ∧ (endRun s).iso.overdue = s.iso.overdue
      ∧ (endRun s).iso.period = s.iso.period ∧ (endRun s).iso.uBus = s.iso.uBus
      ∧ (endRun s).iso.longDead = s.iso.longDead ∧ (endRun s).iso.energizedLast = s.iso.energizedLast
      ∧ (endRun s).iso.purpose = s.iso.purpose ∧ (endRun s).alc.record = s.alc.record
      ∧ (endRun s).alc.resting = s.alc.resting ∧ (endRun s).alc.restTimer = s.alc.restTimer
      ∧ (endRun s).alc.stage = s.alc.stage ∧ (endRun s).alc.stageReady = s.alc.stageReady
      ∧ (endRun s).alc.stageFault = s.alc.stageFault ∧ (endRun s).alc.cause = s.alc.cause
      ∧ (endRun s).alc.fresh = s.alc.fresh ∧ (endRun s).alc.freshTimer = s.alc.freshTimer
      ∧ (endRun s).alc.changeover = s.alc.changeover ∧ (endRun s).alc.link = s.alc.link
      ∧ (endRun s).alc.mirror54 = s.alc.mirror54 ∧ (endRun s).alc.mirror55 = s.alc.mirror55
      ∧ (endRun s).sup.pilot = s.sup.pilot ∧ (endRun s).sup.iPil = s.sup.iPil ∧ (endRun s).sup.nPh = s.sup.nPh
      ∧ (endRun s).sup.uMin = s.sup.uMin ∧ (endRun s).sup.supplyPresent = s.sup.supplyPresent
      ∧ (endRun s).ses.plug = s.ses.plug ∧ (endRun s).ses.tag = s.ses.tag ∧ (endRun s).ses.number = s.ses.number
      ∧ (endRun s).ses.prices = s.ses.prices ∧ (endRun s).ses.startTime = s.ses.startTime
      ∧ (endRun s).ses.bandHeld = s.ses.bandHeld ∧ (endRun s).ses.debA = s.ses.debA ∧ (endRun s).ses.debB = s.ses.debB
      ∧ (endRun s).ses.scopedReset = s.ses.scopedReset ∧ (endRun s).ses.defaultAccount = s.ses.defaultAccount
      ∧ (endRun s).ses.autoOpen = s.ses.autoOpen ∧ (endRun s).mtr.chg = s.mtr.chg ∧ (endRun s).mtr.heat = s.mtr.heat
      ∧ (endRun s).mtr.aux = s.mtr.aux ∧ (endRun s).mtr.standby = s.mtr.standby ∧ (endRun s).mtr.lines = s.mtr.lines
      ∧ (endRun s).mtr.minPerVolt = s.mtr.minPerVolt ∧ (endRun s).mtr.worst = s.mtr.worst
      ∧ (endRun s).mtr.unassigned = s.mtr.unassigned ∧ (endRun s).mtr.clock = s.mtr.clock
      ∧ (endRun s).mtr.band = s.mtr.band ∧ (endRun s).mtr.lockHeld = s.mtr.lockHeld
      ∧ (endRun s).mtr.lockTimer = s.mtr.lockTimer ∧ (endRun s).rst.waitImage = s.rst.waitImage
      ∧ (endRun s).htr.inbox = s.htr.inbox ∧ (endRun s).htr.applied = s.htr.applied
      ∧ (endRun s).htr.converted = s.htr.converted := by
  unfold endRun; (repeat' split) <;> simp

@[simp] theorem localizationStep_within (s : State) :
    (localizationStep s).iso.latest = s.iso.latest ∧ (localizationStep s).iso.age = s.iso.age
      ∧ (localizationStep s).iso.overdue = s.iso.overdue ∧ (localizationStep s).iso.period = s.iso.period
      ∧ (localizationStep s).iso.uBus = s.iso.uBus ∧ (localizationStep s).iso.longDead = s.iso.longDead
      ∧ (localizationStep s).iso.energizedLast = s.iso.energizedLast ∧ (localizationStep s).alc.record = s.alc.record
      ∧ (localizationStep s).alc.resting = s.alc.resting ∧ (localizationStep s).alc.restTimer = s.alc.restTimer
      ∧ (localizationStep s).alc.stage = s.alc.stage ∧ (localizationStep s).alc.stageReady = s.alc.stageReady
      ∧ (localizationStep s).alc.stageFault = s.alc.stageFault ∧ (localizationStep s).alc.cause = s.alc.cause
      ∧ (localizationStep s).alc.fresh = s.alc.fresh ∧ (localizationStep s).alc.freshTimer = s.alc.freshTimer
      ∧ (localizationStep s).alc.changeover = s.alc.changeover ∧ (localizationStep s).alc.link = s.alc.link
      ∧ (localizationStep s).alc.mirror54 = s.alc.mirror54 ∧ (localizationStep s).alc.mirror55 = s.alc.mirror55
      ∧ (localizationStep s).sup.pilot = s.sup.pilot ∧ (localizationStep s).sup.iPil = s.sup.iPil
      ∧ (localizationStep s).sup.nPh = s.sup.nPh ∧ (localizationStep s).sup.uMin = s.sup.uMin
      ∧ (localizationStep s).sup.supplyPresent = s.sup.supplyPresent ∧ (localizationStep s).ses.plug = s.ses.plug
      ∧ (localizationStep s).ses.tag = s.ses.tag ∧ (localizationStep s).ses.number = s.ses.number
      ∧ (localizationStep s).ses.prices = s.ses.prices ∧ (localizationStep s).ses.startTime = s.ses.startTime
      ∧ (localizationStep s).ses.bandHeld = s.ses.bandHeld ∧ (localizationStep s).ses.debA = s.ses.debA
      ∧ (localizationStep s).ses.debB = s.ses.debB ∧ (localizationStep s).ses.scopedReset = s.ses.scopedReset
      ∧ (localizationStep s).ses.defaultAccount = s.ses.defaultAccount
      ∧ (localizationStep s).ses.autoOpen = s.ses.autoOpen ∧ (localizationStep s).mtr.chg = s.mtr.chg
      ∧ (localizationStep s).mtr.heat = s.mtr.heat ∧ (localizationStep s).mtr.aux = s.mtr.aux
      ∧ (localizationStep s).mtr.standby = s.mtr.standby ∧ (localizationStep s).mtr.lines = s.mtr.lines
      ∧ (localizationStep s).mtr.minPerVolt = s.mtr.minPerVolt ∧ (localizationStep s).mtr.worst = s.mtr.worst
      ∧ (localizationStep s).mtr.unassigned = s.mtr.unassigned ∧ (localizationStep s).mtr.clock = s.mtr.clock
      ∧ (localizationStep s).mtr.band = s.mtr.band ∧ (localizationStep s).mtr.lockHeld = s.mtr.lockHeld
      ∧ (localizationStep s).mtr.lockTimer = s.mtr.lockTimer ∧ (localizationStep s).rst.waitImage = s.rst.waitImage
      ∧ (localizationStep s).htr.inbox = s.htr.inbox ∧ (localizationStep s).htr.applied = s.htr.applied
      ∧ (localizationStep s).htr.converted = s.htr.converted := by
  unfold localizationStep; (repeat' split) <;> simp

@[simp] theorem restartRun_within (s : State) :
    (restartRun s).alc.record = s.alc.record ∧ (restartRun s).alc.hold = s.alc.hold
      ∧ (restartRun s).alc.holdTimer = s.alc.holdTimer ∧ (restartRun s).alc.resting = s.alc.resting
      ∧ (restartRun s).alc.restTimer = s.alc.restTimer ∧ (restartRun s).alc.stage = s.alc.stage
      ∧ (restartRun s).alc.stageReady = s.alc.stageReady ∧ (restartRun s).alc.stageFault = s.alc.stageFault
      ∧ (restartRun s).alc.cause = s.alc.cause ∧ (restartRun s).alc.fresh = s.alc.fresh
      ∧ (restartRun s).alc.freshTimer = s.alc.freshTimer ∧ (restartRun s).alc.changeover = s.alc.changeover
      ∧ (restartRun s).alc.link = s.alc.link ∧ (restartRun s).alc.mirror54 = s.alc.mirror54
      ∧ (restartRun s).alc.mirror55 = s.alc.mirror55 ∧ (restartRun s).sup.pilot = s.sup.pilot
      ∧ (restartRun s).sup.iPil = s.sup.iPil ∧ (restartRun s).sup.nPh = s.sup.nPh
      ∧ (restartRun s).sup.uMin = s.sup.uMin ∧ (restartRun s).sup.supplyPresent = s.sup.supplyPresent
      ∧ (restartRun s).htr.energized = s.htr.energized ∧ (restartRun s).htr.inbox = s.htr.inbox
      ∧ (restartRun s).htr.applied = s.htr.applied ∧ (restartRun s).htr.converted = s.htr.converted
      ∧ (restartRun s).htr.slotTimer = s.htr.slotTimer ∧ (restartRun s).htr.boundaryDue = s.htr.boundaryDue
      ∧ (restartRun s).iso.grade = s.iso.grade ∧ (restartRun s).iso.lockout = s.iso.lockout
      ∧ (restartRun s).iso.candidate = s.iso.candidate ∧ (restartRun s).iso.latest = s.iso.latest
      ∧ (restartRun s).iso.age = s.iso.age ∧ (restartRun s).iso.overdue = s.iso.overdue
      ∧ (restartRun s).iso.period = s.iso.period ∧ (restartRun s).iso.uBus = s.iso.uBus
      ∧ (restartRun s).iso.longDead = s.iso.longDead ∧ (restartRun s).iso.energizedLast = s.iso.energizedLast
      ∧ (restartRun s).iso.purpose = s.iso.purpose := by
  unfold restartRun; (repeat' split) <;> simp

@[simp] theorem longDeadEnergization_within (s : State) :
    (longDeadEnergization s).alc.record = s.alc.record ∧ (longDeadEnergization s).alc.resting = s.alc.resting
      ∧ (longDeadEnergization s).alc.restTimer = s.alc.restTimer ∧ (longDeadEnergization s).alc.stage = s.alc.stage
      ∧ (longDeadEnergization s).alc.stageReady = s.alc.stageReady
      ∧ (longDeadEnergization s).alc.stageFault = s.alc.stageFault ∧ (longDeadEnergization s).alc.cause = s.alc.cause
      ∧ (longDeadEnergization s).alc.fresh = s.alc.fresh ∧ (longDeadEnergization s).alc.freshTimer = s.alc.freshTimer
      ∧ (longDeadEnergization s).alc.changeover = s.alc.changeover ∧ (longDeadEnergization s).alc.link = s.alc.link
      ∧ (longDeadEnergization s).alc.mirror54 = s.alc.mirror54
      ∧ (longDeadEnergization s).alc.mirror55 = s.alc.mirror55 ∧ (longDeadEnergization s).sup.pilot = s.sup.pilot
      ∧ (longDeadEnergization s).sup.iPil = s.sup.iPil ∧ (longDeadEnergization s).sup.nPh = s.sup.nPh
      ∧ (longDeadEnergization s).sup.uMin = s.sup.uMin
      ∧ (longDeadEnergization s).sup.supplyPresent = s.sup.supplyPresent
      ∧ (longDeadEnergization s).ses.plug = s.ses.plug ∧ (longDeadEnergization s).ses.tag = s.ses.tag
      ∧ (longDeadEnergization s).ses.number = s.ses.number ∧ (longDeadEnergization s).ses.prices = s.ses.prices
      ∧ (longDeadEnergization s).ses.startTime = s.ses.startTime
      ∧ (longDeadEnergization s).ses.bandHeld = s.ses.bandHeld ∧ (longDeadEnergization s).ses.debA = s.ses.debA
      ∧ (longDeadEnergization s).ses.debB = s.ses.debB ∧ (longDeadEnergization s).ses.scopedReset = s.ses.scopedReset
      ∧ (longDeadEnergization s).ses.defaultAccount = s.ses.defaultAccount
      ∧ (longDeadEnergization s).ses.autoOpen = s.ses.autoOpen ∧ (longDeadEnergization s).mtr.chg = s.mtr.chg
      ∧ (longDeadEnergization s).mtr.heat = s.mtr.heat ∧ (longDeadEnergization s).mtr.aux = s.mtr.aux
      ∧ (longDeadEnergization s).mtr.standby = s.mtr.standby ∧ (longDeadEnergization s).mtr.lines = s.mtr.lines
      ∧ (longDeadEnergization s).mtr.minPerVolt = s.mtr.minPerVolt ∧ (longDeadEnergization s).mtr.worst = s.mtr.worst
      ∧ (longDeadEnergization s).mtr.unassigned = s.mtr.unassigned ∧ (longDeadEnergization s).mtr.clock = s.mtr.clock
      ∧ (longDeadEnergization s).mtr.band = s.mtr.band ∧ (longDeadEnergization s).mtr.lockHeld = s.mtr.lockHeld
      ∧ (longDeadEnergization s).mtr.lockTimer = s.mtr.lockTimer
      ∧ (longDeadEnergization s).rst.waitImage = s.rst.waitImage ∧ (longDeadEnergization s).htr.inbox = s.htr.inbox
      ∧ (longDeadEnergization s).htr.applied = s.htr.applied
      ∧ (longDeadEnergization s).htr.converted = s.htr.converted ∧ (longDeadEnergization s).iso.latest = s.iso.latest
      ∧ (longDeadEnergization s).iso.age = s.iso.age ∧ (longDeadEnergization s).iso.overdue = s.iso.overdue
      ∧ (longDeadEnergization s).iso.period = s.iso.period ∧ (longDeadEnergization s).iso.uBus = s.iso.uBus
      ∧ (longDeadEnergization s).iso.energizedLast = s.iso.energizedLast := by
  unfold longDeadEnergization; dsimp only; (repeat' split) <;> simp

@[simp] theorem useResult_within (c : ResultClass) (s : State) :
    (useResult c s).iso.latest = s.iso.latest ∧ (useResult c s).iso.age = s.iso.age
      ∧ (useResult c s).iso.overdue = s.iso.overdue ∧ (useResult c s).iso.period = s.iso.period
      ∧ (useResult c s).iso.uBus = s.iso.uBus ∧ (useResult c s).iso.longDead = s.iso.longDead
      ∧ (useResult c s).iso.energizedLast = s.iso.energizedLast ∧ (useResult c s).iso.purpose = s.iso.purpose
      ∧ (useResult c s).alc.record = s.alc.record ∧ (useResult c s).alc.resting = s.alc.resting
      ∧ (useResult c s).alc.restTimer = s.alc.restTimer ∧ (useResult c s).alc.stage = s.alc.stage
      ∧ (useResult c s).alc.stageReady = s.alc.stageReady ∧ (useResult c s).alc.stageFault = s.alc.stageFault
      ∧ (useResult c s).alc.cause = s.alc.cause ∧ (useResult c s).alc.fresh = s.alc.fresh
      ∧ (useResult c s).alc.freshTimer = s.alc.freshTimer ∧ (useResult c s).alc.changeover = s.alc.changeover
      ∧ (useResult c s).alc.link = s.alc.link ∧ (useResult c s).alc.mirror54 = s.alc.mirror54
      ∧ (useResult c s).alc.mirror55 = s.alc.mirror55 ∧ (useResult c s).sup.pilot = s.sup.pilot
      ∧ (useResult c s).sup.iPil = s.sup.iPil ∧ (useResult c s).sup.nPh = s.sup.nPh
      ∧ (useResult c s).sup.uMin = s.sup.uMin ∧ (useResult c s).sup.supplyPresent = s.sup.supplyPresent
      ∧ (useResult c s).ses.plug = s.ses.plug ∧ (useResult c s).ses.tag = s.ses.tag
      ∧ (useResult c s).ses.number = s.ses.number ∧ (useResult c s).ses.prices = s.ses.prices
      ∧ (useResult c s).ses.startTime = s.ses.startTime ∧ (useResult c s).ses.bandHeld = s.ses.bandHeld
      ∧ (useResult c s).ses.debA = s.ses.debA ∧ (useResult c s).ses.debB = s.ses.debB
      ∧ (useResult c s).ses.scopedReset = s.ses.scopedReset
      ∧ (useResult c s).ses.defaultAccount = s.ses.defaultAccount ∧ (useResult c s).ses.autoOpen = s.ses.autoOpen
      ∧ (useResult c s).mtr.chg = s.mtr.chg ∧ (useResult c s).mtr.heat = s.mtr.heat
      ∧ (useResult c s).mtr.aux = s.mtr.aux ∧ (useResult c s).mtr.standby = s.mtr.standby
      ∧ (useResult c s).mtr.lines = s.mtr.lines ∧ (useResult c s).mtr.minPerVolt = s.mtr.minPerVolt
      ∧ (useResult c s).mtr.worst = s.mtr.worst ∧ (useResult c s).mtr.unassigned = s.mtr.unassigned
      ∧ (useResult c s).mtr.clock = s.mtr.clock ∧ (useResult c s).mtr.band = s.mtr.band
      ∧ (useResult c s).mtr.lockHeld = s.mtr.lockHeld ∧ (useResult c s).mtr.lockTimer = s.mtr.lockTimer
      ∧ (useResult c s).rst.waitImage = s.rst.waitImage ∧ (useResult c s).htr.inbox = s.htr.inbox
      ∧ (useResult c s).htr.applied = s.htr.applied ∧ (useResult c s).htr.converted = s.htr.converted := by
  unfold useResult; (repeat' split) <;> simp

@[simp] theorem endProbeAfter_within (purpose : Option Purpose) (l : Localization) (c : ResultClass) (s : State) :
    (endProbeAfter purpose l c s).iso.grade = s.iso.grade ∧ (endProbeAfter purpose l c s).iso.lockout = s.iso.lockout
      ∧ (endProbeAfter purpose l c s).iso.candidate = s.iso.candidate
      ∧ (endProbeAfter purpose l c s).iso.latest = s.iso.latest ∧ (endProbeAfter purpose l c s).iso.age = s.iso.age
      ∧ (endProbeAfter purpose l c s).iso.overdue = s.iso.overdue
      ∧ (endProbeAfter purpose l c s).iso.period = s.iso.period ∧ (endProbeAfter purpose l c s).iso.uBus = s.iso.uBus
      ∧ (endProbeAfter purpose l c s).iso.longDead = s.iso.longDead
      ∧ (endProbeAfter purpose l c s).iso.energizedLast = s.iso.energizedLast
      ∧ (endProbeAfter purpose l c s).iso.purpose = s.iso.purpose
      ∧ (endProbeAfter purpose l c s).iso.marked = s.iso.marked
      ∧ (endProbeAfter purpose l c s).alc.record = s.alc.record ∧ (endProbeAfter purpose l c s).alc.hold = s.alc.hold
      ∧ (endProbeAfter purpose l c s).alc.holdTimer = s.alc.holdTimer
      ∧ (endProbeAfter purpose l c s).alc.resting = s.alc.resting
      ∧ (endProbeAfter purpose l c s).alc.restTimer = s.alc.restTimer
      ∧ (endProbeAfter purpose l c s).alc.stage = s.alc.stage
      ∧ (endProbeAfter purpose l c s).alc.stageReady = s.alc.stageReady
      ∧ (endProbeAfter purpose l c s).alc.stageFault = s.alc.stageFault
      ∧ (endProbeAfter purpose l c s).alc.cause = s.alc.cause ∧ (endProbeAfter purpose l c s).alc.fresh = s.alc.fresh
      ∧ (endProbeAfter purpose l c s).alc.freshTimer = s.alc.freshTimer
      ∧ (endProbeAfter purpose l c s).alc.changeover = s.alc.changeover
      ∧ (endProbeAfter purpose l c s).alc.link = s.alc.link
      ∧ (endProbeAfter purpose l c s).alc.mirror54 = s.alc.mirror54
      ∧ (endProbeAfter purpose l c s).alc.mirror55 = s.alc.mirror55
      ∧ (endProbeAfter purpose l c s).sup.pilot = s.sup.pilot ∧ (endProbeAfter purpose l c s).sup.iPil = s.sup.iPil
      ∧ (endProbeAfter purpose l c s).sup.nPh = s.sup.nPh ∧ (endProbeAfter purpose l c s).sup.uMin = s.sup.uMin
      ∧ (endProbeAfter purpose l c s).sup.supplyPresent = s.sup.supplyPresent
      ∧ (endProbeAfter purpose l c s).htr.energized = s.htr.energized
      ∧ (endProbeAfter purpose l c s).htr.inbox = s.htr.inbox
      ∧ (endProbeAfter purpose l c s).htr.applied = s.htr.applied
      ∧ (endProbeAfter purpose l c s).htr.converted = s.htr.converted
      ∧ (endProbeAfter purpose l c s).htr.slotTimer = s.htr.slotTimer
      ∧ (endProbeAfter purpose l c s).htr.boundaryDue = s.htr.boundaryDue := by
  unfold endProbeAfter; (repeat' split) <;> simp

@[simp] theorem validResult_within (r : IsoResult) (s : State) :
    (validResult r s).iso.period = s.iso.period ∧ (validResult r s).iso.uBus = s.iso.uBus
      ∧ (validResult r s).iso.longDead = s.iso.longDead ∧ (validResult r s).iso.energizedLast = s.iso.energizedLast
      ∧ (validResult r s).iso.purpose = s.iso.purpose ∧ (validResult r s).alc.record = s.alc.record
      ∧ (validResult r s).alc.resting = s.alc.resting ∧ (validResult r s).alc.restTimer = s.alc.restTimer
      ∧ (validResult r s).alc.stage = s.alc.stage ∧ (validResult r s).alc.stageReady = s.alc.stageReady
      ∧ (validResult r s).alc.stageFault = s.alc.stageFault ∧ (validResult r s).alc.cause = s.alc.cause
      ∧ (validResult r s).alc.fresh = s.alc.fresh ∧ (validResult r s).alc.freshTimer = s.alc.freshTimer
      ∧ (validResult r s).alc.changeover = s.alc.changeover ∧ (validResult r s).alc.link = s.alc.link
      ∧ (validResult r s).alc.mirror54 = s.alc.mirror54 ∧ (validResult r s).alc.mirror55 = s.alc.mirror55
      ∧ (validResult r s).sup.pilot = s.sup.pilot ∧ (validResult r s).sup.iPil = s.sup.iPil
      ∧ (validResult r s).sup.nPh = s.sup.nPh ∧ (validResult r s).sup.uMin = s.sup.uMin
      ∧ (validResult r s).sup.supplyPresent = s.sup.supplyPresent ∧ (validResult r s).ses.plug = s.ses.plug
      ∧ (validResult r s).ses.tag = s.ses.tag ∧ (validResult r s).ses.number = s.ses.number
      ∧ (validResult r s).ses.prices = s.ses.prices ∧ (validResult r s).ses.startTime = s.ses.startTime
      ∧ (validResult r s).ses.bandHeld = s.ses.bandHeld ∧ (validResult r s).ses.debA = s.ses.debA
      ∧ (validResult r s).ses.debB = s.ses.debB ∧ (validResult r s).ses.scopedReset = s.ses.scopedReset
      ∧ (validResult r s).ses.defaultAccount = s.ses.defaultAccount ∧ (validResult r s).ses.autoOpen = s.ses.autoOpen
      ∧ (validResult r s).mtr.chg = s.mtr.chg ∧ (validResult r s).mtr.heat = s.mtr.heat
      ∧ (validResult r s).mtr.aux = s.mtr.aux ∧ (validResult r s).mtr.standby = s.mtr.standby
      ∧ (validResult r s).mtr.lines = s.mtr.lines ∧ (validResult r s).mtr.unassigned = s.mtr.unassigned
      ∧ (validResult r s).mtr.clock = s.mtr.clock ∧ (validResult r s).mtr.band = s.mtr.band
      ∧ (validResult r s).mtr.lockHeld = s.mtr.lockHeld ∧ (validResult r s).mtr.lockTimer = s.mtr.lockTimer
      ∧ (validResult r s).rst.waitImage = s.rst.waitImage ∧ (validResult r s).htr.inbox = s.htr.inbox
      ∧ (validResult r s).htr.applied = s.htr.applied ∧ (validResult r s).htr.converted = s.htr.converted := by
  simp [validResult]

@[simp] theorem finishMeasurement_within (s : State) :
    (finishMeasurement s).iso.period = s.iso.period ∧ (finishMeasurement s).iso.uBus = s.iso.uBus
      ∧ (finishMeasurement s).iso.longDead = s.iso.longDead
      ∧ (finishMeasurement s).iso.energizedLast = s.iso.energizedLast
      ∧ (finishMeasurement s).iso.purpose = s.iso.purpose ∧ (finishMeasurement s).alc.record = s.alc.record
      ∧ (finishMeasurement s).alc.resting = s.alc.resting ∧ (finishMeasurement s).alc.restTimer = s.alc.restTimer
      ∧ (finishMeasurement s).alc.stage = s.alc.stage ∧ (finishMeasurement s).alc.stageReady = s.alc.stageReady
      ∧ (finishMeasurement s).alc.stageFault = s.alc.stageFault ∧ (finishMeasurement s).alc.cause = s.alc.cause
      ∧ (finishMeasurement s).alc.fresh = s.alc.fresh ∧ (finishMeasurement s).alc.freshTimer = s.alc.freshTimer
      ∧ (finishMeasurement s).alc.changeover = s.alc.changeover ∧ (finishMeasurement s).alc.link = s.alc.link
      ∧ (finishMeasurement s).alc.mirror54 = s.alc.mirror54 ∧ (finishMeasurement s).alc.mirror55 = s.alc.mirror55
      ∧ (finishMeasurement s).sup.pilot = s.sup.pilot ∧ (finishMeasurement s).sup.iPil = s.sup.iPil
      ∧ (finishMeasurement s).sup.nPh = s.sup.nPh ∧ (finishMeasurement s).sup.uMin = s.sup.uMin
      ∧ (finishMeasurement s).sup.supplyPresent = s.sup.supplyPresent ∧ (finishMeasurement s).ses.plug = s.ses.plug
      ∧ (finishMeasurement s).ses.tag = s.ses.tag ∧ (finishMeasurement s).ses.number = s.ses.number
      ∧ (finishMeasurement s).ses.prices = s.ses.prices ∧ (finishMeasurement s).ses.startTime = s.ses.startTime
      ∧ (finishMeasurement s).ses.bandHeld = s.ses.bandHeld ∧ (finishMeasurement s).ses.debA = s.ses.debA
      ∧ (finishMeasurement s).ses.debB = s.ses.debB ∧ (finishMeasurement s).ses.scopedReset = s.ses.scopedReset
      ∧ (finishMeasurement s).ses.defaultAccount = s.ses.defaultAccount
      ∧ (finishMeasurement s).ses.autoOpen = s.ses.autoOpen ∧ (finishMeasurement s).mtr.chg = s.mtr.chg
      ∧ (finishMeasurement s).mtr.heat = s.mtr.heat ∧ (finishMeasurement s).mtr.aux = s.mtr.aux
      ∧ (finishMeasurement s).mtr.standby = s.mtr.standby ∧ (finishMeasurement s).mtr.lines = s.mtr.lines
      ∧ (finishMeasurement s).mtr.unassigned = s.mtr.unassigned ∧ (finishMeasurement s).mtr.clock = s.mtr.clock
      ∧ (finishMeasurement s).mtr.band = s.mtr.band ∧ (finishMeasurement s).mtr.lockHeld = s.mtr.lockHeld
      ∧ (finishMeasurement s).mtr.lockTimer = s.mtr.lockTimer ∧ (finishMeasurement s).rst.waitImage = s.rst.waitImage
      ∧ (finishMeasurement s).htr.inbox = s.htr.inbox ∧ (finishMeasurement s).htr.applied = s.htr.applied
      ∧ (finishMeasurement s).htr.converted = s.htr.converted := by
  unfold finishMeasurement; dsimp only; (repeat' split) <;> simp

/-! ## Allocator -/

@[simp] theorem publish_within (r : GrantRecord) (s : State) :
    (publish r s).htr.zones = s.htr.zones ∧ (publish r s).htr.mode = s.htr.mode
      ∧ (publish r s).htr.pendingMode = s.htr.pendingMode ∧ (publish r s).htr.p = s.htr.p
      ∧ (publish r s).htr.s = s.htr.s ∧ (publish r s).htr.energized = s.htr.energized
      ∧ (publish r s).htr.check = s.htr.check ∧ (publish r s).htr.applied = s.htr.applied
      ∧ (publish r s).htr.converted = s.htr.converted ∧ (publish r s).htr.slotTimer = s.htr.slotTimer
      ∧ (publish r s).htr.boundaryDue = s.htr.boundaryDue ∧ (publish r s).alc.hold = s.alc.hold
      ∧ (publish r s).alc.holdTimer = s.alc.holdTimer ∧ (publish r s).alc.resting = s.alc.resting
      ∧ (publish r s).alc.restTimer = s.alc.restTimer ∧ (publish r s).alc.window = s.alc.window
      ∧ (publish r s).alc.stage = s.alc.stage ∧ (publish r s).alc.stageReady = s.alc.stageReady
      ∧ (publish r s).alc.stageFault = s.alc.stageFault ∧ (publish r s).alc.cause = s.alc.cause := by
  simp [publish]

@[simp] theorem windowStep_within (s : State) :
    (windowStep s).alc.record = s.alc.record ∧ (windowStep s).alc.hold = s.alc.hold
      ∧ (windowStep s).alc.holdTimer = s.alc.holdTimer ∧ (windowStep s).alc.resting = s.alc.resting
      ∧ (windowStep s).alc.restTimer = s.alc.restTimer ∧ (windowStep s).alc.stage = s.alc.stage
      ∧ (windowStep s).alc.stageReady = s.alc.stageReady ∧ (windowStep s).alc.stageFault = s.alc.stageFault
      ∧ (windowStep s).alc.cause = s.alc.cause ∧ (windowStep s).alc.fresh = s.alc.fresh
      ∧ (windowStep s).alc.freshTimer = s.alc.freshTimer ∧ (windowStep s).alc.changeover = s.alc.changeover
      ∧ (windowStep s).alc.link = s.alc.link ∧ (windowStep s).alc.mirror54 = s.alc.mirror54
      ∧ (windowStep s).alc.mirror55 = s.alc.mirror55 := by
  unfold windowStep; split <;> simp

@[simp] theorem contradictionStep_within (s : State) :
    (contradictionStep s).alc.record = s.alc.record ∧ (contradictionStep s).alc.hold = s.alc.hold
      ∧ (contradictionStep s).alc.holdTimer = s.alc.holdTimer ∧ (contradictionStep s).alc.resting = s.alc.resting
      ∧ (contradictionStep s).alc.restTimer = s.alc.restTimer ∧ (contradictionStep s).alc.window = s.alc.window
      ∧ (contradictionStep s).alc.stage = s.alc.stage ∧ (contradictionStep s).alc.stageReady = s.alc.stageReady
      ∧ (contradictionStep s).alc.stageFault = s.alc.stageFault ∧ (contradictionStep s).alc.fresh = s.alc.fresh
      ∧ (contradictionStep s).alc.freshTimer = s.alc.freshTimer
      ∧ (contradictionStep s).alc.changeover = s.alc.changeover ∧ (contradictionStep s).alc.link = s.alc.link
      ∧ (contradictionStep s).alc.mirror54 = s.alc.mirror54 ∧ (contradictionStep s).alc.mirror55 = s.alc.mirror55 := by
  unfold contradictionStep; split <;> simp

@[simp] theorem windowAtPublication_within (waiting : Bool) (s : State) :
    (windowAtPublication waiting s).alc.record = s.alc.record ∧ (windowAtPublication waiting s).alc.hold = s.alc.hold
      ∧ (windowAtPublication waiting s).alc.holdTimer = s.alc.holdTimer
      ∧ (windowAtPublication waiting s).alc.resting = s.alc.resting
      ∧ (windowAtPublication waiting s).alc.restTimer = s.alc.restTimer
      ∧ (windowAtPublication waiting s).alc.stage = s.alc.stage
      ∧ (windowAtPublication waiting s).alc.stageReady = s.alc.stageReady
      ∧ (windowAtPublication waiting s).alc.stageFault = s.alc.stageFault
      ∧ (windowAtPublication waiting s).alc.cause = s.alc.cause
      ∧ (windowAtPublication waiting s).alc.fresh = s.alc.fresh
      ∧ (windowAtPublication waiting s).alc.freshTimer = s.alc.freshTimer
      ∧ (windowAtPublication waiting s).alc.changeover = s.alc.changeover
      ∧ (windowAtPublication waiting s).alc.link = s.alc.link
      ∧ (windowAtPublication waiting s).alc.mirror54 = s.alc.mirror54
      ∧ (windowAtPublication waiting s).alc.mirror55 = s.alc.mirror55
      ∧ (windowAtPublication waiting s).iso.grade = s.iso.grade
      ∧ (windowAtPublication waiting s).iso.lockout = s.iso.lockout
      ∧ (windowAtPublication waiting s).iso.candidate = s.iso.candidate
      ∧ (windowAtPublication waiting s).iso.latest = s.iso.latest
      ∧ (windowAtPublication waiting s).iso.localization = s.iso.localization
      ∧ (windowAtPublication waiting s).iso.age = s.iso.age
      ∧ (windowAtPublication waiting s).iso.overdue = s.iso.overdue
      ∧ (windowAtPublication waiting s).iso.period = s.iso.period
      ∧ (windowAtPublication waiting s).iso.uBus = s.iso.uBus
      ∧ (windowAtPublication waiting s).iso.longDead = s.iso.longDead
      ∧ (windowAtPublication waiting s).iso.energizedLast = s.iso.energizedLast
      ∧ (windowAtPublication waiting s).iso.purpose = s.iso.purpose
      ∧ (windowAtPublication waiting s).iso.restarts = s.iso.restarts
      ∧ (windowAtPublication waiting s).iso.marked = s.iso.marked := by
  unfold windowAtPublication; (repeat' split) <;> simp

@[simp] theorem allocate_within (s : State) :
    (allocate s).iso.grade = s.iso.grade ∧ (allocate s).iso.lockout = s.iso.lockout
      ∧ (allocate s).iso.candidate = s.iso.candidate ∧ (allocate s).iso.latest = s.iso.latest
      ∧ (allocate s).iso.localization = s.iso.localization ∧ (allocate s).iso.age = s.iso.age
      ∧ (allocate s).iso.overdue = s.iso.overdue ∧ (allocate s).iso.period = s.iso.period
      ∧ (allocate s).iso.uBus = s.iso.uBus ∧ (allocate s).iso.longDead = s.iso.longDead
      ∧ (allocate s).iso.energizedLast = s.iso.energizedLast ∧ (allocate s).iso.purpose = s.iso.purpose
      ∧ (allocate s).iso.restarts = s.iso.restarts ∧ (allocate s).iso.marked = s.iso.marked
      ∧ (allocate s).htr.zones = s.htr.zones ∧ (allocate s).htr.mode = s.htr.mode
      ∧ (allocate s).htr.pendingMode = s.htr.pendingMode ∧ (allocate s).htr.p = s.htr.p ∧ (allocate s).htr.s = s.htr.s
      ∧ (allocate s).htr.energized = s.htr.energized ∧ (allocate s).htr.check = s.htr.check
      ∧ (allocate s).htr.applied = s.htr.applied ∧ (allocate s).htr.converted = s.htr.converted
      ∧ (allocate s).htr.slotTimer = s.htr.slotTimer ∧ (allocate s).htr.boundaryDue = s.htr.boundaryDue
      ∧ (allocate s).sup.pilot = s.sup.pilot ∧ (allocate s).sup.iPil = s.sup.iPil ∧ (allocate s).sup.nPh = s.sup.nPh
      ∧ (allocate s).sup.uMin = s.sup.uMin ∧ (allocate s).sup.supplyPresent = s.sup.supplyPresent
      ∧ (allocate s).alc.hold = s.alc.hold ∧ (allocate s).alc.holdTimer = s.alc.holdTimer
      ∧ (allocate s).alc.resting = s.alc.resting ∧ (allocate s).alc.restTimer = s.alc.restTimer
      ∧ (allocate s).alc.stage = s.alc.stage ∧ (allocate s).alc.stageReady = s.alc.stageReady
      ∧ (allocate s).alc.stageFault = s.alc.stageFault := by
  simp [allocate]

/-! ## Events and requests -/

@[simp] theorem releaseOwned_within (p : PortId) (s : State) :
    (releaseOwned p s).alc.record = s.alc.record ∧ (releaseOwned p s).alc.window = s.alc.window
      ∧ (releaseOwned p s).alc.stage = s.alc.stage ∧ (releaseOwned p s).alc.stageReady = s.alc.stageReady
      ∧ (releaseOwned p s).alc.stageFault = s.alc.stageFault ∧ (releaseOwned p s).alc.cause = s.alc.cause
      ∧ (releaseOwned p s).alc.fresh = s.alc.fresh ∧ (releaseOwned p s).alc.freshTimer = s.alc.freshTimer
      ∧ (releaseOwned p s).alc.changeover = s.alc.changeover ∧ (releaseOwned p s).alc.link = s.alc.link
      ∧ (releaseOwned p s).alc.mirror54 = s.alc.mirror54 ∧ (releaseOwned p s).alc.mirror55 = s.alc.mirror55
      ∧ (releaseOwned p s).ses.plug = s.ses.plug ∧ (releaseOwned p s).ses.session = s.ses.session
      ∧ (releaseOwned p s).ses.tag = s.ses.tag ∧ (releaseOwned p s).ses.number = s.ses.number
      ∧ (releaseOwned p s).ses.prices = s.ses.prices ∧ (releaseOwned p s).ses.startTime = s.ses.startTime
      ∧ (releaseOwned p s).ses.bandHeld = s.ses.bandHeld ∧ (releaseOwned p s).ses.holdWithdrawn = s.ses.holdWithdrawn
      ∧ (releaseOwned p s).ses.closeReason = s.ses.closeReason ∧ (releaseOwned p s).ses.endTime = s.ses.endTime
      ∧ (releaseOwned p s).ses.debA = s.ses.debA ∧ (releaseOwned p s).ses.debB = s.ses.debB
      ∧ (releaseOwned p s).ses.scopedReset = s.ses.scopedReset
      ∧ (releaseOwned p s).ses.defaultAccount = s.ses.defaultAccount
      ∧ (releaseOwned p s).ses.autoOpen = s.ses.autoOpen ∧ (releaseOwned p s).mtr.chg = s.mtr.chg
      ∧ (releaseOwned p s).mtr.heat = s.mtr.heat ∧ (releaseOwned p s).mtr.aux = s.mtr.aux
      ∧ (releaseOwned p s).mtr.standby = s.mtr.standby ∧ (releaseOwned p s).mtr.lines = s.mtr.lines
      ∧ (releaseOwned p s).mtr.minPerVolt = s.mtr.minPerVolt ∧ (releaseOwned p s).mtr.worst = s.mtr.worst
      ∧ (releaseOwned p s).mtr.unassigned = s.mtr.unassigned ∧ (releaseOwned p s).mtr.clock = s.mtr.clock
      ∧ (releaseOwned p s).rst.waitFinal = s.rst.waitFinal ∧ (releaseOwned p s).rst.waitImage = s.rst.waitImage
      ∧ (releaseOwned p s).nv.slots = s.nv.slots ∧ (releaseOwned p s).nv.counter = s.nv.counter
      ∧ (releaseOwned p s).nv.image = s.nv.image := by
  cases p <;> simp [releaseOwned]

@[simp] theorem renewAcceptance_within (s : State) :
    (renewAcceptance s).alc.record = s.alc.record ∧ (renewAcceptance s).alc.hold = s.alc.hold
      ∧ (renewAcceptance s).alc.holdTimer = s.alc.holdTimer ∧ (renewAcceptance s).alc.resting = s.alc.resting
      ∧ (renewAcceptance s).alc.restTimer = s.alc.restTimer ∧ (renewAcceptance s).alc.window = s.alc.window
      ∧ (renewAcceptance s).alc.stage = s.alc.stage ∧ (renewAcceptance s).alc.stageReady = s.alc.stageReady
      ∧ (renewAcceptance s).alc.stageFault = s.alc.stageFault ∧ (renewAcceptance s).alc.cause = s.alc.cause
      ∧ (renewAcceptance s).alc.changeover = s.alc.changeover ∧ (renewAcceptance s).alc.link = s.alc.link
      ∧ (renewAcceptance s).alc.mirror54 = s.alc.mirror54 ∧ (renewAcceptance s).alc.mirror55 = s.alc.mirror55 := by
  unfold renewAcceptance; (repeat' split) <;> simp

@[simp] theorem commitHeatingMode_within (s : State) :
    (commitHeatingMode s).htr.zones = s.htr.zones ∧ (commitHeatingMode s).htr.energized = s.htr.energized
      ∧ (commitHeatingMode s).htr.inbox = s.htr.inbox ∧ (commitHeatingMode s).htr.applied = s.htr.applied
      ∧ (commitHeatingMode s).htr.converted = s.htr.converted ∧ (commitHeatingMode s).htr.slotTimer = s.htr.slotTimer
      ∧ (commitHeatingMode s).htr.boundaryDue = s.htr.boundaryDue ∧ (commitHeatingMode s).sup.pilot = s.sup.pilot
      ∧ (commitHeatingMode s).sup.iPil = s.sup.iPil ∧ (commitHeatingMode s).sup.nPh = s.sup.nPh
      ∧ (commitHeatingMode s).sup.uMin = s.sup.uMin ∧ (commitHeatingMode s).sup.supplyPresent = s.sup.supplyPresent
      ∧ (commitHeatingMode s).iso.grade = s.iso.grade ∧ (commitHeatingMode s).iso.lockout = s.iso.lockout
      ∧ (commitHeatingMode s).iso.candidate = s.iso.candidate ∧ (commitHeatingMode s).iso.latest = s.iso.latest
      ∧ (commitHeatingMode s).iso.age = s.iso.age ∧ (commitHeatingMode s).iso.overdue = s.iso.overdue
      ∧ (commitHeatingMode s).iso.period = s.iso.period ∧ (commitHeatingMode s).iso.uBus = s.iso.uBus
      ∧ (commitHeatingMode s).iso.longDead = s.iso.longDead
      ∧ (commitHeatingMode s).iso.energizedLast = s.iso.energizedLast
      ∧ (commitHeatingMode s).iso.purpose = s.iso.purpose ∧ (commitHeatingMode s).iso.marked = s.iso.marked
      ∧ (commitHeatingMode s).alc.record = s.alc.record ∧ (commitHeatingMode s).alc.hold = s.alc.hold
      ∧ (commitHeatingMode s).alc.holdTimer = s.alc.holdTimer ∧ (commitHeatingMode s).alc.resting = s.alc.resting
      ∧ (commitHeatingMode s).alc.restTimer = s.alc.restTimer ∧ (commitHeatingMode s).alc.stage = s.alc.stage
      ∧ (commitHeatingMode s).alc.stageReady = s.alc.stageReady
      ∧ (commitHeatingMode s).alc.stageFault = s.alc.stageFault ∧ (commitHeatingMode s).alc.cause = s.alc.cause
      ∧ (commitHeatingMode s).alc.fresh = s.alc.fresh ∧ (commitHeatingMode s).alc.freshTimer = s.alc.freshTimer
      ∧ (commitHeatingMode s).alc.changeover = s.alc.changeover ∧ (commitHeatingMode s).alc.link = s.alc.link
      ∧ (commitHeatingMode s).alc.mirror54 = s.alc.mirror54 ∧ (commitHeatingMode s).alc.mirror55 = s.alc.mirror55 := by
  simp [commitHeatingMode]

@[simp] theorem afterCommit_within (n : Fin 53) (s : State) :
    (afterCommit n s).htr.zones = s.htr.zones ∧ (afterCommit n s).htr.energized = s.htr.energized
      ∧ (afterCommit n s).htr.inbox = s.htr.inbox ∧ (afterCommit n s).htr.applied = s.htr.applied
      ∧ (afterCommit n s).htr.converted = s.htr.converted ∧ (afterCommit n s).htr.slotTimer = s.htr.slotTimer
      ∧ (afterCommit n s).htr.boundaryDue = s.htr.boundaryDue ∧ (afterCommit n s).sup.pilot = s.sup.pilot
      ∧ (afterCommit n s).sup.iPil = s.sup.iPil ∧ (afterCommit n s).sup.nPh = s.sup.nPh
      ∧ (afterCommit n s).sup.uMin = s.sup.uMin ∧ (afterCommit n s).sup.supplyPresent = s.sup.supplyPresent
      ∧ (afterCommit n s).iso.grade = s.iso.grade ∧ (afterCommit n s).iso.lockout = s.iso.lockout
      ∧ (afterCommit n s).iso.candidate = s.iso.candidate ∧ (afterCommit n s).iso.latest = s.iso.latest
      ∧ (afterCommit n s).iso.age = s.iso.age ∧ (afterCommit n s).iso.overdue = s.iso.overdue
      ∧ (afterCommit n s).iso.period = s.iso.period ∧ (afterCommit n s).iso.uBus = s.iso.uBus
      ∧ (afterCommit n s).iso.longDead = s.iso.longDead ∧ (afterCommit n s).iso.energizedLast = s.iso.energizedLast
      ∧ (afterCommit n s).iso.purpose = s.iso.purpose ∧ (afterCommit n s).iso.marked = s.iso.marked
      ∧ (afterCommit n s).alc.record = s.alc.record ∧ (afterCommit n s).alc.hold = s.alc.hold
      ∧ (afterCommit n s).alc.holdTimer = s.alc.holdTimer ∧ (afterCommit n s).alc.resting = s.alc.resting
      ∧ (afterCommit n s).alc.restTimer = s.alc.restTimer ∧ (afterCommit n s).alc.stage = s.alc.stage
      ∧ (afterCommit n s).alc.stageReady = s.alc.stageReady ∧ (afterCommit n s).alc.stageFault = s.alc.stageFault
      ∧ (afterCommit n s).alc.cause = s.alc.cause ∧ (afterCommit n s).alc.changeover = s.alc.changeover
      ∧ (afterCommit n s).alc.link = s.alc.link ∧ (afterCommit n s).alc.mirror54 = s.alc.mirror54
      ∧ (afterCommit n s).alc.mirror55 = s.alc.mirror55 := by
  unfold afterCommit; (repeat' split) <;> simp

@[simp] theorem cancelRun_within (s : State) :
    (cancelRun s).sup.pilot = s.sup.pilot ∧ (cancelRun s).sup.iPil = s.sup.iPil ∧ (cancelRun s).sup.nPh = s.sup.nPh
      ∧ (cancelRun s).sup.uMin = s.sup.uMin ∧ (cancelRun s).sup.supplyPresent = s.sup.supplyPresent
      ∧ (cancelRun s).iso.grade = s.iso.grade ∧ (cancelRun s).iso.lockout = s.iso.lockout
      ∧ (cancelRun s).iso.candidate = s.iso.candidate ∧ (cancelRun s).iso.latest = s.iso.latest
      ∧ (cancelRun s).iso.age = s.iso.age ∧ (cancelRun s).iso.overdue = s.iso.overdue
      ∧ (cancelRun s).iso.period = s.iso.period ∧ (cancelRun s).iso.uBus = s.iso.uBus
      ∧ (cancelRun s).iso.longDead = s.iso.longDead ∧ (cancelRun s).iso.energizedLast = s.iso.energizedLast
      ∧ (cancelRun s).alc.record = s.alc.record ∧ (cancelRun s).alc.hold = s.alc.hold
      ∧ (cancelRun s).alc.holdTimer = s.alc.holdTimer ∧ (cancelRun s).alc.resting = s.alc.resting
      ∧ (cancelRun s).alc.restTimer = s.alc.restTimer ∧ (cancelRun s).alc.stage = s.alc.stage
      ∧ (cancelRun s).alc.stageReady = s.alc.stageReady ∧ (cancelRun s).alc.stageFault = s.alc.stageFault
      ∧ (cancelRun s).alc.cause = s.alc.cause ∧ (cancelRun s).alc.fresh = s.alc.fresh
      ∧ (cancelRun s).alc.freshTimer = s.alc.freshTimer ∧ (cancelRun s).alc.changeover = s.alc.changeover
      ∧ (cancelRun s).alc.link = s.alc.link ∧ (cancelRun s).alc.mirror54 = s.alc.mirror54
      ∧ (cancelRun s).alc.mirror55 = s.alc.mirror55 ∧ (cancelRun s).htr.energized = s.htr.energized
      ∧ (cancelRun s).htr.inbox = s.htr.inbox ∧ (cancelRun s).htr.applied = s.htr.applied
      ∧ (cancelRun s).htr.converted = s.htr.converted ∧ (cancelRun s).htr.slotTimer = s.htr.slotTimer
      ∧ (cancelRun s).htr.boundaryDue = s.htr.boundaryDue := by
  unfold cancelRun; (repeat' split) <;> simp

@[simp] theorem setClock_within (sec : Word32) (s : State) :
    (setClock sec s).mtr.chg = s.mtr.chg ∧ (setClock sec s).mtr.heat = s.mtr.heat
      ∧ (setClock sec s).mtr.aux = s.mtr.aux ∧ (setClock sec s).mtr.standby = s.mtr.standby
      ∧ (setClock sec s).mtr.lines = s.mtr.lines ∧ (setClock sec s).mtr.minPerVolt = s.mtr.minPerVolt
      ∧ (setClock sec s).mtr.worst = s.mtr.worst ∧ (setClock sec s).mtr.unassigned = s.mtr.unassigned
      ∧ (setClock sec s).mtr.band = s.mtr.band ∧ (setClock sec s).mtr.lockHeld = s.mtr.lockHeld
      ∧ (setClock sec s).mtr.lockTimer = s.mtr.lockTimer
      ∧ (setClock sec s).mtr.checkpointTimer = s.mtr.checkpointTimer := by
  simp [setClock]

@[simp] theorem queueImage_within (v : Vector Word 200) (s : State) :
    (queueImage v s).rst.waitFinal = s.rst.waitFinal ∧ (queueImage v s).rst.waitCheckpoint = s.rst.waitCheckpoint := by
  unfold queueImage; (repeat' split) <;> simp

@[simp] theorem contactChange_within (c : Contact) (raw : Bool) (s : State) :
    (contactChange c raw s).ses.plug = s.ses.plug ∧ (contactChange c raw s).ses.session = s.ses.session
      ∧ (contactChange c raw s).ses.tag = s.ses.tag ∧ (contactChange c raw s).ses.number = s.ses.number
      ∧ (contactChange c raw s).ses.prices = s.ses.prices ∧ (contactChange c raw s).ses.startTime = s.ses.startTime
      ∧ (contactChange c raw s).ses.timeUnknown = s.ses.timeUnknown
      ∧ (contactChange c raw s).ses.bandHeld = s.ses.bandHeld
      ∧ (contactChange c raw s).ses.holdWithdrawn = s.ses.holdWithdrawn
      ∧ (contactChange c raw s).ses.closeReason = s.ses.closeReason
      ∧ (contactChange c raw s).ses.endTime = s.ses.endTime ∧ (contactChange c raw s).ses.debA = s.ses.debA
      ∧ (contactChange c raw s).ses.debB = s.ses.debB ∧ (contactChange c raw s).ses.scopedReset = s.ses.scopedReset
      ∧ (contactChange c raw s).ses.defaultAccount = s.ses.defaultAccount
      ∧ (contactChange c raw s).ses.autoOpen = s.ses.autoOpen := by
  unfold contactChange; (repeat' split) <;> simp

@[simp] theorem putPilot_within (pilot : Pilot) (amps : Nat) (s : State) :
    (putPilot pilot amps s).sup.nPh = s.sup.nPh ∧ (putPilot pilot amps s).sup.uMin = s.sup.uMin
      ∧ (putPilot pilot amps s).sup.supplyPresent = s.sup.supplyPresent
      ∧ (putPilot pilot amps s).sup.demand = s.sup.demand ∧ (putPilot pilot amps s).sup.withdrawal = s.sup.withdrawal := by
  simp [putPilot]

@[simp] theorem decodePilot_within (s : State) :
    (decodePilot s).sup.nPh = s.sup.nPh ∧ (decodePilot s).sup.uMin = s.sup.uMin
      ∧ (decodePilot s).sup.supplyPresent = s.sup.supplyPresent ∧ (decodePilot s).sup.demand = s.sup.demand
      ∧ (decodePilot s).sup.withdrawal = s.sup.withdrawal := by
  simp [decodePilot]

@[simp] theorem pilotLost_within (s : State) :
    (pilotLost s).sup.nPh = s.sup.nPh ∧ (pilotLost s).sup.uMin = s.sup.uMin
      ∧ (pilotLost s).sup.supplyPresent = s.sup.supplyPresent ∧ (pilotLost s).sup.demand = s.sup.demand
      ∧ (pilotLost s).sup.withdrawal = s.sup.withdrawal := by
  unfold pilotLost; (repeat' split) <;> simp

@[simp] theorem phaseWindow_within (u1 u2 u3 : Nat) (s : State) :
    (phaseWindow u1 u2 u3 s).sup.pilot = s.sup.pilot ∧ (phaseWindow u1 u2 u3 s).sup.iPil = s.sup.iPil
      ∧ (phaseWindow u1 u2 u3 s).sup.demand = s.sup.demand
      ∧ (phaseWindow u1 u2 u3 s).sup.withdrawal = s.sup.withdrawal := by
  simp [phaseWindow]

@[simp] theorem acceptanceExpired_within (s : State) :
    (acceptanceExpired s).alc.record = s.alc.record ∧ (acceptanceExpired s).alc.hold = s.alc.hold
      ∧ (acceptanceExpired s).alc.holdTimer = s.alc.holdTimer ∧ (acceptanceExpired s).alc.resting = s.alc.resting
      ∧ (acceptanceExpired s).alc.restTimer = s.alc.restTimer ∧ (acceptanceExpired s).alc.window = s.alc.window
      ∧ (acceptanceExpired s).alc.stage = s.alc.stage ∧ (acceptanceExpired s).alc.stageReady = s.alc.stageReady
      ∧ (acceptanceExpired s).alc.stageFault = s.alc.stageFault ∧ (acceptanceExpired s).alc.cause = s.alc.cause
      ∧ (acceptanceExpired s).alc.changeover = s.alc.changeover ∧ (acceptanceExpired s).alc.link = s.alc.link
      ∧ (acceptanceExpired s).alc.mirror54 = s.alc.mirror54 ∧ (acceptanceExpired s).alc.mirror55 = s.alc.mirror55 := by
  unfold acceptanceExpired; (repeat' split) <;> simp

@[simp] theorem readyChanged_within (b : Bool) (s : State) :
    (readyChanged b s).alc.record = s.alc.record ∧ (readyChanged b s).alc.hold = s.alc.hold
      ∧ (readyChanged b s).alc.holdTimer = s.alc.holdTimer ∧ (readyChanged b s).alc.resting = s.alc.resting
      ∧ (readyChanged b s).alc.restTimer = s.alc.restTimer ∧ (readyChanged b s).alc.window = s.alc.window
      ∧ (readyChanged b s).alc.stageFault = s.alc.stageFault ∧ (readyChanged b s).alc.fresh = s.alc.fresh
      ∧ (readyChanged b s).alc.freshTimer = s.alc.freshTimer ∧ (readyChanged b s).alc.changeover = s.alc.changeover
      ∧ (readyChanged b s).alc.link = s.alc.link ∧ (readyChanged b s).alc.mirror54 = s.alc.mirror54
      ∧ (readyChanged b s).alc.mirror55 = s.alc.mirror55 := by
  unfold readyChanged; dsimp only; (repeat' split) <;> simp

@[simp] theorem faultChanged_within (b : Bool) (s : State) :
    (faultChanged b s).alc.record = s.alc.record ∧ (faultChanged b s).alc.hold = s.alc.hold
      ∧ (faultChanged b s).alc.holdTimer = s.alc.holdTimer ∧ (faultChanged b s).alc.resting = s.alc.resting
      ∧ (faultChanged b s).alc.restTimer = s.alc.restTimer ∧ (faultChanged b s).alc.window = s.alc.window
      ∧ (faultChanged b s).alc.stageReady = s.alc.stageReady ∧ (faultChanged b s).alc.fresh = s.alc.fresh
      ∧ (faultChanged b s).alc.freshTimer = s.alc.freshTimer ∧ (faultChanged b s).alc.changeover = s.alc.changeover
      ∧ (faultChanged b s).alc.link = s.alc.link ∧ (faultChanged b s).alc.mirror54 = s.alc.mirror54
      ∧ (faultChanged b s).alc.mirror55 = s.alc.mirror55 := by
  unfold faultChanged; dsimp only; (repeat' split) <;> simp

@[simp] theorem recovered_within (s : State) :
    (recovered s).alc.record = s.alc.record ∧ (recovered s).alc.hold = s.alc.hold
      ∧ (recovered s).alc.holdTimer = s.alc.holdTimer ∧ (recovered s).alc.resting = s.alc.resting
      ∧ (recovered s).alc.restTimer = s.alc.restTimer ∧ (recovered s).alc.window = s.alc.window
      ∧ (recovered s).alc.stageReady = s.alc.stageReady ∧ (recovered s).alc.stageFault = s.alc.stageFault
      ∧ (recovered s).alc.cause = s.alc.cause ∧ (recovered s).alc.fresh = s.alc.fresh
      ∧ (recovered s).alc.freshTimer = s.alc.freshTimer ∧ (recovered s).alc.changeover = s.alc.changeover
      ∧ (recovered s).alc.link = s.alc.link ∧ (recovered s).alc.mirror54 = s.alc.mirror54
      ∧ (recovered s).alc.mirror55 = s.alc.mirror55 := by
  unfold recovered; (repeat' split) <;> simp

@[simp] theorem applyNext_within (s : State) :
    (applyNext s).sup.pilot = s.sup.pilot ∧ (applyNext s).sup.iPil = s.sup.iPil ∧ (applyNext s).sup.nPh = s.sup.nPh
      ∧ (applyNext s).sup.uMin = s.sup.uMin ∧ (applyNext s).sup.supplyPresent = s.sup.supplyPresent
      ∧ (applyNext s).iso.grade = s.iso.grade ∧ (applyNext s).iso.lockout = s.iso.lockout
      ∧ (applyNext s).iso.candidate = s.iso.candidate ∧ (applyNext s).iso.latest = s.iso.latest
      ∧ (applyNext s).iso.age = s.iso.age ∧ (applyNext s).iso.overdue = s.iso.overdue
      ∧ (applyNext s).iso.period = s.iso.period ∧ (applyNext s).iso.uBus = s.iso.uBus
      ∧ (applyNext s).iso.longDead = s.iso.longDead ∧ (applyNext s).iso.energizedLast = s.iso.energizedLast
      ∧ (applyNext s).iso.purpose = s.iso.purpose ∧ (applyNext s).iso.marked = s.iso.marked
      ∧ (applyNext s).alc.record = s.alc.record ∧ (applyNext s).alc.hold = s.alc.hold
      ∧ (applyNext s).alc.holdTimer = s.alc.holdTimer ∧ (applyNext s).alc.resting = s.alc.resting
      ∧ (applyNext s).alc.restTimer = s.alc.restTimer ∧ (applyNext s).alc.stage = s.alc.stage
      ∧ (applyNext s).alc.stageReady = s.alc.stageReady ∧ (applyNext s).alc.stageFault = s.alc.stageFault
      ∧ (applyNext s).alc.cause = s.alc.cause ∧ (applyNext s).alc.fresh = s.alc.fresh
      ∧ (applyNext s).alc.freshTimer = s.alc.freshTimer ∧ (applyNext s).alc.changeover = s.alc.changeover
      ∧ (applyNext s).alc.link = s.alc.link ∧ (applyNext s).alc.mirror54 = s.alc.mirror54
      ∧ (applyNext s).alc.mirror55 = s.alc.mirror55 := by
  unfold applyNext; (repeat' split) <;> simp

@[simp] theorem pulseDue_within (s : State) :
    (pulseDue s).htr.zones = s.htr.zones ∧ (pulseDue s).htr.energized = s.htr.energized
      ∧ (pulseDue s).htr.inbox = s.htr.inbox ∧ (pulseDue s).htr.applied = s.htr.applied
      ∧ (pulseDue s).htr.converted = s.htr.converted ∧ (pulseDue s).htr.slotTimer = s.htr.slotTimer
      ∧ (pulseDue s).htr.boundaryDue = s.htr.boundaryDue ∧ (pulseDue s).sup.pilot = s.sup.pilot
      ∧ (pulseDue s).sup.iPil = s.sup.iPil ∧ (pulseDue s).sup.nPh = s.sup.nPh ∧ (pulseDue s).sup.uMin = s.sup.uMin
      ∧ (pulseDue s).sup.supplyPresent = s.sup.supplyPresent ∧ (pulseDue s).iso.grade = s.iso.grade
      ∧ (pulseDue s).iso.lockout = s.iso.lockout ∧ (pulseDue s).iso.candidate = s.iso.candidate
      ∧ (pulseDue s).iso.latest = s.iso.latest ∧ (pulseDue s).iso.age = s.iso.age
      ∧ (pulseDue s).iso.overdue = s.iso.overdue ∧ (pulseDue s).iso.period = s.iso.period
      ∧ (pulseDue s).iso.uBus = s.iso.uBus ∧ (pulseDue s).iso.longDead = s.iso.longDead
      ∧ (pulseDue s).iso.energizedLast = s.iso.energizedLast ∧ (pulseDue s).iso.purpose = s.iso.purpose
      ∧ (pulseDue s).iso.marked = s.iso.marked ∧ (pulseDue s).alc.record = s.alc.record
      ∧ (pulseDue s).alc.hold = s.alc.hold ∧ (pulseDue s).alc.holdTimer = s.alc.holdTimer
      ∧ (pulseDue s).alc.resting = s.alc.resting ∧ (pulseDue s).alc.restTimer = s.alc.restTimer
      ∧ (pulseDue s).alc.stage = s.alc.stage ∧ (pulseDue s).alc.stageReady = s.alc.stageReady
      ∧ (pulseDue s).alc.stageFault = s.alc.stageFault ∧ (pulseDue s).alc.cause = s.alc.cause
      ∧ (pulseDue s).alc.fresh = s.alc.fresh ∧ (pulseDue s).alc.freshTimer = s.alc.freshTimer
      ∧ (pulseDue s).alc.changeover = s.alc.changeover ∧ (pulseDue s).alc.link = s.alc.link
      ∧ (pulseDue s).alc.mirror54 = s.alc.mirror54 ∧ (pulseDue s).alc.mirror55 = s.alc.mirror55 := by
  unfold pulseDue; (repeat' split) <;> simp

@[simp] theorem pulseEnded_within (amps : Nat) (s : State) :
    (pulseEnded amps s).sup.pilot = s.sup.pilot ∧ (pulseEnded amps s).sup.iPil = s.sup.iPil
      ∧ (pulseEnded amps s).sup.nPh = s.sup.nPh ∧ (pulseEnded amps s).sup.uMin = s.sup.uMin
      ∧ (pulseEnded amps s).sup.supplyPresent = s.sup.supplyPresent ∧ (pulseEnded amps s).iso.grade = s.iso.grade
      ∧ (pulseEnded amps s).iso.lockout = s.iso.lockout ∧ (pulseEnded amps s).iso.candidate = s.iso.candidate
      ∧ (pulseEnded amps s).iso.latest = s.iso.latest ∧ (pulseEnded amps s).iso.age = s.iso.age
      ∧ (pulseEnded amps s).iso.overdue = s.iso.overdue ∧ (pulseEnded amps s).iso.period = s.iso.period
      ∧ (pulseEnded amps s).iso.uBus = s.iso.uBus ∧ (pulseEnded amps s).iso.longDead = s.iso.longDead
      ∧ (pulseEnded amps s).iso.energizedLast = s.iso.energizedLast ∧ (pulseEnded amps s).iso.purpose = s.iso.purpose
      ∧ (pulseEnded amps s).iso.marked = s.iso.marked ∧ (pulseEnded amps s).alc.record = s.alc.record
      ∧ (pulseEnded amps s).alc.hold = s.alc.hold ∧ (pulseEnded amps s).alc.holdTimer = s.alc.holdTimer
      ∧ (pulseEnded amps s).alc.resting = s.alc.resting ∧ (pulseEnded amps s).alc.restTimer = s.alc.restTimer
      ∧ (pulseEnded amps s).alc.stage = s.alc.stage ∧ (pulseEnded amps s).alc.stageReady = s.alc.stageReady
      ∧ (pulseEnded amps s).alc.stageFault = s.alc.stageFault ∧ (pulseEnded amps s).alc.cause = s.alc.cause
      ∧ (pulseEnded amps s).alc.fresh = s.alc.fresh ∧ (pulseEnded amps s).alc.freshTimer = s.alc.freshTimer
      ∧ (pulseEnded amps s).alc.changeover = s.alc.changeover ∧ (pulseEnded amps s).alc.link = s.alc.link
      ∧ (pulseEnded amps s).alc.mirror54 = s.alc.mirror54 ∧ (pulseEnded amps s).alc.mirror55 = s.alc.mirror55 := by
  unfold pulseEnded; (repeat' split) <;> simp

@[simp] theorem convertAll_within (readings : Vector Thermistor 8) (s : State) :
    (convertAll readings s).sup.pilot = s.sup.pilot ∧ (convertAll readings s).sup.iPil = s.sup.iPil
      ∧ (convertAll readings s).sup.nPh = s.sup.nPh ∧ (convertAll readings s).sup.uMin = s.sup.uMin
      ∧ (convertAll readings s).sup.supplyPresent = s.sup.supplyPresent
      ∧ (convertAll readings s).iso.grade = s.iso.grade ∧ (convertAll readings s).iso.lockout = s.iso.lockout
      ∧ (convertAll readings s).iso.candidate = s.iso.candidate ∧ (convertAll readings s).iso.latest = s.iso.latest
      ∧ (convertAll readings s).iso.age = s.iso.age ∧ (convertAll readings s).iso.overdue = s.iso.overdue
      ∧ (convertAll readings s).iso.period = s.iso.period ∧ (convertAll readings s).iso.uBus = s.iso.uBus
      ∧ (convertAll readings s).iso.longDead = s.iso.longDead
      ∧ (convertAll readings s).iso.energizedLast = s.iso.energizedLast
      ∧ (convertAll readings s).iso.purpose = s.iso.purpose ∧ (convertAll readings s).iso.marked = s.iso.marked
      ∧ (convertAll readings s).alc.record = s.alc.record ∧ (convertAll readings s).alc.hold = s.alc.hold
      ∧ (convertAll readings s).alc.holdTimer = s.alc.holdTimer ∧ (convertAll readings s).alc.resting = s.alc.resting
      ∧ (convertAll readings s).alc.restTimer = s.alc.restTimer ∧ (convertAll readings s).alc.stage = s.alc.stage
      ∧ (convertAll readings s).alc.stageReady = s.alc.stageReady
      ∧ (convertAll readings s).alc.stageFault = s.alc.stageFault ∧ (convertAll readings s).alc.cause = s.alc.cause
      ∧ (convertAll readings s).alc.fresh = s.alc.fresh ∧ (convertAll readings s).alc.freshTimer = s.alc.freshTimer
      ∧ (convertAll readings s).alc.changeover = s.alc.changeover ∧ (convertAll readings s).alc.link = s.alc.link
      ∧ (convertAll readings s).alc.mirror54 = s.alc.mirror54 ∧ (convertAll readings s).alc.mirror55 = s.alc.mirror55
      ∧ (convertAll readings s).htr.inbox = s.htr.inbox ∧ (convertAll readings s).htr.applied = s.htr.applied := by
  simp [convertAll, zoneIds]

@[simp] theorem slotExpired_within (s : State) :
    (slotExpired s).htr.zones = s.htr.zones ∧ (slotExpired s).htr.mode = s.htr.mode
      ∧ (slotExpired s).htr.pendingMode = s.htr.pendingMode ∧ (slotExpired s).htr.p = s.htr.p
      ∧ (slotExpired s).htr.s = s.htr.s ∧ (slotExpired s).htr.energized = s.htr.energized
      ∧ (slotExpired s).htr.check = s.htr.check ∧ (slotExpired s).htr.inbox = s.htr.inbox
      ∧ (slotExpired s).htr.applied = s.htr.applied ∧ (slotExpired s).htr.converted = s.htr.converted := by
  unfold slotExpired; (repeat' split) <;> simp

@[simp] theorem energizedConversion_within (s : State) :
    (energizedConversion s).alc.record = s.alc.record ∧ (energizedConversion s).alc.resting = s.alc.resting
      ∧ (energizedConversion s).alc.restTimer = s.alc.restTimer ∧ (energizedConversion s).alc.stage = s.alc.stage
      ∧ (energizedConversion s).alc.stageReady = s.alc.stageReady
      ∧ (energizedConversion s).alc.stageFault = s.alc.stageFault ∧ (energizedConversion s).alc.cause = s.alc.cause
      ∧ (energizedConversion s).alc.fresh = s.alc.fresh ∧ (energizedConversion s).alc.freshTimer = s.alc.freshTimer
      ∧ (energizedConversion s).alc.changeover = s.alc.changeover ∧ (energizedConversion s).alc.link = s.alc.link
      ∧ (energizedConversion s).alc.mirror54 = s.alc.mirror54 ∧ (energizedConversion s).alc.mirror55 = s.alc.mirror55
      ∧ (energizedConversion s).sup.pilot = s.sup.pilot ∧ (energizedConversion s).sup.iPil = s.sup.iPil
      ∧ (energizedConversion s).sup.nPh = s.sup.nPh ∧ (energizedConversion s).sup.uMin = s.sup.uMin
      ∧ (energizedConversion s).sup.supplyPresent = s.sup.supplyPresent
      ∧ (energizedConversion s).ses.plug = s.ses.plug ∧ (energizedConversion s).ses.tag = s.ses.tag
      ∧ (energizedConversion s).ses.number = s.ses.number ∧ (energizedConversion s).ses.prices = s.ses.prices
      ∧ (energizedConversion s).ses.startTime = s.ses.startTime
      ∧ (energizedConversion s).ses.bandHeld = s.ses.bandHeld ∧ (energizedConversion s).ses.debA = s.ses.debA
      ∧ (energizedConversion s).ses.debB = s.ses.debB ∧ (energizedConversion s).ses.scopedReset = s.ses.scopedReset
      ∧ (energizedConversion s).ses.defaultAccount = s.ses.defaultAccount
      ∧ (energizedConversion s).ses.autoOpen = s.ses.autoOpen ∧ (energizedConversion s).mtr.chg = s.mtr.chg
      ∧ (energizedConversion s).mtr.heat = s.mtr.heat ∧ (energizedConversion s).mtr.aux = s.mtr.aux
      ∧ (energizedConversion s).mtr.standby = s.mtr.standby ∧ (energizedConversion s).mtr.lines = s.mtr.lines
      ∧ (energizedConversion s).mtr.minPerVolt = s.mtr.minPerVolt ∧ (energizedConversion s).mtr.worst = s.mtr.worst
      ∧ (energizedConversion s).mtr.unassigned = s.mtr.unassigned ∧ (energizedConversion s).mtr.clock = s.mtr.clock
      ∧ (energizedConversion s).mtr.band = s.mtr.band ∧ (energizedConversion s).mtr.lockHeld = s.mtr.lockHeld
      ∧ (energizedConversion s).mtr.lockTimer = s.mtr.lockTimer
      ∧ (energizedConversion s).rst.waitImage = s.rst.waitImage ∧ (energizedConversion s).iso.latest = s.iso.latest
      ∧ (energizedConversion s).iso.period = s.iso.period ∧ (energizedConversion s).iso.uBus = s.iso.uBus
      ∧ (energizedConversion s).htr.inbox = s.htr.inbox ∧ (energizedConversion s).htr.applied = s.htr.applied
      ∧ (energizedConversion s).htr.converted = s.htr.converted := by
  unfold energizedConversion; dsimp only; (repeat' split) <;> simp

@[simp] theorem deadConversion_within (s : State) :
    (deadConversion s).iso.grade = s.iso.grade ∧ (deadConversion s).iso.lockout = s.iso.lockout
      ∧ (deadConversion s).iso.candidate = s.iso.candidate ∧ (deadConversion s).iso.latest = s.iso.latest
      ∧ (deadConversion s).iso.age = s.iso.age ∧ (deadConversion s).iso.overdue = s.iso.overdue
      ∧ (deadConversion s).iso.period = s.iso.period ∧ (deadConversion s).iso.uBus = s.iso.uBus
      ∧ (deadConversion s).iso.longDead = s.iso.longDead ∧ (deadConversion s).iso.purpose = s.iso.purpose
      ∧ (deadConversion s).iso.restarts = s.iso.restarts ∧ (deadConversion s).iso.marked = s.iso.marked
      ∧ (deadConversion s).alc.record = s.alc.record ∧ (deadConversion s).alc.hold = s.alc.hold
      ∧ (deadConversion s).alc.holdTimer = s.alc.holdTimer ∧ (deadConversion s).alc.resting = s.alc.resting
      ∧ (deadConversion s).alc.restTimer = s.alc.restTimer ∧ (deadConversion s).alc.stage = s.alc.stage
      ∧ (deadConversion s).alc.stageReady = s.alc.stageReady ∧ (deadConversion s).alc.stageFault = s.alc.stageFault
      ∧ (deadConversion s).alc.cause = s.alc.cause ∧ (deadConversion s).alc.fresh = s.alc.fresh
      ∧ (deadConversion s).alc.freshTimer = s.alc.freshTimer ∧ (deadConversion s).alc.changeover = s.alc.changeover
      ∧ (deadConversion s).alc.link = s.alc.link ∧ (deadConversion s).alc.mirror54 = s.alc.mirror54
      ∧ (deadConversion s).alc.mirror55 = s.alc.mirror55 ∧ (deadConversion s).htr.zones = s.htr.zones
      ∧ (deadConversion s).htr.mode = s.htr.mode ∧ (deadConversion s).htr.pendingMode = s.htr.pendingMode
      ∧ (deadConversion s).htr.p = s.htr.p ∧ (deadConversion s).htr.s = s.htr.s
      ∧ (deadConversion s).htr.energized = s.htr.energized ∧ (deadConversion s).htr.inbox = s.htr.inbox
      ∧ (deadConversion s).htr.applied = s.htr.applied ∧ (deadConversion s).htr.converted = s.htr.converted
      ∧ (deadConversion s).htr.slotTimer = s.htr.slotTimer ∧ (deadConversion s).htr.boundaryDue = s.htr.boundaryDue := by
  unfold deadConversion; dsimp only; (repeat' split) <;> simp

@[simp] theorem busConverted_within (up un : Nat) (s : State) :
    (busConverted up un s).alc.record = s.alc.record ∧ (busConverted up un s).alc.resting = s.alc.resting
      ∧ (busConverted up un s).alc.restTimer = s.alc.restTimer ∧ (busConverted up un s).alc.stage = s.alc.stage
      ∧ (busConverted up un s).alc.stageReady = s.alc.stageReady
      ∧ (busConverted up un s).alc.stageFault = s.alc.stageFault ∧ (busConverted up un s).alc.cause = s.alc.cause
      ∧ (busConverted up un s).alc.fresh = s.alc.fresh ∧ (busConverted up un s).alc.freshTimer = s.alc.freshTimer
      ∧ (busConverted up un s).alc.changeover = s.alc.changeover ∧ (busConverted up un s).alc.link = s.alc.link
      ∧ (busConverted up un s).alc.mirror54 = s.alc.mirror54 ∧ (busConverted up un s).alc.mirror55 = s.alc.mirror55
      ∧ (busConverted up un s).sup.pilot = s.sup.pilot ∧ (busConverted up un s).sup.iPil = s.sup.iPil
      ∧ (busConverted up un s).sup.nPh = s.sup.nPh ∧ (busConverted up un s).sup.uMin = s.sup.uMin
      ∧ (busConverted up un s).sup.supplyPresent = s.sup.supplyPresent ∧ (busConverted up un s).ses.plug = s.ses.plug
      ∧ (busConverted up un s).ses.tag = s.ses.tag ∧ (busConverted up un s).ses.number = s.ses.number
      ∧ (busConverted up un s).ses.prices = s.ses.prices ∧ (busConverted up un s).ses.startTime = s.ses.startTime
      ∧ (busConverted up un s).ses.bandHeld = s.ses.bandHeld ∧ (busConverted up un s).ses.debA = s.ses.debA
      ∧ (busConverted up un s).ses.debB = s.ses.debB ∧ (busConverted up un s).ses.scopedReset = s.ses.scopedReset
      ∧ (busConverted up un s).ses.defaultAccount = s.ses.defaultAccount
      ∧ (busConverted up un s).ses.autoOpen = s.ses.autoOpen ∧ (busConverted up un s).mtr.chg = s.mtr.chg
      ∧ (busConverted up un s).mtr.heat = s.mtr.heat ∧ (busConverted up un s).mtr.aux = s.mtr.aux
      ∧ (busConverted up un s).mtr.standby = s.mtr.standby ∧ (busConverted up un s).mtr.lines = s.mtr.lines
      ∧ (busConverted up un s).mtr.minPerVolt = s.mtr.minPerVolt ∧ (busConverted up un s).mtr.worst = s.mtr.worst
      ∧ (busConverted up un s).mtr.unassigned = s.mtr.unassigned ∧ (busConverted up un s).mtr.clock = s.mtr.clock
      ∧ (busConverted up un s).mtr.band = s.mtr.band ∧ (busConverted up un s).mtr.lockHeld = s.mtr.lockHeld
      ∧ (busConverted up un s).mtr.lockTimer = s.mtr.lockTimer
      ∧ (busConverted up un s).rst.waitImage = s.rst.waitImage ∧ (busConverted up un s).iso.latest = s.iso.latest
      ∧ (busConverted up un s).iso.period = s.iso.period ∧ (busConverted up un s).htr.inbox = s.htr.inbox
      ∧ (busConverted up un s).htr.applied = s.htr.applied ∧ (busConverted up un s).htr.converted = s.htr.converted := by
  unfold busConverted; dsimp only; (repeat' split) <;> simp

@[simp] theorem periodExpired_within (s : State) :
    (periodExpired s).iso.grade = s.iso.grade ∧ (periodExpired s).iso.lockout = s.iso.lockout
      ∧ (periodExpired s).iso.candidate = s.iso.candidate ∧ (periodExpired s).iso.latest = s.iso.latest
      ∧ (periodExpired s).iso.localization = s.iso.localization ∧ (periodExpired s).iso.age = s.iso.age
      ∧ (periodExpired s).iso.uBus = s.iso.uBus ∧ (periodExpired s).iso.longDead = s.iso.longDead
      ∧ (periodExpired s).iso.energizedLast = s.iso.energizedLast ∧ (periodExpired s).iso.marked = s.iso.marked
      ∧ (periodExpired s).alc.record = s.alc.record ∧ (periodExpired s).alc.holdTimer = s.alc.holdTimer
      ∧ (periodExpired s).alc.resting = s.alc.resting ∧ (periodExpired s).alc.restTimer = s.alc.restTimer
      ∧ (periodExpired s).alc.stage = s.alc.stage ∧ (periodExpired s).alc.stageReady = s.alc.stageReady
      ∧ (periodExpired s).alc.stageFault = s.alc.stageFault ∧ (periodExpired s).alc.cause = s.alc.cause
      ∧ (periodExpired s).alc.fresh = s.alc.fresh ∧ (periodExpired s).alc.freshTimer = s.alc.freshTimer
      ∧ (periodExpired s).alc.changeover = s.alc.changeover ∧ (periodExpired s).alc.link = s.alc.link
      ∧ (periodExpired s).alc.mirror54 = s.alc.mirror54 ∧ (periodExpired s).alc.mirror55 = s.alc.mirror55
      ∧ (periodExpired s).ses.plug = s.ses.plug ∧ (periodExpired s).ses.session = s.ses.session
      ∧ (periodExpired s).ses.tag = s.ses.tag ∧ (periodExpired s).ses.number = s.ses.number
      ∧ (periodExpired s).ses.prices = s.ses.prices ∧ (periodExpired s).ses.startTime = s.ses.startTime
      ∧ (periodExpired s).ses.timeUnknown = s.ses.timeUnknown ∧ (periodExpired s).ses.bandHeld = s.ses.bandHeld
      ∧ (periodExpired s).ses.closeReason = s.ses.closeReason ∧ (periodExpired s).ses.endTime = s.ses.endTime
      ∧ (periodExpired s).ses.debA = s.ses.debA ∧ (periodExpired s).ses.debB = s.ses.debB
      ∧ (periodExpired s).ses.scopedReset = s.ses.scopedReset
      ∧ (periodExpired s).ses.defaultAccount = s.ses.defaultAccount ∧ (periodExpired s).ses.autoOpen = s.ses.autoOpen := by
  unfold periodExpired; dsimp only; (repeat' split) <;> simp

@[simp] theorem phaseEnded_within (s : State) :
    (phaseEnded s).iso.period = s.iso.period ∧ (phaseEnded s).iso.uBus = s.iso.uBus
      ∧ (phaseEnded s).iso.longDead = s.iso.longDead ∧ (phaseEnded s).iso.energizedLast = s.iso.energizedLast
      ∧ (phaseEnded s).iso.purpose = s.iso.purpose ∧ (phaseEnded s).alc.record = s.alc.record
      ∧ (phaseEnded s).alc.resting = s.alc.resting ∧ (phaseEnded s).alc.restTimer = s.alc.restTimer
      ∧ (phaseEnded s).alc.stage = s.alc.stage ∧ (phaseEnded s).alc.stageReady = s.alc.stageReady
      ∧ (phaseEnded s).alc.stageFault = s.alc.stageFault ∧ (phaseEnded s).alc.cause = s.alc.cause
      ∧ (phaseEnded s).alc.fresh = s.alc.fresh ∧ (phaseEnded s).alc.freshTimer = s.alc.freshTimer
      ∧ (phaseEnded s).alc.changeover = s.alc.changeover ∧ (phaseEnded s).alc.link = s.alc.link
      ∧ (phaseEnded s).alc.mirror54 = s.alc.mirror54 ∧ (phaseEnded s).alc.mirror55 = s.alc.mirror55
      ∧ (phaseEnded s).sup.pilot = s.sup.pilot ∧ (phaseEnded s).sup.iPil = s.sup.iPil
      ∧ (phaseEnded s).sup.nPh = s.sup.nPh ∧ (phaseEnded s).sup.uMin = s.sup.uMin
      ∧ (phaseEnded s).sup.supplyPresent = s.sup.supplyPresent ∧ (phaseEnded s).ses.plug = s.ses.plug
      ∧ (phaseEnded s).ses.tag = s.ses.tag ∧ (phaseEnded s).ses.number = s.ses.number
      ∧ (phaseEnded s).ses.prices = s.ses.prices ∧ (phaseEnded s).ses.startTime = s.ses.startTime
      ∧ (phaseEnded s).ses.bandHeld = s.ses.bandHeld ∧ (phaseEnded s).ses.debA = s.ses.debA
      ∧ (phaseEnded s).ses.debB = s.ses.debB ∧ (phaseEnded s).ses.scopedReset = s.ses.scopedReset
      ∧ (phaseEnded s).ses.defaultAccount = s.ses.defaultAccount ∧ (phaseEnded s).ses.autoOpen = s.ses.autoOpen
      ∧ (phaseEnded s).mtr.chg = s.mtr.chg ∧ (phaseEnded s).mtr.heat = s.mtr.heat ∧ (phaseEnded s).mtr.aux = s.mtr.aux
      ∧ (phaseEnded s).mtr.standby = s.mtr.standby ∧ (phaseEnded s).mtr.lines = s.mtr.lines
      ∧ (phaseEnded s).mtr.unassigned = s.mtr.unassigned ∧ (phaseEnded s).mtr.clock = s.mtr.clock
      ∧ (phaseEnded s).mtr.band = s.mtr.band ∧ (phaseEnded s).mtr.lockHeld = s.mtr.lockHeld
      ∧ (phaseEnded s).mtr.lockTimer = s.mtr.lockTimer ∧ (phaseEnded s).rst.waitImage = s.rst.waitImage
      ∧ (phaseEnded s).htr.inbox = s.htr.inbox ∧ (phaseEnded s).htr.applied = s.htr.applied
      ∧ (phaseEnded s).htr.converted = s.htr.converted := by
  unfold phaseEnded; (repeat' split) <;> simp

@[simp] theorem sampled_within (up un : Nat) (s : State) :
    (sampled up un s).iso.grade = s.iso.grade ∧ (sampled up un s).iso.lockout = s.iso.lockout
      ∧ (sampled up un s).iso.candidate = s.iso.candidate ∧ (sampled up un s).iso.latest = s.iso.latest
      ∧ (sampled up un s).iso.localization = s.iso.localization ∧ (sampled up un s).iso.age = s.iso.age
      ∧ (sampled up un s).iso.overdue = s.iso.overdue ∧ (sampled up un s).iso.period = s.iso.period
      ∧ (sampled up un s).iso.uBus = s.iso.uBus ∧ (sampled up un s).iso.longDead = s.iso.longDead
      ∧ (sampled up un s).iso.energizedLast = s.iso.energizedLast ∧ (sampled up un s).iso.phase = s.iso.phase
      ∧ (sampled up un s).iso.purpose = s.iso.purpose ∧ (sampled up un s).iso.restarts = s.iso.restarts
      ∧ (sampled up un s).iso.marked = s.iso.marked := by
  unfold sampled; (repeat' split) <;> simp

@[simp] theorem meterTick_within (p1 p2 p3 : Int) (s : State) :
    (meterTick p1 p2 p3 s).ses.plug = s.ses.plug ∧ (meterTick p1 p2 p3 s).ses.session = s.ses.session
      ∧ (meterTick p1 p2 p3 s).ses.tag = s.ses.tag ∧ (meterTick p1 p2 p3 s).ses.number = s.ses.number
      ∧ (meterTick p1 p2 p3 s).ses.prices = s.ses.prices ∧ (meterTick p1 p2 p3 s).ses.startTime = s.ses.startTime
      ∧ (meterTick p1 p2 p3 s).ses.holdWithdrawn = s.ses.holdWithdrawn
      ∧ (meterTick p1 p2 p3 s).ses.closeReason = s.ses.closeReason
      ∧ (meterTick p1 p2 p3 s).ses.endTime = s.ses.endTime ∧ (meterTick p1 p2 p3 s).ses.debA = s.ses.debA
      ∧ (meterTick p1 p2 p3 s).ses.debB = s.ses.debB ∧ (meterTick p1 p2 p3 s).ses.scopedReset = s.ses.scopedReset
      ∧ (meterTick p1 p2 p3 s).ses.defaultAccount = s.ses.defaultAccount
      ∧ (meterTick p1 p2 p3 s).ses.autoOpen = s.ses.autoOpen
      ∧ (meterTick p1 p2 p3 s).mtr.minPerVolt = s.mtr.minPerVolt ∧ (meterTick p1 p2 p3 s).mtr.worst = s.mtr.worst
      ∧ (meterTick p1 p2 p3 s).mtr.lockHeld = s.mtr.lockHeld ∧ (meterTick p1 p2 p3 s).mtr.lockTimer = s.mtr.lockTimer
      ∧ (meterTick p1 p2 p3 s).rst.waitFinal = s.rst.waitFinal
      ∧ (meterTick p1 p2 p3 s).rst.waitImage = s.rst.waitImage ∧ (meterTick p1 p2 p3 s).nv.slots = s.nv.slots
      ∧ (meterTick p1 p2 p3 s).nv.counter = s.nv.counter ∧ (meterTick p1 p2 p3 s).nv.image = s.nv.image := by
  simp [meterTick]

@[simp] theorem checkpointDone_within (s : State) :
    (checkpointDone s).nv.slots = s.nv.slots ∧ (checkpointDone s).nv.counter = s.nv.counter
      ∧ (checkpointDone s).nv.image = s.nv.image := by
  unfold checkpointDone; (repeat' split) <;> simp

@[simp] theorem finalDone_within (s : State) :
    (finalDone s).ses.plug = s.ses.plug ∧ (finalDone s).ses.startTime = s.ses.startTime
      ∧ (finalDone s).ses.timeUnknown = s.ses.timeUnknown ∧ (finalDone s).ses.bandHeld = s.ses.bandHeld
      ∧ (finalDone s).ses.holdWithdrawn = s.ses.holdWithdrawn ∧ (finalDone s).ses.closeReason = s.ses.closeReason
      ∧ (finalDone s).ses.endTime = s.ses.endTime ∧ (finalDone s).ses.debA = s.ses.debA
      ∧ (finalDone s).ses.debB = s.ses.debB ∧ (finalDone s).ses.scopedReset = s.ses.scopedReset
      ∧ (finalDone s).ses.defaultAccount = s.ses.defaultAccount ∧ (finalDone s).ses.autoOpen = s.ses.autoOpen
      ∧ (finalDone s).sup.pilot = s.sup.pilot ∧ (finalDone s).sup.iPil = s.sup.iPil
      ∧ (finalDone s).sup.nPh = s.sup.nPh ∧ (finalDone s).sup.uMin = s.sup.uMin
      ∧ (finalDone s).sup.supplyPresent = s.sup.supplyPresent ∧ (finalDone s).mtr.unassigned = s.mtr.unassigned
      ∧ (finalDone s).mtr.clock = s.mtr.clock ∧ (finalDone s).mtr.band = s.mtr.band
      ∧ (finalDone s).mtr.lockHeld = s.mtr.lockHeld ∧ (finalDone s).mtr.lockTimer = s.mtr.lockTimer
      ∧ (finalDone s).mtr.checkpointTimer = s.mtr.checkpointTimer := by
  unfold finalDone; dsimp only; (repeat' split) <;> simp

@[simp] theorem imageDone_within (s : State) :
    (imageDone s).nv.slots = s.nv.slots ∧ (imageDone s).nv.counter = s.nv.counter := by
  unfold imageDone; (repeat' split) <;> simp

end Sys2Proof.Machine
end

