-- ==== Sys2Proof/Laws/Zones.lean ====
section
/-! SUPPORT. Laws/Zones.lean: what each shared operation of the heater does to the zones (chapter 5): the zone it changes, and that
the check record and the energized set keep naming the zones they should (R75). -/

namespace Sys2Proof.Machine

/-- The zones after one zone's change of state. -/
theorem enter_zone (h : Htr) (z w : Fin 8) (st) : (h.enter z st).zones[w] = if z = w then
    { h.zones[w] with state := st } else h.zones[w] := by
  simp only [Htr.enter, Htr.setZone, Fin.getElem_fin, Vector.getElem_set]
  split <;> rename_i hh
  · have : z = w := Fin.ext hh
    subst this; simp
  · rw [if_neg]; intro h'; exact hh (by rw [h'])

/-- The zones after one zone was set. -/
theorem setZone_zone (h : Htr) (z w : Fin 8) (x) : (h.setZone z x).zones[w] = if z = w then x else h.zones[w] := by
  simp only [Htr.setZone, Fin.getElem_fin, Vector.getElem_set]
  split <;> rename_i hh
  · have : z = w := Fin.ext hh
    subst this; simp
  · rw [if_neg]; intro h'; exact hh (by rw [h'])

/-! ## What the check record and the energized set name (R75) -/

/-- The check record names the one CHECKING zone, and the energized set lists the ENERGIZED zones, each once. -/
def Htr.Sound (h : Htr) : Prop :=
  (∀ z : Fin 8, h.zones[z].state = .checking ↔ ∃ ck, h.check = some ck ∧ ck.zone = z)
    ∧ (∀ z : Fin 8, h.zones[z].state = .energized ↔ z ∈ h.energized) ∧ h.energized.Nodup

/-- No zone is ENERGIZED or CHECKING. -/
def Htr.Cold (h : Htr) : Prop := ∀ z : Fin 8, h.zones[z].state ≠ .energized ∧ h.zones[z].state ≠ .checking

theorem zonesSound_iff (s : State) : ZonesSound s ↔ s.htr.Sound := Iff.rfl

/-- A zone that was neither CHECKING nor ENERGIZED enters a state that is neither. -/
theorem sound_enter {h : Htr} {z st} (hs : Htr.Sound h) (h1 : h.zones[z].state ≠ .checking) (h2 :
    h.zones[z].state ≠ .energized) (h3 : st ≠ .checking) (h4 : st ≠ .energized) : Htr.Sound (h.enter z st) := by
  refine ⟨fun w => ?_, fun w => ?_, by simpa using hs.2.2⟩
  · rw [enter_zone]; split
    · rename_i e; subst e
      simp only [enter_within, h3, false_iff]
      rw [← hs.1]; exact h1
    · simpa using hs.1 w
  · rw [enter_zone]; split
    · rename_i e; subst e
      simp only [enter_within, h4, false_iff]
      rw [← hs.2.1]; exact h2
    · simpa using hs.2.1 w

/-- A zone of a cold heater enters a state that is neither CHECKING nor ENERGIZED. -/
theorem cold_enter {h : Htr} {z st} (hs : Htr.Cold h) (h3 : st ≠ .checking) (h4 : st ≠ .energized) : Htr.Cold
    (h.enter z st) := by
  intro w; rw [enter_zone]; split
  · exact ⟨h4, h3⟩
  · exact hs w

/-- The check of the zone the record names ends (R83, R84). -/
theorem sound_endCheck {h : Htr} {ck st} (hs : Htr.Sound h) (hc : h.check = some ck) (h3 : st ≠ .checking) (h4 :
    st ≠ .energized) : Htr.Sound (h.endCheck ck.zone st) := by
  have hck : h.zones[ck.zone].state = .checking := (hs.1 _).2 ⟨ck, hc, rfl⟩
  refine ⟨fun w => ?_, fun w => ?_, by simpa using hs.2.2⟩
  · have : (h.endCheck ck.zone st).zones = (h.enter ck.zone st).zones := rfl
    rw [this, enter_zone]
    have hcn : (h.endCheck ck.zone st).check = none := rfl
    rw [hcn]; simp
    split
    · exact h3
    · rename_i e
      intro h'
      obtain ⟨ck', h1, h2⟩ := (hs.1 w).1 h'
      rw [hc] at h1; cases h1; exact e h2
  · have : (h.endCheck ck.zone st).zones = (h.enter ck.zone st).zones := rfl
    rw [this, enter_zone]
    split
    · rename_i e; subst e
      simp only [endCheck_within, h4, false_iff]
      rw [← hs.2.1, hck]; simp
    · simpa using hs.2.1 w

/-- A check under way is aborted (R84). -/
theorem sound_abortCheck {h : Htr} {st} (hs : Htr.Sound h) (h3 : st ≠ .checking) (h4 : st ≠ .energized) :
    Htr.Sound (h.abortCheck st) := by
  unfold Htr.abortCheck; split
  · exact sound_endCheck hs ‹_› h3 h4
  · exact hs

/-- An ENERGIZED zone is de-energized (R91). -/
theorem sound_deenergize {h : Htr} {z st} (hs : Htr.Sound h) (he : h.zones[z].state = .energized) (h3 :
    st ≠ .checking) (h4 : st ≠ .energized) : Htr.Sound (h.deenergize z st) := by
  have hz : (h.deenergize z st).zones = (h.enter z st).zones := rfl
  have hen : (h.deenergize z st).energized = h.energized.filter (fun x => decide (x ≠ z)) := by simp [Htr.deenergize]
  refine ⟨fun w => ?_, fun w => ?_, ?_⟩
  · rw [hz, enter_zone, (deenergize_within h z st).2.2.2.2.1]
    split
    · rename_i e; subst e
      rw [← hs.1, he]; simp [h3]
    · exact hs.1 w
  · rw [hz, enter_zone, hen]
    split
    · rename_i e; subst e; simp [h4]
    · rename_i e; rw [hs.2.1]; simp; exact fun _ h' => e h'.symm
  · rw [hen]; exact hs.2.2.filter _

/-- A resting zone is neither CHECKING nor ENERGIZED (R91). -/
theorem restingState_ne (d) : restingState d ≠ .checking ∧ restingState d ≠ .energized := by
  unfold restingState; split <;> simp

/-- After a forced de-energization no zone is ENERGIZED or CHECKING (R94). -/
theorem allOff_sound_cold {h : Htr} (hs : Htr.Sound h) : Htr.Sound h.allOff ∧ Htr.Cold h.allOff := by
  have h1 : Htr.Sound (h.abortCheck .unchecked) := sound_abortCheck hs (by simp) (by simp)
  have hz : ∀ w : Fin 8, h.allOff.zones[w] = (
      let x := (h.abortCheck .unchecked).zones[w]
      if x.state = .energized then { x with state := restingState h.mode.dwell } else x) := by
    intro w; simp [Htr.allOff]
  have hck : ∀ w : Fin 8, (h.abortCheck .unchecked).zones[w].state ≠ .checking := by
    intro w hw
    obtain ⟨ck, hc, _⟩ := (h1.1 w).1 hw
    simp at hc
  have hc : Htr.Cold h.allOff := by
    intro w; rw [hz]; dsimp only; split
    · exact ⟨(restingState_ne _).2, (restingState_ne _).1⟩
    · rename_i he; exact ⟨he, hck w⟩
  refine ⟨⟨fun w => ?_, fun w => ?_, by simp⟩, hc⟩
  · have := (hc w).2; simp; simpa using this
  · have := (hc w).1; simp; simpa using this

/-- Soundness reads the zones, the energized set and the zone of the check record alone. -/
theorem sound_congr {g h : Htr} (hs : Htr.Sound h) (hz : g.zones = h.zones) (he : g.energized = h.energized) (hc :
    (g.check.map (·.zone)) = h.check.map (·.zone)) : Htr.Sound g := by
  refine ⟨fun z => ?_, fun z => ?_, he ▸ hs.2.2⟩
  · rw [hz, hs.1]
    constructor
    · rintro ⟨ck, h1, h2⟩
      have := hc
      rw [h1] at this
      simp [h2] at this
      obtain ⟨a, ha, hb⟩ := this
      exact ⟨a, ha, hb⟩
    · rintro ⟨ck, h1, h2⟩
      have := hc
      rw [h1] at this
      simp [h2] at this
      obtain ⟨a, ha, hb⟩ := this
      exact ⟨a, ha, hb⟩
  · rw [hz, he]; exact hs.2.1 z

/-- A zone is set without a change of its state. -/
theorem sound_setZone {h : Htr} {z x} (hs : Htr.Sound h) (hx : x.state = h.zones[z].state) : Htr.Sound
    (h.setZone z x) := by
  have : ∀ w : Fin 8, (h.setZone z x).zones[w].state = h.zones[w].state := by
    intro w; rw [setZone_zone]; split
    · rename_i e; subst e; exact hx
    · rfl
  exact ⟨fun w => by rw [this]; simpa using hs.1 w, fun w => by rw [this]; simpa using hs.2.1 w, by simpa using hs.2.2⟩

/-- Soundness reads the states of the zones alone. -/
theorem sound_states {g h : Htr} (hs : Htr.Sound h) (hz : ∀ z : Fin 8, g.zones[z].state = h.zones[z].state) (he :
    g.energized = h.energized) (hc : g.check.map (·.zone) = h.check.map (·.zone)) : Htr.Sound g := by
  have e : ∀ z : Fin 8, (∃ ck, g.check = some ck ∧ ck.zone = z) ↔ (∃ ck, h.check = some ck ∧ ck.zone = z) := by
    intro z
    cases h1 : g.check <;> cases h2 : h.check <;> rw [h1, h2] at hc <;> simp at hc ⊢
    rw [hc]
  exact ⟨fun z => by rw [hz, e]; exact hs.1 z, fun z => by rw [hz, he]; exact hs.2.1 z, he ▸ hs.2.2⟩

/-! ## What follows every change of the heater -/

/-- A waiting pulse that begins leaves the zone of the check record (R82). -/
theorem startWaitingPulse_check (h : Htr) : h.startWaitingPulse.check.map (·.zone) = h.check.map (·.zone) := by
  unfold Htr.startWaitingPulse; cases h.check <;> simp; split <;> rfl

/-- The release of the window leaves the zone of the check record (R74, R82). -/
theorem releaseWindow_check (s : State) : (releaseWindow s).htr.check.map (·.zone) = s.htr.check.map (·.zone) := startWaitingPulse_check _

/-- A discarded measurement leaves the zone of the check record (R108). -/
theorem discardMeasurement_check (s : State) : (discardMeasurement s).htr.check.map (·.zone) = s.htr.check.map
    (·.zone) := by
  unfold discardMeasurement; rw [releaseWindow_check]; simp

/-- The switch report leaves the zone of the check record (R109). -/
theorem switchChange_check (s : State) : (switchChange s).htr.check.map (·.zone) = s.htr.check.map (·.zone) := by
  unfold switchChange; (repeat' split)
  · simp
  · exact discardMeasurement_check s
  · rfl

/-- What follows a change of the heater leaves the zone of the check record. -/
theorem heaterChanged_check (b) (s : State) : (heaterChanged b s).htr.check.map (·.zone) = s.htr.check.map (·.zone) := by
  unfold heaterChanged reportSwitches; split
  · simp
  · simp [switchChange_check]

/-- What follows a change of the heater leaves every zone. -/
theorem heaterChanged_zone (b) (s : State) (z) : (heaterChanged b s).zone z = s.zone z := by simp [State.zone]

/-- With no measurement in flight, a change of the heater reaches neither the monitor nor the allocator (R109). -/
theorem heaterChanged_quiet (b : Htr) (s : State) (h : s.iso.phase.inFlight = false) : (heaterChanged b s).iso
    = s.iso ∧ (heaterChanged b s).alc = s.alc := by
  unfold heaterChanged reportSwitches
  split
  · simp
  · unfold switchChange; rw [if_neg (by simp [h])]; simp

/-! ## Conversions and probes (R77, R78, R93, R96) -/

/-- A zone's conversion leaves every other zone. -/
theorem convertZone_other (s : State) (z w : Fin 8) (r) (h : z ≠ w) : (convertZone s z r).zones[w] = s.htr.zones[w] := by
  unfold convertZone; dsimp only
  have e : (s.htr.setZone z (convertedZone s z (convertReading r))).zones[w] = s.htr.zones[w] := by rw [setZone_zone, if_neg h]
  (repeat' split)
  · show (Htr.enter _ z _).zones[w] = _; rw [enter_zone, if_neg h, e]
  · show (Htr.enter _ z _).zones[w] = _; rw [enter_zone, if_neg h, e]
  · show (Htr.enter _ z _).zones[w] = _; rw [enter_zone, if_neg h, e]
  · exact e

/-- A zone's conversion: its temperature, its want flag, and the state of R93. -/
theorem convertZone_self (s : State) (z : Fin 8) (r) :
    (convertZone s z r).zones[z] = { convertedZone s z (convertReading r) with
      state := if overLimit s z (convertReading r) then .faulted .overtemp
        else if (convertReading r).isNone && (s.zone z).state == .energized then restingState s.htr.mode.dwell
        else (s.zone z).state } := by
  unfold convertZone; dsimp only
  have e : (s.htr.setZone z (convertedZone s z (convertReading r))).zones[z] =
      convertedZone s z (convertReading r) := by rw [setZone_zone, if_pos rfl]
  have em : (s.htr.setZone z (convertedZone s z (convertReading r))).mode = s.htr.mode := rfl
  (repeat' split)
  · show (Htr.enter _ z _).zones[z] = _; rw [enter_zone, if_pos rfl, e]
  · show (Htr.enter _ z _).zones[z] = _; rw [enter_zone, if_pos rfl, e]
  · show (Htr.enter _ z _).zones[z] = _; rw [enter_zone, if_pos rfl, e]; rfl
  · rw [e]; rfl

/-- The zones after the end of one zone's probe (R96). -/
theorem leaveProbe_zone (h : Htr) (z w : Fin 8) (l : Bool) : (h.leaveProbe z l).zones[w]
    = match h.zones[z].state with | .probed b => if z = w then { h.zones[w] with state := if l then .faulted .leak
    else b.back } else h.zones[w] | _ => h.zones[w] := by
  unfold Htr.leaveProbe; split
  · rename_i b hb; rw [enter_zone, hb]
  · rename_i hn
    first
    | rfl
    | split
      · rename_i b hb; exact absurd hb (hn b)
      · rfl

/-! ## Applying a grant record (R80, R91, R92) -/

/-- The ratings in use are taken without a change of state (R80). -/
theorem takeRatings_state (s zs h) (z : Fin 8) : (takeRatings s zs h).zones[z].state = h.zones[z].state := by
  simp [takeRatings]

/-- De-energizing ENERGIZED zones one after another keeps the heater sound. -/
theorem shed_sound (l : List (Fin 8)) : ∀ h : Htr, Htr.Sound h → (∀ z ∈ l, z ∈ h.energized) → l.Nodup → Htr.Sound
    (l.foldl (fun g z => g.deenergize z (restingState g.mode.dwell)) h) := by
  induction l with
  | nil => exact fun h hs _ _ => hs
  | cons z l ih =>
    intro h hs hl hn
    apply ih
    · exact sound_deenergize hs ((hs.2.1 z).2 (hl z (by simp))) (restingState_ne _).1 (restingState_ne _).2
    · intro w hw
      simp [Htr.deenergize]
      exact ⟨hl w (by simp [hw]), fun e => by subst e; simp at hn; exact hn.1 hw⟩
    · simp at hn; exact hn.2

/-- The zones after some were de-energized one after another (R91). -/
theorem shed_zone (l : List (Fin 8)) : ∀ h : Htr, l.Nodup → ∀ z : Fin 8,
    (l.foldl (fun g z => g.deenergize z (restingState g.mode.dwell)) h).zones[z] = if z ∈ l then
    { h.zones[z] with state := restingState h.mode.dwell } else h.zones[z] := by
  intro h; induction l generalizing h with
  | nil => intro _ z; simp
  | cons w l ih =>
    intro hn z
    simp only [List.nodup_cons] at hn
    simp only [List.foldl]
    rw [ih _ hn.2]
    have hm : (h.deenergize w (restingState h.mode.dwell)).mode = h.mode := rfl
    rw [hm]
    have he : (h.deenergize w (restingState h.mode.dwell)).zones[z] =
        if w = z then { h.zones[z] with state := restingState h.mode.dwell } else h.zones[z] := enter_zone h w z _
    rw [he]
    by_cases e : w = z
    · subst e; rw [if_neg hn.1, if_pos rfl, if_pos (by simp)]
    · rw [if_neg e]; have : (z ∈ w :: l) ↔ z ∈ l := by simp [Ne.symm e]
      simp only [this]

/-- Step 2 keeps the heater sound (R91). -/
theorem sound_shedOutside (zs) {h : Htr} (hs : Htr.Sound h) : Htr.Sound (shedOutside zs h) := by
  unfold shedOutside; dsimp only
  have := shed_sound (h.energized.filter fun z => !inSet zs z) h hs (by simp; tauto) (hs.2.2.filter _)
  generalize List.foldl _ _ _ = t at this
  split
  · split
    · exact this
    · exact sound_endCheck this ‹_› nofun nofun
  · exact this

/-- The zones after one zone of the set was offered (R91). -/
theorem energizeZone_zone (z w : Fin 8) (h : Htr) : (energizeZone z h).zones[w] = if z = w ∧ h.zones[w].state
    = .off ∧ h.zones[w].temp.isSome = true then { h.zones[w] with state := .energized } else h.zones[w] := by
  have hE : energizeZone z h =
      if h.zones[z].state = .off ∧ h.zones[z].temp.isSome = true then
        { h.enter z .energized with energized := h.energized ++ [z] } else h := by
    unfold energizeZone; simp only [Bool.and_eq_true, beq_iff_eq]
  rw [hE]
  by_cases hc : h.zones[z].state = .off ∧ h.zones[z].temp.isSome = true
  · rw [if_pos hc]
    show (h.enter z .energized).zones[w] = _
    rw [enter_zone]
    by_cases e : z = w
    · subst e; rw [if_pos rfl, if_pos ⟨rfl, hc⟩]
    · rw [if_neg e, if_neg (by tauto)]
  · rw [if_neg hc, if_neg]
    rintro ⟨e, h'⟩; subst e; exact hc h'

/-- The zones after every zone of the set was offered (R91). -/
theorem energize_zone (l : List (Fin 8 × Nat)) : ∀ h : Htr, ∀ w : Fin 8,
    (l.foldl (fun h x => energizeZone x.1 h) h).zones[w] = if inSet l w = true ∧ h.zones[w].state = .off
    ∧ h.zones[w].temp.isSome = true then { h.zones[w] with state := .energized } else h.zones[w] := by
  induction l with
  | nil => intro h w; simp [inSet]
  | cons x l ih =>
    intro h w
    simp only [List.foldl]
    rw [ih]
    have hi : inSet (x :: l) w = true ↔ x.1 = w ∨ inSet l w = true := by simp [inSet]
    have he := energizeZone_zone x.1 w h
    by_cases b : x.1 = w ∧ h.zones[w].state = .off ∧ h.zones[w].temp.isSome = true
    · rw [if_pos b] at he
      have e1 : (energizeZone x.1 h).zones[w].state = .energized := by rw [he]
      rw [if_neg (by rw [e1]; simp), he, if_pos ⟨hi.2 (.inl b.1), b.2⟩]
    · rw [if_neg b] at he
      rw [he]
      by_cases c : inSet l w = true ∧ h.zones[w].state = .off ∧ h.zones[w].temp.isSome = true
      · rw [if_pos c, if_pos ⟨hi.2 (.inr c.1), c.2⟩]
      · rw [if_neg c, if_neg]
        rintro ⟨d, e⟩
        rcases hi.1 d with d | d
        · exact b ⟨d, e⟩
        · exact c ⟨d, e⟩

/-- Step 3 leaves the check record, the mode and the turn (R91). -/
theorem energize_same (l : List (Fin 8 × Nat)) : ∀ h : Htr, (l.foldl (fun h x => energizeZone x.1 h) h).check
    = h.check ∧ (l.foldl (fun h x => energizeZone x.1 h) h).mode = h.mode ∧
    (l.foldl (fun h x => energizeZone x.1 h) h).p = h.p ∧ (l.foldl (fun h x => energizeZone x.1 h) h).s = h.s ∧
    (l.foldl (fun h x => energizeZone x.1 h) h).pendingMode = h.pendingMode := by
  induction l with
  | nil => intro h; simp
  | cons x l ih =>
    intro h; simp only [List.foldl]; obtain ⟨a, b, c, d, e⟩ := ih (energizeZone x.1 h)
    have : (energizeZone x.1 h).check = h.check ∧ (energizeZone x.1 h).mode = h.mode
        ∧ (energizeZone x.1 h).p = h.p ∧ (energizeZone x.1 h).s = h.s ∧ (energizeZone x.1 h).pendingMode = h.pendingMode := by
      unfold energizeZone; split <;> exact ⟨rfl, rfl, rfl, rfl, rfl⟩
    exact ⟨a.trans this.1, b.trans this.2.1, c.trans this.2.2.1, d.trans this.2.2.2.1, e.trans this.2.2.2.2⟩

/-- One zone of the set is energized (R91). -/
theorem sound_energizeZone (z) {h : Htr} (hs : Htr.Sound h) : Htr.Sound (energizeZone z h) := by
  unfold energizeZone; split
  · rename_i hc; simp at hc
    have hne : z ∉ h.energized := by rw [← hs.2.1]; rw [show h.zones[z].state = ZoneState.off from hc.1]; nofun
    refine ⟨fun w => ?_, fun w => ?_, ?_⟩
    · show (h.enter z .energized).zones[w].state = _ ↔ _
      rw [enter_zone]; split
      · rename_i e; subst e
        have : ¬ ∃ ck, h.check = some ck ∧ ck.zone = z := by
          rw [← hs.1]; rw [show h.zones[z].state = ZoneState.off from hc.1]; nofun
        constructor
        · nofun
        · exact fun h' => absurd h' this
      · exact hs.1 w
    · show (h.enter z .energized).zones[w].state = _ ↔ w ∈ h.energized ++ [z]
      rw [enter_zone]; split
      · rename_i e; subst e; simp
      · rename_i e; rw [hs.2.1]; simp; exact fun h' => absurd h'.symm e
    · show (h.energized ++ [z]).Nodup
      rw [List.nodup_append]; refine ⟨hs.2.2, by simp, ?_⟩
      intro a ha b hb; simp at hb; subst hb; intro e; subst e; exact hne ha
  · exact hs

/-- Step 3 keeps the heater sound (R91). -/
theorem sound_energize (l : List (Fin 8 × Nat)) : ∀ h : Htr, Htr.Sound h → Htr.Sound
    (l.foldl (fun h x => energizeZone x.1 h) h) := by
  induction l with
  | nil => exact fun h hs => hs
  | cons x l ih => exact fun h hs => ih _ (sound_energizeZone x.1 hs)

/-- The zones after step 3: a boundary record energizes the zones of the set that are OFF with a valid temperature, and any other
record none (R73, R90, R91). -/
theorem energizeSet_zone (r : GrantRecord) (zs : List (Fin 8 × Nat)) (h : Htr) (w : Fin 8) :
    (energizeSet r zs h).zones[w] = if r.boundary = true ∧ inSet zs w = true ∧ h.zones[w].state = .off
      ∧ h.zones[w].temp.isSome = true then { h.zones[w] with state := .energized } else h.zones[w] := by
  unfold energizeSet; split
  · rename_i hb; rw [energize_zone]; simp [hb]
  · rename_i hb; exact (if_neg fun h' => hb h'.1).symm

/-- Step 3 leaves the check record, the mode and the turn (R91). -/
theorem energizeSet_same (r : GrantRecord) (zs : List (Fin 8 × Nat)) (h : Htr) : (energizeSet r zs h).check = h.check
    ∧ (energizeSet r zs h).mode = h.mode ∧ (energizeSet r zs h).p = h.p ∧ (energizeSet r zs h).s = h.s
    ∧ (energizeSet r zs h).pendingMode = h.pendingMode := by
  unfold energizeSet; split
  · exact energize_same zs h
  · exact ⟨rfl, rfl, rfl, rfl, rfl⟩

/-- Step 3 of a record keeps the heater sound (R91). -/
theorem sound_energizeSet (r : GrantRecord) (zs : List (Fin 8 × Nat)) {h : Htr} (hs : Htr.Sound h) :
    Htr.Sound (energizeSet r zs h) := by
  unfold energizeSet; split
  · exact sound_energize zs h hs
  · exact hs

/-- The start of a check keeps the heater sound (R82, R91). -/
theorem sound_startCheck (zs u) {h : Htr} (hs : Htr.Sound h) : Htr.Sound (startCheck zs u h) := by
  unfold startCheck; split
  · rename_i z hz
    split
    · rename_i hc; simp at hc
      have hst : h.zones[z].state = .unchecked := by
        unfold candidateOf at hz
        have := List.find?_some hz
        simp at this; exact this.2
      unfold Htr.beginCheck; split
      · exact sound_congr hs rfl rfl rfl
      · refine ⟨fun w => ?_, fun w => ?_, hs.2.2⟩
        · show (h.enter z .checking).zones[w].state = _ ↔ _
          rw [enter_zone]; split
          · rename_i e; subst e; simp
          · rename_i e
            rw [hs.1]; simp [hc.1.2]; exact e
        · show (h.enter z .checking).zones[w].state = _ ↔ _
          rw [enter_zone]; split
          · rename_i e; subst e; simp; show z ∉ h.energized; rw [← hs.2.1, hst]; nofun
          · exact hs.2.1 w
    · exact hs
  · exact hs

/-- A counted-down dwell is no check (R92). -/
theorem countDown_checking (b n : Zone) : (countDown b n).state = .checking ↔ n.state = .checking := by
  unfold countDown; split
  · rename_i h; split <;> simp [h]
  · rfl

/-- A counted-down dwell energizes nothing (R92). -/
theorem countDown_energized (b n : Zone) : (countDown b n).state = .energized ↔ n.state = .energized := by
  unfold countDown; split
  · rename_i h; split <;> simp [h]
  · rfl

/-- The steps of a boundary keep the heater sound (R91). -/
theorem sound_boundarySteps (b r) {h : Htr} (hs : Htr.Sound h) : Htr.Sound (boundarySteps b r h) := by
  unfold boundarySteps; split
  · have h1 : Htr.Sound { h with zones := Vector.ofFn fun z => countDown b.zones[z] h.zones[z] } := by
      refine ⟨fun w => ?_, fun w => ?_, hs.2.2⟩
      · simp only [Fin.getElem_fin, Vector.getElem_ofFn]; rw [countDown_checking]; exact hs.1 w
      · simp only [Fin.getElem_fin, Vector.getElem_ofFn]; rw [countDown_energized]; exact hs.2.1 w
    dsimp only
    unfold adoptTurn
    (repeat' split) <;> exact sound_congr h1 rfl rfl rfl
  · exact hs

/-- A grant record applied keeps the heater sound (R75, R91). -/
theorem sound_appliedHeater (s r) (hs : Htr.Sound s.htr) : Htr.Sound (appliedHeater s r) := by
  unfold appliedHeater; dsimp only
  have h1 := sound_states (g := takeRatings s (appliedSet s r) s.htr) hs (takeRatings_state _ _ _) rfl rfl
  have h2 := sound_energizeSet r (appliedSet s r) (sound_shedOutside (appliedSet s r) h1)
  exact sound_congr (sound_boundarySteps s.htr r (sound_startCheck (appliedSet s r) s.iso.uBus h2)) rfl rfl rfl

end Sys2Proof.Machine
end

