-- ==== Sys2Proof/Laws/Effects.lean ====
section
/-! SUPPORT. Laws/Effects.lean: what each shared operation outside the heater does, one lemma per operation: the values it leaves in the
fields that it does touch. -/

namespace Sys2Proof.Machine

/-! ## The plan (R2) -/

/-- A clamped word holds its value clamped. -/
theorem clampWord_toNat (lo hi : Nat) (w : Word) (hl : lo ≤ hi) (h : hi < 65536) : (clampWord lo hi w).toNat
    = max lo (min hi w.toNat) := by
  simp [clampWord, word, clampTo]; omega

/-- A clamped word clamps to itself. -/
theorem clampWord_idem (lo hi : Nat) (w : Word) (hl : lo ≤ hi) (h : hi < 65536) : clampWord lo hi
    (clampWord lo hi w) = clampWord lo hi w := by
  apply BitVec.eq_of_toNat_eq
  rw [clampWord_toNat _ _ _ hl h, clampWord_toNat _ _ _ hl h]; omega

/-- A clamped target clamps to itself. -/
theorem clampTarget_idem (w : Word) : clampTarget (clampTarget w) = clampTarget w := by
  unfold clampTarget
  congr 1
  have : (BitVec.ofInt 16 (max (-200) (min 450 w.toInt))).toInt = max (-200) (min 450 w.toInt) := by
    rw [BitVec.toInt_ofInt]
    simp [Int.bmod]; omega
  rw [this]; omega

/-- The mode word of four field values. -/
def modeWordOf (l b : Fin 4) (c : Fin 8) (d : Fin 4) : Word :=
  fieldAt (2 ^ l.val) 0 ||| BitVec.ofNat 16 (16 * b.val) ||| fieldAt c.val 8 ||| fieldAt d.val 12

/-- The clamped mode word over all of its fields. -/
theorem clampMode_cases : ∀ (l b : Fin 4) (c : Fin 8) (d : Fin 4),
    (clampMode (modeWordOf l b c d &&& 0x7F3F) == modeWordOf l b c d && modeWordOf l b c d &&& 0x7F3F == modeWordOf l b c d) = true := by
  decide +kernel

/-- The order and sweep bits of a mode word. -/
theorem orderBits (n : Nat) : n &&& 48 = 16 * (n / 16 % 4) := by
  apply Nat.eq_of_testBit_eq; intro i
  rw [show (48 : Nat) = 2 ^ 4 * (2 ^ 2 - 1) by rfl, show 16 * (n / 16 % 4) = 2 ^ 4 * (n / 2 ^ 4 % 2 ^ 2) by rfl,
    Nat.testBit_and, Nat.testBit_two_pow_mul, Nat.testBit_two_pow_mul, Nat.testBit_two_pow_sub_one,
    Nat.testBit_mod_two_pow, Nat.testBit_div_two_pow]
  by_cases h : 4 ≤ i
  · simp [h, Nat.sub_add_cancel h, Bool.and_comm]
  · simp [h]

/-- A clamped mode word clamps to itself. -/
theorem clampMode_idem (w : Word) : clampMode (clampMode w &&& 0x7F3F) = clampMode w ∧ clampMode w &&& 0x7F3F
    = clampMode w := by
  obtain ⟨l, hl⟩ : ∃ l : Fin 4, (burstOf (field w 0 4)).len = 2 ^ l.val := by
    cases burstOf (field w 0 4)
    exacts [⟨0, rfl⟩, ⟨1, rfl⟩, ⟨2, rfl⟩, ⟨3, rfl⟩]
  obtain ⟨b, hb⟩ : ∃ b : Fin 4, w &&& 0x0030 = BitVec.ofNat 16 (16 * b.val) := by
    refine ⟨⟨w.toNat / 16 % 4, Nat.mod_lt _ (by decide)⟩, BitVec.eq_of_toNat_eq ?_⟩
    rw [BitVec.toNat_and, BitVec.toNat_ofNat]
    show w.toNat &&& 48 = _
    rw [orderBits]; dsimp only; omega
  have := clampMode_cases l b ⟨field w 8 4 % 8, Nat.mod_lt _ (by decide)⟩ ⟨min 3 (field w 12 3), by omega⟩
  simp only [modeWordOf, ← hl, ← hb] at this
  simpa [clampMode] using this

/-- Bits kept twice are kept once. -/
theorem and_idem (a b : Word) : a &&& b &&& b = a &&& b := by
  ext i; simp

/-- The field-range step leaves an entry whose fields lie in the ranges of its class (R2). -/
theorem rangeStep_inRange (phw : Nat) (n : Fin 53) (e : Entry) (h : phw < 65536) : inRange phw n
    (rangeStep phw n e) = true := by
  simp only [inRange, beq_iff_eq, rangeStep]
  generalize classOf n = c
  cases c
  case policy => simp only [clampFields, dropUnused]; congr 1 <;> apply clampWord_idem <;> omega
  case supply => simp only [clampFields, dropUnused]; congr 1 <;> apply clampWord_idem <;> omega
  case vehicle =>
    simp only [clampFields, dropUnused]; congr 1
    · apply clampWord_idem <;> omega
    · apply and_idem
  case acceptance => simp only [clampFields, dropUnused]; congr 1; apply clampWord_idem <;> omega; apply clampWord_idem <;> omega; apply and_idem
  case packHeating => simp only [clampFields, dropUnused]; congr 1 <;> apply clampWord_idem <;> omega
  case isolation => 
    simp only [clampFields, dropUnused]
    have h1 : (word (clampTo 100 5000 e.w0.toNat)).toNat = clampTo 100 5000 e.w0.toNat := by simp [word, clampTo]
    have h2 : clampTo 100 5000 (clampTo 100 5000 e.w0.toNat) = clampTo 100 5000 e.w0.toNat := by simp only [clampTo]; omega
    rw [h1, h2]
    congr 1
    · apply clampWord_idem <;> simp only [clampTo] <;> omega
    · apply clampWord_idem <;> omega
  case heatingMode => 
    simp only [clampFields, dropUnused]; congr 1
    · rw [(clampMode_idem _).1]
    · apply and_idem
  case zone => 
    simp only [clampFields, dropUnused]; congr 1
    · exact clampTarget_idem _
    · apply clampWord_idem <;> omega
    · apply clampWord_idem <;> omega
  case schedule => 
    simp only [clampFields, dropUnused]; congr 1
    · apply clampWord_idem <;> omega
    · apply clampWord_idem <;> omega
    · apply and_idem
  case price => rfl

/-! ## The demand line (R27 to R29) -/

/-- The three conditions of R27. -/
theorem permission_iff (s : State) : permission s = true ↔ s.ses.session = .opened ∧ (s.iso.grade
    = .good ∨ s.iso.grade = .warning) ∧ s.iso.lockout = false := by
  simp [permission, insulationOk]
  cases s.iso.grade <;> simp [Grade.isProven]

/-- A zone that is in no FAULTED state. -/
theorem isFaulted_iff (z : ZoneState) : z.isFaulted = false ↔ ∀ k, z ≠ .faulted k := by cases z <;> simp [ZoneState.isFaulted]

/-- Some zone demands heat (R79). -/
theorem heatDemand_iff (s : State) : heatDemand s = true ↔ ∃ z : Fin 8, inMask s z = true ∧ 0 < (s.zone z).rating
    ∧ (s.zone z).temp.isSome = true ∧ (s.zone z).want = true ∧ ∀ k, (s.zone z).state ≠ .faulted k := by
  have hz : ∀ z : Fin 8, z ∈ zoneIds := by decide
  unfold heatDemand demandsHeat
  simp only [List.any_eq_true, Bool.and_eq_true, decide_eq_true_eq, Bool.not_eq_true', isFaulted_iff]
  constructor
  · rintro ⟨z, _, h⟩; exact ⟨z, h.1.1.1.1, h.1.1.1.2, h.1.1.2, h.1.2, h.2⟩
  · rintro ⟨z, h1, h2, h3, h4, h5⟩; exact ⟨z, hz z, ⟨⟨⟨⟨h1, h2⟩, h3⟩, h4⟩, h5⟩⟩

/-- The van wants power (R28). -/
theorem wantsPower_iff (s : State) : wantsPower s = true ↔ chargeEnable s = true ∨ 0 < auxRequest s ∨ ∃ z : Fin 8,
    inMask s z = true ∧ 0 < (s.zone z).rating ∧ (s.zone z).temp.isSome = true ∧ (s.zone z).want = true ∧ ∀ k,
    (s.zone z).state ≠ .faulted k := by
  rw [← heatDemand_iff]; simp [wantsPower, or_assoc]

/-- With the plug out the line is IDLE (R27). -/
theorem evalDemand_unplugged (s : State) (hp : s.ses.plug ≠ .plugged) : evalDemand s = s.setSup
    { s.sup with demand := .idle, withdrawal := .none } := by
  unfold evalDemand demandLine; simp [hp]

/-- With the grade UNKNOWN or FAULT the line is not READY (R27). -/
theorem evalDemand_not_ready (s : State) (h : s.iso.grade.isProven = false) : (evalDemand s).sup.demand ≠ .ready := by
  unfold evalDemand demandLine permission insulationOk; simp [h]
  split <;> simp

/-- An evaluation leaves the line safe (R27). -/
theorem evalDemand_demandSafe (s : State) : DemandSafe (evalDemand s) := by
  intro h
  simp only [evalDemand, State.setSup_sup] at h
  have : permission s = true := by
    unfold demandLine at h
    split at h; · cases h
    split at h; · cases h
    split at h; · cases h
    rename_i h1; simpa using h1
  simp [permission, insulationOk] at this
  simpa using this

/-- The first record after the demand ended (R29). -/
theorem watchRecord_waiting (s : State) (h : s.sup.withdrawal ≠ .none) (h2 : (evalDemand s).sup.withdrawal
    = .waiting) : watchRecord s = if s.alc.record.mode = .off then (evalDemand s).setSup {
    (evalDemand s).sup with withdrawal := .marked } else evalDemand s := by
  unfold watchRecord; rw [if_neg h]; dsimp only; split <;> simp_all

/-- The record after the marked one (R29). -/
theorem watchRecord_marked (s : State) (h : s.sup.withdrawal ≠ .none) (h2 : (evalDemand s).sup.withdrawal
    = .marked) : watchRecord s = (evalDemand s).setSup
    { (evalDemand s).sup with demand := .present, withdrawal := .none } := by
  unfold watchRecord; rw [if_neg h]; dsimp only; split <;> simp_all

/-- Demand that returned, or never left (R29). -/
theorem watchRecord_none (s : State) (h : s.sup.withdrawal ≠ .none) (h2 : (evalDemand s).sup.withdrawal = .none) :
    watchRecord s = evalDemand s := by
  unfold watchRecord; rw [if_neg h]; dsimp only; split <;> simp_all

/-! ## The holds (R65 to R67, R102) -/

/-- The hold ends because the grade left GOOD and WARNING (R67). -/
theorem endHoldByGrade_spec (s : State) : (endHoldByGrade s).alc.hold = .none ∧ (s.alc.hold ≠ .none
    → ToldAll .holdChange s (endHoldByGrade s)) ∧ (endHoldByGrade s).ses = (if s.alc.hold ≠ .none ∧ s.ses.session = .opened
      then { s.ses with holdWithdrawn := true } else s.ses) ∧ Grows s (endHoldByGrade s)
    ∧ (endHoldByGrade s).iso = s.iso ∧ (endHoldByGrade s).htr = s.htr ∧ (endHoldByGrade s).mtr = s.mtr ∧
    (endHoldByGrade s).rst = s.rst := by
  refine ⟨?_, ?_, ?_, endHoldByGrade_grows s, by simp, by simp, by simp, by simp⟩
  · unfold endHoldByGrade markHoldWithdrawn; (repeat' split) <;> simp_all [dropHold]
  · intro h; unfold endHoldByGrade markHoldWithdrawn; simp [h]
    have := (raise_toldAll .holdChange (dropHold s)).after (s := s) (.of_eq (by simp [dropHold]))
    split
    · exact this.grow (.of_eq (by simp))
    · exact this
  · unfold endHoldByGrade markHoldWithdrawn
    by_cases h : s.alc.hold = .none
    · simp [h]
    · by_cases h2 : s.ses.session = .opened <;> simp [h, h2, dropHold]

/-- The overdue condition suspends a HELD hold (R65). -/
theorem suspendHold_spec (s : State) : suspendHold s =
    { s with
      alc := (suspendHold s).alc, ses := (suspendHold s).ses, portV := (suspendHold s).portV, portP := (suspendHold s).portP,
      portF := (suspendHold s).portF } ∧ (suspendHold s).alc = (if s.alc.hold = .held then { s.alc with hold := .suspended }
    else s.alc) ∧ (suspendHold s).ses = (if s.alc.hold = .held ∧ s.ses.session = .opened
      then { s.ses with holdWithdrawn := true } else s.ses) ∧ (s.alc.hold = .held → ToldAll .holdChange s (suspendHold s))
    ∧ (s.alc.hold ≠ .held → suspendHold s = s) := by
  unfold suspendHold
  by_cases h : s.alc.hold = .held
  · simp only [if_pos h]
    unfold markHoldWithdrawn
    refine ⟨?_, ?_, ?_, ?_, fun h' => absurd h h'⟩
    · split <;> rfl
    · split <;> simp
    · simp; by_cases h2 : s.ses.session = .opened <;> simp [h, h2]
    · intro _
      have := (raise_toldAll .holdChange (s.setAlc { s.alc with hold := .suspended })).after (s := s) (.of_eq (by simp))
      split
      · exact this.grow (.of_eq (by simp))
      · exact this
  · simp [h]

/-- The overdue condition re-tested (R102). -/
theorem testOverdue_spec (s : State) : (testOverdue s).iso =
    { s.iso with overdue := decide (overdueLimit s.iso ≤ s.iso.age) } ∧ (testOverdue s).alc.record = s.alc.record
    ∧ (testOverdue s).alc.window = s.alc.window := by
  have := suspendHold_spec (s.setIso { s.iso with overdue := decide (overdueLimit s.iso ≤ s.iso.age) })
  unfold testOverdue; dsimp only; split
  · refine ⟨?_, ?_, ?_⟩
    · rw [this.1]; rfl
    · rw [this.2.1]; split <;> rfl
    · rw [this.2.1]; split <;> rfl
  · exact ⟨rfl, rfl, rfl⟩

/-- A completed measurement (R66, R102, R111). -/
theorem completeMeasurement_spec (s : State) (h5 : 5 ≤ s.iso.period) : (completeMeasurement s).iso =
    { s.iso with age := 0, overdue := false } ∧ (completeMeasurement s).mtr = s.mtr ∧
    ((completeMeasurement s).alc.hold = if s.alc.hold = .suspended then .held else s.alc.hold) := by
  have e : testOverdue (s.setIso { s.iso with age := 0 }) = s.setIso { s.iso with age := 0, overdue := false } := by
    unfold testOverdue overdueLimit
    have : decide (3 * s.iso.period * 100 ≤ 0) = false := by simp; omega
    show (if decide (3 * s.iso.period * 100 ≤ 0) && !s.iso.overdue then suspendHold (s.setIso { s.iso with age := 0, overdue := decide (3 * s.iso.period * 100 ≤ 0) }) else s.setIso { s.iso with age := 0, overdue := decide (3 * s.iso.period * 100 ≤ 0) }) = _
    rw [this]; rfl
  unfold completeMeasurement; rw [e]; unfold restoreHold; split
  · rename_i h; have h' : s.alc.hold = .suspended := h; refine ⟨by simp, by simp, ?_⟩; rw [if_pos h']; simp
  · rename_i h; have h' : ¬ s.alc.hold = .suspended := h; refine ⟨rfl, rfl, ?_⟩; rw [if_neg h']; rfl

/-! ## The measurement (R71, R72, R104, R109) -/

/-- A measurement is requested (R72, R104). -/
theorem requestMeasurement_spec (pu) (s : State) : (requestMeasurement pu s) =
    { s with iso := (requestMeasurement pu s).iso, alc := (requestMeasurement pu s).alc } ∧
    (requestMeasurement pu s).iso.purpose = some pu ∧ (requestMeasurement pu s).iso.restarts = 0 ∧
    (if s.alc.record.rest = true then (requestMeasurement pu s).iso.phase = .settleA
    ∧ (requestMeasurement pu s).iso.bridge = .a ∧ (requestMeasurement pu s).alc.window = .granted else
    (requestMeasurement pu s).iso.phase = .request ∧ (requestMeasurement pu s).alc.window = .waiting)
    ∧ (requestMeasurement pu s).iso.age = s.iso.age ∧ (requestMeasurement pu s).iso.overdue = s.iso.overdue ∧
    (requestMeasurement pu s).iso.grade = s.iso.grade ∧ (requestMeasurement pu s).iso.period = s.iso.period ∧
    (requestMeasurement pu s).iso.periodTimer = s.iso.periodTimer ∧ (requestMeasurement pu s).alc.hold = s.alc.hold
    ∧ (requestMeasurement pu s).alc.record = s.alc.record ∧ (requestMeasurement pu s).iso.lockout = s.iso.lockout
    ∧ (requestMeasurement pu s).iso.uBus = s.iso.uBus ∧ (requestMeasurement pu s).iso.longDead = s.iso.longDead ∧
    (requestMeasurement pu s).iso.candidate = s.iso.candidate := by
  unfold requestMeasurement
  by_cases h : s.alc.record.rest = true
  · have : ((s.setIso { s.iso with phase := .request, purpose := some pu, restarts := 0 }).setAlc { (s.setIso { s.iso with phase := .request, purpose := some pu, restarts := 0 }).alc with window := .waiting }).alc.record.rest = true := h
    dsimp only; rw [if_pos this, if_pos h]
    refine ⟨rfl, rfl, rfl, ⟨rfl, rfl, rfl⟩, rfl, rfl, rfl, rfl, rfl, rfl, rfl, rfl, rfl, rfl, rfl⟩
  · have : ¬ ((s.setIso { s.iso with phase := .request, purpose := some pu, restarts := 0 }).setAlc { (s.setIso { s.iso with phase := .request, purpose := some pu, restarts := 0 }).alc with window := .waiting }).alc.record.rest = true := h
    dsimp only; rw [if_neg this, if_neg h]
    refine ⟨rfl, rfl, rfl, ⟨rfl, rfl⟩, rfl, rfl, rfl, rfl, rfl, rfl, rfl, rfl, rfl, rfl, rfl⟩

/-- What follows a change of the heater leaves the class of the baseline. -/
theorem heaterChanged_baseline (b) (s : State) : (heaterChanged b s).iso.baselineClass = s.iso.baselineClass := by
  have hap : ∀ u : State, (applyPending u).iso = u.iso := by intro u; simp
  unfold heaterChanged
  rw [show (evalDemand (applyPending (reportSwitches b s))).iso = (reportSwitches b s).iso by simp]
  unfold reportSwitches; split
  · rfl
  · unfold switchChange; (repeat' split) <;> simp [startSettle, discardMeasurement, releaseWindow, monitorIdle]

/-! ## The grade and the lockout (R112, R117, R124) -/

/-- The lockout is set, or a new run begins under it (R117). -/
theorem setLockout_spec (s : State) : (setLockout s).iso.lockout = true ∧ (setLockout s).iso.grade = s.iso.grade ∧
    (setLockout s).iso.candidate = s.iso.candidate ∧ (setLockout s).ses = s.ses ∧ (setLockout s).alc = s.alc ∧
    (setLockout s).htr = s.htr ∧ (setLockout s).rst = s.rst ∧ (setLockout s).mtr = s.mtr ∧ Grows s (setLockout s)
    ∧ (s.iso.lockout = false → (setLockout s).iso.localization = .baselineWait ∧ (setLockout s).iso.marked = 0
    ∧ ToldAll .lockoutChange s (setLockout s)) := by
  refine ⟨?_, by simp, by simp, by simp, by simp, by simp, by simp, by simp, setLockout_grows s, ?_⟩
  · unfold setLockout; (repeat' split) <;> simp_all [beginRun]
  · intro h; unfold setLockout; simp [h, beginRun]; exact (raise_toldAll _ _).after (.of_eq (by simp))

/-- A change of grade, unfolded once (R113). -/
theorem changeGrade_eq (g : Grade) (s : State) (h : g ≠ s.iso.grade) : changeGrade g s = evalDemand
    (gradeLost s.iso.grade g (raise .gradeChange (s.setIso { s.iso with grade := g, candidate := none }))) := by
  unfold changeGrade; rw [if_neg h]

/-- The grade changes, the candidate goes, and GRADE_CHANGE is raised (R112, R113). -/
theorem changeGrade_spec (g : Grade) (s : State) (h : g ≠ s.iso.grade) : (changeGrade g s).iso.grade = g ∧
    (changeGrade g s).iso.candidate = none ∧ ToldAll .gradeChange s (changeGrade g s) := by
  refine ⟨?_, ?_, changeGrade_told g s h⟩ <;> rw [changeGrade_eq _ _ h] <;> simp

/-- A valid result in the session's summary (R114). -/
theorem updateSummary_spec (r) (s : State) : (updateSummary r s).iso = s.iso ∧ (updateSummary r s).alc = s.alc ∧
    (s.ses.session = .opened → (updateSummary r s).mtr.recorded = true ∧ (updateSummary r s).mtr.minPerVolt
    = min s.mtr.minPerVolt r.perVolt) ∧ (s.ses.session ≠ .opened → (updateSummary r s).mtr = s.mtr) := by
  unfold updateSummary; split
  · rename_i h; exact ⟨rfl, rfl, fun _ => ⟨rfl, rfl⟩, fun h' => absurd h h'⟩
  · rename_i h; exact ⟨rfl, rfl, fun h' => absurd h' h, fun _ => rfl⟩

/-! ## The session (R32, R35) -/

/-- A final write handed over waits or is in flight (R151). -/
theorem handoverFinal_pending (n ws) (s : State) : finalPending (handoverFinal n ws s).rst = true := by
  unfold handoverFinal; split <;> simp [finalPending]; split <;> rfl

/-- An OPEN session closes (R35). -/
theorem closeSession_spec (r) (s : State) (h : s.ses.session = .opened) : (closeSession r s).ses =
    { s.ses with
      session := .closing, closeReason := some r, endTime := s.mtr.clock.getD 0, timeUnknown := s.ses.timeUnknown || s.mtr.clock.isNone } ∧ (closeSession r s).mtr
    = { s.mtr with checkpointTimer := .stopped } ∧ finalPending (closeSession r s).rst = true := by
  unfold closeSession; rw [if_pos h]
  refine ⟨by simp [clockOrZero], by simp, ?_⟩
  simpa using handoverFinal_pending _ _ _

/-- The session's own data at its opening (R32). -/
theorem openSession_ses (tag) (s : State) : (openSession tag s).ses = s.ses.opening tag s.nv.counter
    (storedPrices s) s.mtr.clock := by
  unfold openSession; simp

/-- The slot and the number at an opening (R32, R147). -/
theorem openSession_nv (tag) (s : State) : (openSession tag s).nv = reserve s.nv := by
  unfold openSession; simp

/-- The sequence number at an opening (R32). -/
theorem openSession_rst (tag) (s : State) : (openSession tag s).rst = { s.rst with seq := 0 } := by
  unfold openSession; simp

/-! ## The clock and the bands (R133 to R142) -/

/-- The choice of pickEntry among the entries of a list. -/
def Best (s : State) (ok : Fin 32 → Bool) (l : List (Fin 32)) (o : Option (Fin 32)) : Prop :=
  match o with
  | none => ∀ m ∈ l, ok m = false
  | some n => ok n = true ∧ n ∈ l ∧ ∀ m ∈ l, ok m = true → startSlot s m < startSlot s n ∨ startSlot s m = startSlot s n ∧ m ≤ n

/-- The entry picked has the greatest start slot, and of several the highest number (R135). -/
theorem pickEntry_best (s : State) (ok) : Best s ok (List.finRange 32) (pickEntry s ok) := by
  unfold pickEntry
  have : ∀ (l done : List (Fin 32)) acc, (∀ x ∈ done, ∀ y ∈ l, x < y) → l.Pairwise (· < ·) → Best s ok done acc →
    Best s ok (done ++ l) (l.foldl (fun acc n =>
    if ok n then
      match acc with
      | some m => if startSlot s m ≤ startSlot s n then some n else some m
      | none => some n
    else acc) acc) := by
    intro l
    induction l with
    | nil => intro done acc _ _ h; simpa using h
    | cons n r ih =>
      intro done acc hd hp h
      rw [List.foldl_cons]
      rw [show done ++ n :: r = (done ++ [n]) ++ r by simp]
      have hp' := List.pairwise_cons.1 hp
      apply ih
      · intro x hx y hy
        simp at hx; rcases hx with hx | rfl
        · exact hd x hx y (by simp [hy])
        · exact hp'.1 y hy
      · exact hp'.2
      · have hlt : ∀ x ∈ done, x < n := fun x hx => hd x hx n (by simp)
        by_cases ho : ok n = true
        · rw [if_pos ho]
          cases acc with
          | none =>
            refine ⟨ho, by simp, ?_⟩
            intro m hm hok; simp at hm
            rcases hm with hm | rfl
            · exact absurd hok (by simp [h m hm])
            · right; simp
          | some a =>
            obtain ⟨h1, h2, h3⟩ := h
            dsimp only
            split
            · refine ⟨ho, by simp, ?_⟩
              intro m hm hok; simp at hm
              rcases hm with hm | rfl
              · have := h3 m hm hok; have := hlt m hm; omega
              · right; simp
            · refine ⟨h1, by simp [h2], ?_⟩
              intro m hm hok; simp at hm
              rcases hm with hm | rfl
              · exact h3 m hm hok
              · left; omega
        · rw [if_neg ho]
          cases acc with
          | none => intro m hm; simp at hm; rcases hm with hm | rfl
                    · exact h m hm
                    · simpa using ho
          | some a =>
            obtain ⟨h1, h2, h3⟩ := h
            refine ⟨h1, by simp [h2], ?_⟩
            intro m hm hok; simp at hm
            rcases hm with hm | rfl
            · exact h3 m hm hok
            · exact absurd hok ho
  have := this (List.finRange 32) [] none (by simp) (by decide) (by intro m hm; cases hm)
  exact this

/-- The band found reads the plan and the clock alone (R135). -/
theorem findBand_congr {s t : State} (hp : t.plan = s.plan) (hc : t.mtr.clock = s.mtr.clock) : findBand t
    = findBand s := by
  unfold findBand pickEntry scheduleValid startSlot scheduleBand State.entry
  simp [hp, hc]

/-- The meter at an opening (R32). -/
theorem openSession_mtr (tag) (s : State) : (openSession tag s).mtr = 
    { s.mtr with
      chg := ⟨0, 0⟩, heat := ⟨0, 0⟩, aux := ⟨0, 0⟩, standby := ⟨0, 0⟩, lines := [], recorded := false, minPerVolt := 65535, worst := none, checkpointTimer := .running 60000, band := findBand s } := by
  unfold openSession; dsimp only; simp only [evalDemand_keeps, raise_keeps]
  unfold adoptBand
  simp only [State.setMtr_mtr, State.setRst_mtr]
  rw [findBand_congr (s := s) (by simp) (by simp [Mtr.emptied])]
  rfl

/-- The band in force after an evaluation (R136). -/
theorem evaluateBand_band (s : State) : (evaluateBand s).mtr.band = findBand s := by
  have h : findBand (markTimeUnknown s) = findBand s := by
    unfold findBand pickEntry scheduleValid startSlot scheduleBand
    simp
  unfold evaluateBand; dsimp only; split <;> simp [askCheckpoint, adoptBand, h]

/-- An evaluation leaves the lock. -/
theorem evaluateBand_lockHeld (s : State) : (evaluateBand s).mtr.lockHeld = s.mtr.lockHeld := by
  unfold evaluateBand; dsimp only; split <;> simp [askCheckpoint, adoptBand]

/-- An evaluation leaves the lock's timer. -/
theorem evaluateBand_lockTimer (s : State) : (evaluateBand s).mtr.lockTimer = s.mtr.lockTimer := by
  unfold evaluateBand; dsimp only; split <;> simp [askCheckpoint, adoptBand]

/-- An evaluation books nothing. -/
theorem evaluateBand_energy (s : State) : accountEnergy (evaluateBand s).mtr = accountEnergy s.mtr := by
  unfold evaluateBand; dsimp only; split <;> simp [askCheckpoint, adoptBand, accountEnergy, accountWh, residueSum]

/-- An evaluation leaves the clock. -/
theorem evaluateBand_clock (s : State) : (evaluateBand s).mtr.clock = s.mtr.clock ∧ (evaluateBand s).mtr.tenths
    = s.mtr.tenths := by
  unfold evaluateBand; dsimp only; split <;> simp [askCheckpoint, adoptBand]

/-- A HELD lock is broken (R140, R142). -/
theorem breakLock_spec (s : State) (h : s.mtr.lockHeld = true) : (breakLock s).mtr.lockHeld = false ∧
    (breakLock s).mtr.band = findBand s ∧ ToldAll .tariffLockBroken s (breakLock s) := by
  unfold breakLock; rw [if_pos h]
  refine ⟨by simp [freeLock], ?_, ((raise_toldAll _ _).grow (evaluateBand_grows _)).after (.of_eq (by simp))⟩
  rw [evaluateBand_band]
  exact findBand_congr (by simp) (by simp [freeLock])

/-! ## Booking (R129 to R131) -/

/-- A share added to an account adds its energy (R130). -/
theorem addShare_energy (e : Nat) (x : Account) : (addShare e x).wh * 36000 + (addShare e x).residue
    = x.wh * 36000 + x.residue + e := by
  have : Config.unitsPerWh = 36000 := rfl
  unfold addShare completes; by_cases h : Config.unitsPerWh ≤ x.residue + e
  · rw [if_pos (decide_eq_true h)]; dsimp only; omega
  · rw [if_neg (by simpa using h)]; dsimp only; omega

/-- The bands of the lines after a watt-hour (R131). -/
theorem bookLine_bands (b p ls) : ∀ x, x ∈ (bookLine b p ls).map (·.band) ↔ x = b ∨ x ∈ ls.map (·.band) := by
  induction ls with
  | nil => intro x; simp [bookLine]
  | cons l r ih =>
    intro x
    simp only [bookLine]; split
    · rename_i h; subst h; simp
    · simp only [List.map_cons, List.mem_cons, ih]; tauto

/-- The Wh of the lines after a watt-hour (R131). -/
theorem bookLine_sum (b p ls) : ((bookLine b p ls).map (·.wh)).sum = (ls.map (·.wh)).sum + 1 := by
  induction ls with
  | nil => simp [bookLine]
  | cons l r ih =>
    simp only [bookLine]; split
    · simp; omega
    · simp [ih]; omega

/-- The Wh of the lines follow the account (R130, R131). -/
theorem bookShare_sum (b p x e ls) : ((bookShare b p x e ls).map (·.wh)).sum + x.wh = (ls.map (·.wh)).sum +
    (addShare e x).wh := by
  unfold bookShare addShare; split
  · simp [bookLine_sum]; omega
  · simp

/-! ## The store (R146 to R156) -/

/-- The lowest-numbered FREE slot (R147). -/
theorem freeSlot_lowest {slots : Vector Slot 64} {i : Fin 64} (h : slots[i].mark = .free) (hm : ∀ j, j < i
    → slots[j].mark ≠ .free) : freeSlot slots = some i := by
  unfold freeSlot
  rw [List.find?_eq_some_iff_getElem]
  refine ⟨by simpa using h, i.val, by simp, by simp, ?_⟩
  intro j hj
  simpa using hm ⟨j, by omega⟩ (by rw [Fin.lt_def]; exact hj)

/-- No slot is FREE (R147). -/
theorem freeSlot_none {slots : Vector Slot 64} : freeSlot slots = none ↔ ∀ i : Fin 64, slots[i].mark ≠ .free := by
  unfold freeSlot; simp [List.find?_eq_none]

/-- The slot found is FREE (R147). -/
theorem freeSlot_free {slots : Vector Slot 64} {i} (h : freeSlot slots = some i) : slots[i].mark = .free := by
  unfold freeSlot at h; have := List.find?_some h; simpa using this

/-- The slot found is reserved for the number (R151). -/
theorem slotReserved_mark {slots : Vector Slot 64} {i n} (h : slotReserved slots n = some i) : slots[i].mark
    = .reserved n := by
  unfold slotReserved at h; have := List.find?_some h; simpa using this

/-- The slot found carries the number (R155). -/
theorem slotCarrying_mark {slots : Vector Slot 64} {i n} (h : slotCarrying slots n = some i) : slots[i].mark.number
    = some n := by
  unfold slotCarrying at h; have := List.find?_some h; simpa using this

/-- The oldest record stands in a RECORD slot (R157). -/
theorem oldest_mark {slots : Vector Slot 64} {k m} (h : oldest slots = some (k, m)) : slots[k].mark = .record m := by
  unfold oldest at h
  have : ∀ (l : List (Fin 64)) acc, (∀ k m, acc = some (k, m) → slots[k].mark = .record m) → ∀ k m, l.foldl (fun acc i =>
    match slots[i].mark, acc with
    | .record n, some (j, m) => if n < m then some (i, n) else some (j, m)
    | .record n, none => some (i, n)
    | _, acc => acc) acc = some (k, m) → slots[k].mark = .record m := by
    intro l; induction l with
    | nil => intro acc h k m; exact h k m
    | cons i r ih =>
      intro acc h
      rw [List.foldl_cons]
      apply ih
      intro k m
      split
      · rename_i n j m' hi
        split
        · intro e; cases e; exact hi
        · intro e; cases e; exact h _ _ rfl
      · rename_i hi; intro e; cases e; exact hi
      · exact h k m
  exact this _ none (by intro _ _ h; cases h) _ _ h

/-- A slot is reserved and the counter advances (R147). -/
theorem reserve_eq (nv : Nv) (i) (h : freeSlot nv.slots = some i) : reserve nv =
    { nv with slots := nv.slots.set i { nv.slots[i] with mark := .reserved nv.counter }, counter := nv.counter + 1 } := by
  unfold reserve; rw [h]; rfl

/-- A reservation leaves every record (R147). -/
theorem reserve_record (nv : Nv) (i : Fin 64) (n) (h : nv.slots[i].mark = .record n) : (reserve nv).slots[i]
    = nv.slots[i] := by
  unfold reserve; split
  · rename_i k hk
    have := freeSlot_free hk
    have hne : k.val ≠ i.val := by intro e; have e' := Fin.ext e; subst e'; rw [this] at h; cases h
    simp [markSlot, setSlot, hne]
  · rfl

/-- With no checkpoint waiting, the next write touches the writer alone (R152, R153). -/
theorem nextWrite_eq (s : State) (h : s.rst.waitCheckpoint = none) : nextWrite s = s.setRst (nextWrite s).rst := by
  unfold nextWrite; rw [h]; split <;> first | rfl | contradiction

/-- A cut-off final write leaves every slot but its own (R155). -/
theorem cutFinal_other (f cut n ws nv) : (cutWrite f cut (.final n ws) nv).image = nv.image ∧ ∀ i : Fin 64,
    slotReserved nv.slots n ≠ some i → (cutWrite f cut (.final n ws) nv).slots[i] = nv.slots[i] := by
  have key : cutWrite f cut (.final n ws) nv = nv ∨ ∃ k, slotReserved nv.slots n = some k ∧ cutWrite f cut (.final n ws) nv = cutRecordWrite f cut k n ws nv := by
    simp only [cutWrite]; split
    · rename_i k hk; exact .inr ⟨k, hk, rfl⟩
    · exact .inl rfl
  rcases key with e | ⟨k, hk, e⟩ <;> rw [e]
  · exact ⟨rfl, fun _ _ => rfl⟩
  · refine ⟨by unfold cutRecordWrite; split <;> simp [setSlot, fillSlot, markSlot, voidAreas], ?_⟩
    intro i hi
    have hne : k.val ≠ i.val := fun e => hi (by rw [hk, Fin.ext e])
    unfold cutRecordWrite; split <;> simp [setSlot, fillSlot, markSlot, voidAreas, hne]

/-- A cut-off write leaves the record counter (R147). -/
theorem cutWrite_counter (f cut w nv) : (cutWrite f cut w nv).counter = nv.counter := by
  unfold cutWrite; split
  · rfl
  · simp
  · split
    · unfold cutRecordWrite; split <;> simp [setSlot, fillSlot, markSlot, voidAreas]
    · rfl
  · rfl

/-- A cut-off image write touches the image alone (R174). -/
theorem cutWrite_image (f cut v nv) : cutWrite f cut (.image v) nv =
    { nv with image := cutImage f (wordsDone cut) v } := by simp only [cutWrite]

/-- The restore leaves the record counter and the image (R155). -/
theorem restoreTo_counter (f cut nv) : (restoreTo f cut nv).counter = nv.counter ∧ (restoreTo f cut nv).image
    = nv.image := by
  have hc : ∀ c k n ws, (cutRecordWrite f c k n ws nv).counter = nv.counter ∧ (cutRecordWrite f c k n ws nv).image = nv.image := by
    intro c k n ws; unfold cutRecordWrite; split <;> simp [setSlot, fillSlot, markSlot, voidAreas]
  have h1 : (restoreNewest f cut nv).counter = nv.counter ∧ (restoreNewest f cut nv).image = nv.image := by
    unfold restoreNewest; split
    · exact ⟨rfl, rfl⟩
    · split <;> exact hc _ _ _ _
    · split
      · exact ⟨rfl, rfl⟩
      · exact ⟨rfl, rfl⟩
      · exact ⟨rfl, rfl⟩
  unfold restoreTo; dsimp only; split
  · exact h1
  · exact h1

/-- No slot stays RESERVED (R156). -/
theorem settleReserved_mark (x : Slot) (n) : (settleReserved x).mark ≠ .reserved n := by
  unfold settleReserved; split
  · split <;> simp
  · rename_i h; intro e; exact h _ e

/-! ## The allocation (R41 to R56) -/

/-- All that a walk does (R89): it takes, in order, the zones it may take among the first n positions, and stops at position n,
whose zone it may take too, because that zone no longer fits. -/
theorem prefixWalk_spec (s : State) (l : List Nat) : ∀ left, ∃ n, n ≤ l.length
    ∧ (prefixWalk s left l).1 = withRatings s (((l.take n).map (zoneAt s.htr)).filter (walkTakes s))
    ∧ ratingSum (prefixWalk s left l).1 ≤ left ∧ (prefixWalk s left l).2 = l[n]?
    ∧ ∀ i, l[n]? = some i → walkTakes s (zoneAt s.htr i) = true
      ∧ left < ratingSum (prefixWalk s left l).1 + zoneRating s (zoneAt s.htr i) := by
  induction l with
  | nil => intro left; exact ⟨0, by simp [prefixWalk, withRatings, ratingSum]⟩
  | cons i l ih =>
    intro left
    unfold prefixWalk
    by_cases ht : walkTakes s (zoneAt s.htr i) = true
    · by_cases hf : zoneRating s (zoneAt s.htr i) ≤ left
      · obtain ⟨n, h1, h2, h3, h4, h5⟩ := ih (left - zoneRating s (zoneAt s.htr i))
        refine ⟨n + 1, by simpa using h1, ?_, ?_, ?_, fun j hj => ?_⟩
        · simp [ht, hf, h2, withRatings]
        · simp [ht, hf]; simp [ratingSum] at h3 ⊢; omega
        · simp [ht, hf, h4]
        · obtain ⟨h6, h7⟩ := h5 j (by simpa using hj)
          refine ⟨h6, ?_⟩
          simp [ht, hf]; simp [ratingSum] at h7 ⊢; omega
      · refine ⟨0, by simp, ?_, ?_, ?_, fun j hj => ?_⟩
        · simp [ht, hf, withRatings]
        · simp [ht, hf, ratingSum]
        · simp [ht, hf]
        · simp at hj; subst hj; exact ⟨ht, by simp [ht, hf, ratingSum]; omega⟩
    · obtain ⟨n, h1, h2, h3, h4, h5⟩ := ih left
      refine ⟨n + 1, by simpa using h1, ?_, ?_, ?_, fun j hj => ?_⟩
      · simp [ht, h2, withRatings]
      · simpa [ht] using h3
      · simp [ht, h4]
      · simpa [ht] using h5 j (by simpa using hj)

/-- The walk grants no more than it had (R89). -/
theorem prefixWalk_le (s : State) (l) (left : Nat) : ratingSum (prefixWalk s left l).1 ≤ left :=
  let ⟨_, _, _, h, _⟩ := prefixWalk_spec s l left
  h

/-- All that shedding does (R90): of a set whose last zones are given first it drops the fewest that bring it within the budget. -/
theorem shedFrom_spec (g : Nat) (l : List (Fin 8 × Nat)) : ∃ n, n ≤ l.length ∧ shedFrom g l = l.drop n
    ∧ ratingSum (shedFrom g l) ≤ g ∧ ∀ m, m < n → g < ratingSum (l.drop m) := by
  induction l with
  | nil => exact ⟨0, by simp [shedFrom, ratingSum]⟩
  | cons x l ih =>
    unfold shedFrom
    split
    · rename_i h; exact ⟨0, by simp, rfl, h, by simp⟩
    · rename_i h
      obtain ⟨n, h1, h2, h3, h4⟩ := ih
      refine ⟨n + 1, by simpa using h1, by simpa using h2, h3, fun m hm => ?_⟩
      cases m with
      | zero => simpa using h
      | succ m => simpa using h4 m (by omega)

/-- Shedding ends within the budget (R90). -/
theorem shedFrom_le (g l) : ratingSum (shedFrom g l) ≤ g :=
  let ⟨_, _, _, h, _⟩ := shedFrom_spec g l
  h

/-- The order of a set leaves its sum. -/
theorem ratingSum_reverse (l) : ratingSum l.reverse = ratingSum l := by simp [ratingSum, List.map_reverse, List.sum_reverse]

/-- All that the keep-or-shed rule does (R90): the published set, less the zones rated 0, keeps its longest beginning that fits. -/
theorem keepOrShed_spec (s : State) (g : Nat) :
    let set := (withRatings s (publishedSet s)).filter fun x => decide (0 < x.2)
    ∃ n, n ≤ set.length ∧ keepOrShed s g = ⟨set.take n, false, false, s.htr.p, false⟩ ∧ ratingSum (set.take n) ≤ g
      ∧ (n < set.length → g < ratingSum (set.take (n + 1))) := by
  intro set
  obtain ⟨n, h1, h2, h3, h4⟩ := shedFrom_spec g set.reverse
  have hk : keepOrShed s g = ⟨(shedFrom g set.reverse).reverse, false, false, s.htr.p, false⟩ := rfl
  have hr : ∀ m, (set.reverse.drop m).reverse = set.take (set.length - m) := fun m => by rw [List.reverse_drop]; simp
  have ht : (shedFrom g set.reverse).reverse = set.take (set.length - n) := by rw [h2, hr]
  have hl : n ≤ set.length := by rw [List.length_reverse] at h1; exact h1
  refine ⟨set.length - n, by omega, by rw [hk, ht], by rw [← ht, ratingSum_reverse]; exact h3, fun hn => ?_⟩
  have := h4 (n - 1) (by omega)
  rwa [← ratingSum_reverse, hr, show set.length - (n - 1) = set.length - n + 1 by omega] at this

/-- The prefix rule grants no more than the budget (R89). -/
theorem prefixRule_le (s : State) (g) : ratingSum (prefixRule s g).zones ≤ g := by
  unfold prefixRule; split
  · rename_i h
    dsimp only
    unfold turnQueue
    split
    · split
      · cases candidateOf s.htr with
        | none => simp [withRatings, ratingSum]
        | some z => simp only [Option.toList, withRatings, List.map, List.filter]; split <;> rename_i h <;> simp [ratingSum]; exact (of_decide_eq_true h).2
      · simp [withRatings, ratingSum]
    · rename_i h2; simp [h2] at h; simp [h, withRatings, ratingSum]
  · dsimp only; split <;> exact prefixWalk_le _ _ _

/-- A zone set costs no more than the budget it was formed from (R88, R89). -/
theorem quantize_le (s : State) (g) : ratingSum (quantize s g).zones ≤ g := by
  unfold quantize; split
  · exact prefixRule_le s g
  · unfold keepOrShed; dsimp only; rw [ratingSum_reverse]; exact shedFrom_le _ _

/-- A grant lies within what remains and what is wanted, and at its floor or above (R50). -/
theorem grantBeforeFloor_spec (s ch c r) : grantBeforeFloor s ch c r ≤ r
    ∧ grantBeforeFloor s ch c r ≤ wantOf s ch c ∧ (0 < grantBeforeFloor s ch c r
    → floorOf s c ≤ grantBeforeFloor s ch c r) := by
  unfold grantBeforeFloor; dsimp only; split
  · simp
  · refine ⟨min_le_right _ _, min_le_left _ _, fun _ => by omega⟩

/-- A want lies within its cap (R49). -/
theorem wantOf_le_cap (s ch c) : wantOf s ch c ≤ capOf s c := by unfold wantOf; split; exact Nat.zero_le _; exact min_le_right _ _

/-- The consumers are served in one of the six orders (R50). -/
theorem serviceOrder_cases (s : State) : serviceOrder s ∈
    ([[.heat, .aux, .chg], [.heat, .chg, .aux], [.aux, .heat, .chg], [.aux, .chg, .heat], [.chg, .heat, .aux],
    [.chg, .aux, .heat]] : List (List Consumer)) := by
  unfold serviceOrder
  simp only [insertByRank]
  (repeat' split) <;> simp [insertByRank] <;> (repeat' split) <;> simp <;> omega

/-- The division of the budget spends it once (R50). -/
theorem divide_spec (s : State) (ch : Choice) : ratingSum (divide s ch).heat.zones + (divide s ch).gAux +
    (divide s ch).gChg + (divide s ch).remaining = ch.b ∧ ratingSum (divide s ch).heat.zones ≤ wantOf s ch .heat ∧
    (∃ r, (divide s ch).gAux = grantBeforeFloor s ch .aux r) ∧ (∃ r, (divide s ch).gChg
    = grantBeforeFloor s ch .chg r) := by
  have h := serviceOrder_cases s
  have q := quantize_le s
  have hb := fun c r => grantBeforeFloor_spec s ch c r
  unfold divide
  simp only [List.mem_cons, List.not_mem_nil, or_false] at h
  rcases h with h | h | h | h | h | h <;> rw [h] <;> simp only [List.foldl, serve]
  all_goals
    refine ⟨?_, ?_, ⟨_, rfl⟩, ⟨_, rfl⟩⟩
  all_goals
    first
    | (have a1 := fun r => q (grantBeforeFloor s ch .heat r)
       have a2 := fun r => (hb .heat r).1
       have a3 := fun r => (hb .heat r).2.1
       have a4 := fun r => (hb .aux r).1
       have a5 := fun r => (hb .chg r).1
       first
       | exact (q _).trans ((hb .heat _).2.1)
       | skip)
  · generalize hA : ratingSum (quantize s (grantBeforeFloor s ch .heat ch.b)).zones = A
    have l1 : A ≤ ch.b := hA ▸ (q _).trans (hb .heat _).1
    generalize hB : grantBeforeFloor s ch .aux (ch.b - A) = B
    have l2 : B ≤ ch.b - A := hB ▸ (hb .aux _).1
    generalize hC : grantBeforeFloor s ch .chg (ch.b - A - B) = C
    have l3 : C ≤ ch.b - A - B := hC ▸ (hb .chg _).1
    omega
  · generalize hA : ratingSum (quantize s (grantBeforeFloor s ch .heat ch.b)).zones = A
    have l1 : A ≤ ch.b := hA ▸ (q _).trans (hb .heat _).1
    generalize hB : grantBeforeFloor s ch .chg (ch.b - A) = B
    have l2 : B ≤ ch.b - A := hB ▸ (hb .chg _).1
    generalize hC : grantBeforeFloor s ch .aux (ch.b - A - B) = C
    have l3 : C ≤ ch.b - A - B := hC ▸ (hb .aux _).1
    omega
  · generalize hB : grantBeforeFloor s ch .aux ch.b = B
    have l2 : B ≤ ch.b := hB ▸ (hb .aux _).1
    generalize hA : ratingSum (quantize s (grantBeforeFloor s ch .heat (ch.b - B))).zones = A
    have l1 : A ≤ ch.b - B := hA ▸ (q _).trans (hb .heat _).1
    generalize hC : grantBeforeFloor s ch .chg (ch.b - B - A) = C
    have l3 : C ≤ ch.b - B - A := hC ▸ (hb .chg _).1
    omega
  · generalize hB : grantBeforeFloor s ch .aux ch.b = B
    have l2 : B ≤ ch.b := hB ▸ (hb .aux _).1
    generalize hC : grantBeforeFloor s ch .chg (ch.b - B) = C
    have l3 : C ≤ ch.b - B := hC ▸ (hb .chg _).1
    generalize hA : ratingSum (quantize s (grantBeforeFloor s ch .heat (ch.b - B - C))).zones = A
    have l1 : A ≤ ch.b - B - C := hA ▸ (q _).trans (hb .heat _).1
    omega
  · generalize hC : grantBeforeFloor s ch .chg ch.b = C
    have l3 : C ≤ ch.b := hC ▸ (hb .chg _).1
    generalize hA : ratingSum (quantize s (grantBeforeFloor s ch .heat (ch.b - C))).zones = A
    have l1 : A ≤ ch.b - C := hA ▸ (q _).trans (hb .heat _).1
    generalize hB : grantBeforeFloor s ch .aux (ch.b - C - A) = B
    have l2 : B ≤ ch.b - C - A := hB ▸ (hb .aux _).1
    omega
  · generalize hC : grantBeforeFloor s ch .chg ch.b = C
    have l3 : C ≤ ch.b := hC ▸ (hb .chg _).1
    generalize hB : grantBeforeFloor s ch .aux (ch.b - C) = B
    have l2 : B ≤ ch.b - C := hB ▸ (hb .aux _).1
    generalize hA : ratingSum (quantize s (grantBeforeFloor s ch .heat (ch.b - C - B))).zones = A
    have l1 : A ≤ ch.b - C - B := hA ▸ (q _).trans (hb .heat _).1
    omega

/-- The walk reads the heater and the plan alone. -/
theorem prefixWalk_congr {s t : State} (h1 : t.htr = s.htr) (h2 : t.plan = s.plan) (left : Nat) (l : List Nat) :
    prefixWalk t left l = prefixWalk s left l := by
  have e1 : ∀ i, zoneAt t.htr i = zoneAt s.htr i := by rw [h1]; exact fun _ => rfl
  have e2 : ∀ z, zoneRating t z = zoneRating s z := by intro z; unfold zoneRating State.entry; rw [h2]
  have e3 : ∀ z, walkTakes t z = walkTakes s z := by
    intro z; unfold walkTakes wantsTurn eligible inMask State.zone; rw [e2, h1]
  induction l generalizing left with
  | nil => rfl
  | cons i l ih => unfold prefixWalk; simp only [e1, e2, e3, ih]

/-- Two states that a record cannot tell apart. -/
def SameInputs (s t : State) : Prop :=
  t.threePhases = s.threePhases ∧ t.commission = s.commission ∧ t.plan = s.plan ∧ t.ses = s.ses ∧ t.sup = s.sup
    ∧ t.alc = s.alc ∧ t.htr = s.htr ∧ t.iso = s.iso

/-- A record reads its inputs alone (R38). -/
theorem computeRecord_inputs {s t : State} (h : SameInputs s t) : computeRecord t = computeRecord s := by
  obtain ⟨h1, h2, h3, h4, h5, h6, h7, h8⟩ := h
  have hq : ∀ g, quantize t g = quantize s g := by
    intro g
    have e2 : ∀ z, zoneRating t z = zoneRating s z := by intro z; unfold zoneRating State.entry; rw [h3]
    have ew : ∀ l, withRatings t l = withRatings s l := by intro l; unfold withRatings; simp only [e2]
    have ec : checkPhase t = checkPhase s := by unfold checkPhase enabled inMask State.zone; rw [h7]
    have et : turnQueue t = turnQueue s := by
      unfold turnQueue wantsTurn eligible inMask checkOffered insulationOk State.zone; rw [ec, h7, h6, h8]
    unfold quantize slotBoundaryDue boundaryTaken windowInForce prefixRule keepOrShed publishedSet
    simp only [prefixWalk_congr h7 h3, ew, et, ec, h7, h6]
  have hch : choose t = choose s := by
    unfold choose contradiction offChoice packApplies bGrid pIn inputAllowed pSup siteCap efficiency packBudget busLive heatingPermitted heatingAllowed heatDemand demandsHeat insulationOk inMask State.zone State.entry
    rw [h1, h2, h3, h4, h5, h6, h7, h8]
  have hw : ∀ ch c, wantOf t ch c = wantOf s ch c := by
    intro ch c
    have et : heatZones t = heatZones s := by
      unfold heatZones slotBoundaryDue boundaryTaken windowInForce turnQueue wantsTurn eligible inMask checkOffered checkPhase enabled insulationOk inMask publishedSet State.zone; rw [h7, h6, h8]
    unfold wantOf restDrops capOf requestOf
    rw [et]
    unfold withRatings zoneRating auxRequest chargeEnable iAcc uMaxEntry iAccEntry State.entry
    rw [h3, h6, h8]
  have hd : ∀ ch, divide t ch = divide s ch := by
    intro ch
    have hs : serve t ch = serve s ch := by
      funext d c
      unfold serve grantBeforeFloor floorOf State.entry; simp only [hw, hq, h3]
    have ho : serviceOrder t = serviceOrder s := by
      have : ∀ c l, insertByRank t c l = insertByRank s c l := by
        intro c l; induction l with
        | nil => rfl
        | cons x l ih => unfold insertByRank rankOf State.entry; rw [ih, h3]
      unfold serviceOrder; simp only [this]
    unfold divide; rw [hs, ho, h7]
  unfold computeRecord; dsimp only
  rw [hch, hd]
  unfold slotBoundaryDue boundaryTaken windowInForce setPower setCurrent ramped rampStep windowInForce iAcc iAccEntry supplyTarget uMaxEntry State.entry
  rw [h3, h6, h7, h8]

/-- The contradiction step (R57). -/
theorem contradictionStep_alc (s : State) : (contradictionStep s).alc = { s.alc with cause := if contradiction s
    = true then .bus else s.alc.cause } := by
  unfold contradictionStep; split <;> simp [stageFaultWith]

/-- The window step (R72). -/
theorem windowStep_alc (s : State) : (windowStep s).alc = { s.alc with window := if s.alc.window = .waiting
    ∧ s.alc.hold ≠ .held then .granted else s.alc.window } := by
  unfold windowStep; split <;> simp

/-- The record in force and the changeover after an interval (R38, R45). -/
theorem allocate_record (s : State) : (allocate s).alc.record = computeRecord (contradictionStep (windowStep s)) ∧
    (allocate s).alc.changeover = changeoverAfter s.alc.record.mode
    (computeRecord (contradictionStep (windowStep s))).mode s.alc.changeover := by
  unfold allocate; dsimp only; simp [publish]

end Sys2Proof.Machine
end

