-- ==== Sys2Proof/Tests/Slice0.lean ====
section
/-! SUPPORT. Tests/Slice0.lean: the WellFormed smoke, small tests whose values come from the spec's worked examples, and a witness for
the hypotheses of each statement. -/

namespace Sys2Proof.Tests

open Sys2Proof.Machine

set_option Elab.async false

/-! ## Helpers -/

/-- The command answers a next state of which f holds. -/
def after (c : Instr) (s : State) (f : State → Bool) : Bool :=
  match exec c s with
  | .next t => f t
  | .fault _ => false
  | .refused _ => false

/-- The plan of s with one entry replaced. -/
def withEntry (n : Fin 53) (e : Entry) (s : State) : State := s.setPlan (s.plan.set n e)

/-- A port with one unprotected window that maps every local number onto the plan entry of its own number. -/
def openPort : PortState := { PortState.reset with windows := #v[⟨0, 63, 0, false, true⟩, .closed, .closed, .closed] }

/-- A port that has staged two words for local number n. -/
def staging (n : BitVec 6) (a b : Word) : PortState :=
  { openPort with pointer := n, direction := .write, sub := 2, staging := ⟨a, b, 0⟩, staged := 2 }

/-- A zone that is OFF at 5.0 °C, wants heat, and has the rating. -/
def coldZone (rating : Nat) : Zone := ⟨.off, some 50, true, rating⟩

/-- The van of the worked examples: plugged in, a session OPEN with record number 1, grade GOOD, the demand line READY, the charger in
CHARGE, a hold HELD, zone 5 ENERGIZED at 800 W, and one watt-hour booked into band 1. -/
def van : State :=
  { State.reset with
    ses := { Ses.reset with
      rawA := true, rawB := true, debA := some true, debB := some true, timerA := .stopped, timerB := .stopped,
      plug := .plugged, session := .opened, number := 1, prices := #v[1800, 3100, 4200, 5000] }
    sup := { Sup.reset with
      pilot := .offer, iPil := 320, decoded := true, u1 := 2300, u2 := 2300, u3 := 2300, nPh := 3, uMin := 2300,
      supplyPresent := true, demand := .ready }
    alc := { Alc.reset with
      record := { GrantRecord.reset with source := .grid, mode := .charge, gHeat := 800, zones := [(5, 800)], s := 6000 }
      stageReady := true, stage := .available, hold := .held, holdTimer := .running 1800000 }
    htr := { Htr.reset with
      zones := (Vector.replicate 8 (coldZone 800)).set 5 ⟨.energized, some 50, true, 800⟩
      boundaryDue := false, slotTimer := .running 2000, energized := [5]
      applied := { GrantRecord.reset with gHeat := 800, zones := [(5, 800)] } }
    iso := { Iso.reset with
      grade := .good, age := 2999, longDead := false, energizedLast := true, uBus := 3800
      latest := some ⟨1000, 3992, 1000, 2500, .good⟩ }
    mtr := { Mtr.reset with
      chg := ⟨1, 30000⟩, heat := ⟨0, 35000⟩, aux := ⟨0, 10000⟩, standby := ⟨0, 4000⟩, lines := [⟨1, 3100, 1, 3100⟩],
      band := 1, checkpointTimer := .running 60000 }
    nv := { Nv.fresh with
      slots := Nv.fresh.slots.set 0 ⟨.reserved 1, Vector.replicate 53 0⟩, counter := 2 } }

/-! ## The WellFormed smoke: one ill-formed command for each check -/

theorem test_refuses_a_defined_code_as_unknown : wellFormed (.unknownCommand ⟨.V, 1⟩ 0x45) = false := by decide
theorem test_refuses_tag_words_without_a_tag : wellFormed (.authorize ⟨.F, 1⟩ 0 1 0 0 0) = false := by decide
theorem test_refuses_an_expiry_of_no_contact : wellFormed (.debounceExpiry false false) = false := by decide
theorem test_refuses_an_empty_period : wellFormed (.pilotPeriod 0 0) = false := by decide
theorem test_refuses_a_high_time_past_the_period : wellFormed (.pilotPeriod 10 11) = false := by decide
theorem test_refuses_a_wide_phase_voltage : wellFormed (.phaseWindowEnd 2300 65536 0) = false := by decide
theorem test_refuses_a_wide_current : wellFormed (.checkPulseEnd 65536) = false := by decide
theorem test_refuses_a_wide_bus_voltage : wellFormed (.busConversion 65535 1) = false := by decide
theorem test_refuses_a_wide_bridge_sample : wellFormed (.bridgeSample 1 65535) = false := by decide
theorem test_refuses_a_cut_past_the_words : wellFormed (.powerLoss (.words 201)) = false := by decide
theorem test_refuses_a_frame_without_its_operand : wellFormed (.writeWord ⟨.V, 1⟩ 0) = false := by decide
theorem test_refuses_an_empty_frame : wellFormed (.noOperation ⟨.V, 0⟩) = false := by decide
theorem test_refuses_a_whole_frame_as_cut_short : wellFormed (.frameIncomplete .V (.operands 5)) = false := by decide
theorem test_accepts_a_short_frame_out_of_role : wellFormed (.rest ⟨.V, 1⟩ 0) = true := by decide
theorem test_accepts_the_last_word_as_a_cut : wellFormed (.powerLoss (.words 200)) = true := by decide

/-! ## Frames -/

/-- The codes and operands of Table 12-1. -/
theorem test_frame_of_rest : frameCommand .P false [0x3000, 30] = .rest ⟨.P, 2⟩ 30 := by decide
theorem test_frame_of_release : frameCommand .F false [0x4700, 0, 2039] = .release ⟨.F, 3⟩ 0 2039 := by decide
theorem test_frame_without_its_operand : frameCommand .F false [0x4700, 0] = .frameIncomplete .F (.operands 2) := by decide
theorem test_frame_of_an_undefined_code : frameCommand .V false [0x0A00] = .unknownCommand ⟨.V, 1⟩ 0x0A := by decide
theorem test_frame_with_further_words : frameCommand .V false [0x0300, 7, 8] = .readWord ⟨.V, 3⟩ := by decide
theorem test_words_of_image_write : frameWords (.imageWrite ⟨.F, 2⟩ 7 0x1234) = some [0x6107, 0x1234] := by decide

/-! ## The plan (the worked example of section 1.6 and Table 1-3) -/

theorem test_isolation_policy_clamps : rangeStep 22000 7 ⟨60, 200, 90⟩ = ⟨100, 99, 60⟩ := by decide +kernel

/-- L 6, sweep on, start zone 11, dwell 5 become L 4, sweep on, start zone 3, dwell 3. -/
theorem test_heating_mode_clamps : rangeStep 22000 8 ⟨0x5B26, 0xFF, 0⟩ = ⟨0x3324, 0xFF, 0⟩ := by decide +kernel

theorem test_zone_in_range_stays : rangeStep 22000 12 ⟨300, 40, 900⟩ = ⟨300, 40, 900⟩ := by decide +kernel

theorem test_commit_answers_ok_clamped : after (.writeWord ⟨.V, 2⟩ 90)
    { State.reset with portV := staging 7 60 200 }
    (fun t => t.plan[7] == ⟨100, 99, 60⟩ && t.portV.lastStatus == .okClamped && t.portV.pointer == 8) = true := by
  decide +kernel

/-- The example of section 12.5: port P's window 1 holds local 8–9 onto entries 5–6. -/
theorem test_image_window : windowOf 0x0908 0x023D = ⟨8, 9, 61, false, true⟩ := by decide

/-! ## The pilot (the worked example of section 2.2) -/

def decoding (duty : Nat) (pilot : Pilot) : State :=
  { State.reset with sup := { Sup.reset with history := List.replicate 7 duty, pilot := pilot } }

theorem test_duty_500_offers_320 : after (.pilotPeriod 2000000 1000000) (decoding 500 .absent)
    (fun t => t.sup.pilot == .offer && t.sup.iPil == 320 && t.portF.holds .pilotChange) = true := by decide +kernel
theorem test_duty_350_offers_200 : after (.pilotPeriod 2000000 700000) (decoding 350 .offer)
    (fun t => t.sup.pilot == .offer && t.sup.iPil == 200 && !t.portF.holds .pilotChange) = true := by decide +kernel
theorem test_duty_90_pauses : after (.pilotPeriod 2000000 180000) (decoding 90 .offer)
    (fun t => t.sup.pilot == .pause && t.sup.iPil == 0) = true := by decide +kernel
theorem test_duty_930_offers_640 : after (.pilotPeriod 2000000 1860000) (decoding 930 .pause)
    (fun t => t.sup.pilot == .offer && t.sup.iPil == 640) = true := by decide +kernel

/-! ## The allocator (the worked examples of sections 3.5 and 3.9) -/

/-- The van of section 3.9, with zones 2, 3 and 5 that want heat, between two boundaries. -/
def charging (sPrev : Nat) : State :=
  let s := withEntry 3 ⟨15000, 930, 1000⟩ (withEntry 4 ⟨3000, 1, 0⟩ (withEntry 5 ⟨300, 5000, 1⟩ van))
  { s with
    alc := { s.alc with hold := .none, record := { s.alc.record with s := sPrev } }
    htr := { s.htr with
      zones := ((s.htr.zones.set 2 ⟨.energized, some 50, true, 800⟩).set 3 ⟨.energized, some 50, true, 800⟩).set 5
        ⟨.energized, some 50, true, 800⟩
      energized := [2, 3, 5] }
    plan := ((s.plan.set 11 ⟨150, 20, 800⟩).set 12 ⟨150, 20, 800⟩).set 14 ⟨150, 20, 800⟩ }

theorem test_ramp_first_interval : after .allocationInterval (charging 6000) (fun t =>
    t.alc.mirror55 == ⟨2400, 3000, 7000⟩ && t.alc.record.b == 13950 && t.alc.record.iSet == 184
      && t.alc.record.unused == 1550) = true := by decide +kernel
theorem test_ramp_third_interval : after .allocationInterval (charging 8000) (fun t =>
    t.alc.mirror55 == ⟨2400, 3000, 8550⟩ && t.alc.record.iSet == 225 && t.alc.record.unused == 0) = true := by
  decide +kernel

/-- Section 3.5: at a duty of 160 the heat is granted in full, and AUX and CHG fall below their floors. -/
theorem test_floors_at_a_low_offer : after .allocationInterval
    { charging 0 with sup := { van.sup with iPil := 48 } }
    (fun t => t.alc.record.b == 3080 && t.alc.mirror55 == ⟨2400, 0, 0⟩ && t.alc.record.unused == 680) = true := by
  decide +kernel

/-! ## The heater (Table 5-2 and the worked examples of sections 5.3 and 5.11) -/

def turns (b : Burst) (il : Bool) : List (Fin 8) :=
  (List.range b.len).map (zoneAt { Htr.reset with s := 5, mode := ⟨b, il, false, 5, 1, 0xFF⟩ })

theorem test_turn_order_sequential : turns .four false = [5, 6, 7, 4] := by decide
theorem test_turn_order_interleaved : turns .eight true = [5, 4, 7, 6, 1, 0, 3, 2] := by decide

/-- Section 5.11 at 0.0 s: 2,000 W take zones 5 and 4, and p becomes 2. -/
def fourZones : State :=
  let z (rating : Nat) : Zone := ⟨.off, some 50, true, rating⟩
  { van with
    plan := (((van.plan.set 13 ⟨150, 20, 800⟩).set 14 ⟨150, 20, 1200⟩).set 15 ⟨150, 20, 600⟩).set 16 ⟨150, 20, 1000⟩
    htr := { van.htr with
      zones := (((van.htr.zones.set 4 (z 800)).set 5 (z 1200)).set 6 (z 600)).set 7 (z 1000)
      energized := [], boundaryDue := true, slotTimer := .stopped, p := 0, s := 5
      mode := ⟨.four, true, true, 5, 1, 0xFF⟩ } }

theorem test_boundary_walk :
    prefixRule fourZones 2000 = ⟨[(5, 1200), (4, 800)], true, true, 2, false⟩ := by decide +kernel

/-- R86 with L = 1: the boundary completes a round although the zone does not fit (log entry 37). -/
theorem test_boundary_of_one_zone :
    prefixRule { fourZones with htr := { fourZones.htr with mode := ⟨.one, true, true, 5, 1, 0xFF⟩ } } 1199
      = ⟨[], true, true, 0, true⟩ := by decide +kernel

/-- Section 5.11 at 0.7 s: 1,500 W keep zone 5 and shed zone 4. -/
theorem test_shed_in_reverse_order :
    (keepOrShed { fourZones with htr := { fourZones.htr with energized := [5, 4] } } 1500).zones = [(5, 1200)] := by
  decide +kernel

/-- A zone in CHECKING with I_exp 22, as zone 0 of the check phase of section 5.3. -/
def checkingZone (first : Option PulseResult) (repeated : Bool) : State :=
  { van with htr := { van.htr with
      zones := (van.htr.zones.set 5 (coldZone 800)).set 0 ⟨.checking, some 50, true, 800⟩
      energized := [], check := some ⟨0, 22, repeated, first, true, false⟩ } }

theorem test_second_pulse_passes : after (.checkPulseEnd 23) (checkingZone (some .pass) false)
    (fun t => (t.zone 0).state == .off && t.htr.check == none) = true := by decide +kernel
theorem test_pulses_that_differ_are_unstable : after (.checkPulseEnd 22) (checkingZone (some .low) true)
    (fun t => (t.zone 0).state == .faulted .unstable && t.portP.holds .heaterFault) = true := by decide +kernel

/-! ## The insulation monitor (the worked examples of sections 6.6 and 6.10) -/

theorem test_bridge_result : bridgeResult 400 4000 471 3529 2824 1176 = some (1000, 3992, 1000, 2500) := by decide +kernel

/-- The run of grades: a WARNING from UNKNOWN at once, a GOOD as the candidate of a WARNING, a FAULT at once. -/
theorem test_first_result_sets_the_grade :
    (decideGrade .warning State.reset).iso.grade = .warning := by decide +kernel
theorem test_good_waits_as_candidate :
    (decideGrade .good { van with iso := { van.iso with grade := .warning } }).iso.candidate = some .good := by decide +kernel
theorem test_fault_closes_the_session :
    let t := decideGrade .fault van
    t.iso.grade = .fault ∧ t.iso.lockout = true ∧ t.ses.closeReason = some .isolation ∧ t.sup.demand = .present := by
  decide +kernel

/-! ## The meter (the worked examples of sections 8.2 and 8.4) -/

def gridRecord (heat aux s : Nat) : GrantRecord :=
  { GrantRecord.reset with source := .grid, gHeat := heat, gAux := aux, s := s }

theorem test_shares_with_remainder : sharesOf (gridRecord 2400 3000 7000) 12800 = ⟨7227, 2477, 3096, 0⟩ := by decide +kernel
theorem test_shares_of_a_tie : sharesOf (gridRecord 4000 0 4000) 10001 = ⟨5001, 5000, 0, 0⟩ := by decide +kernel

/-- The interval of section 8.2: 1 Wh each to HEAT and CHG, 6,200 on the band 1 line, and the residues that stay. -/
theorem test_interval_books : after (.meterInterval 12800 0 0)
    { van with alc := { van.alc with record := gridRecord 2400 3000 7000 } }
    (fun t => t.mtr.heat == ⟨1, 1477⟩ && t.mtr.aux == ⟨0, 13096⟩ && t.mtr.chg == ⟨2, 1227⟩
      && t.mtr.standby == ⟨0, 4000⟩ && t.mtr.lines == [⟨1, 3100, 3, 9300⟩]) = true := by decide +kernel

/-- The schedule of section 8.4: schedule entries 2, 4, 6 and 8, and entry 10 not valid. -/
def schedule (sec : Word32) : State :=
  let s := withEntry 19 ⟨24, 1, 1⟩ (withEntry 21 ⟨68, 2, 1⟩ (withEntry 23 ⟨68, 3, 1⟩ (withEntry 25 ⟨88, 0, 1⟩
    (withEntry 27 ⟨12, 0, 0⟩ State.reset))))
  { s with mtr := { s.mtr with clock := some sec } }

theorem test_band_of_the_morning : findBand (schedule 36000) = 1 := by decide +kernel
theorem test_band_of_a_tie : findBand (schedule 63000) = 3 := by decide +kernel
theorem test_band_wraps_over_midnight : findBand (schedule 12600) = 0 := by decide +kernel

/-! ## The store (sections 9.2 and 9.5) -/

/-- PRESUMED: the spec gives no example; 0xA12B is the published CRC of the ASCII digits 1 to 8 under the parameters of R149. -/
theorem test_crc_of_check_words : (crc16 [0x3132, 0x3334, 0x3536, 0x3738] == 0xA12B) = true := by decide +kernel

/-- The store of section 9.5 after its first row: records 2,040 and 2,041 held, session 2,042 OPEN. -/
def twoRecords : State :=
  { van with nv := { van.nv with
      slots := (((van.nv.slots.set 0 ⟨.reserved 2042, Vector.replicate 53 0⟩).set 1 ⟨.record 2041, Vector.replicate 53 0⟩).set 2
        ⟨.record 2040, Vector.replicate 53 0⟩) } }

theorem test_release_of_a_newer_record : after (.release ⟨.F, 3⟩ 0 2041) twoRecords
    (fun t => t.portF.lastStatus == .noRecord && uncollected t.nv.slots == 2) = true := by decide +kernel
theorem test_release_of_the_oldest : after (.release ⟨.F, 3⟩ 0 2040) twoRecords
    (fun t => t.portF.lastStatus == .ok && uncollected t.nv.slots == 1) = true := by decide +kernel

/-! ## Notices (the worked example of section 11.4) -/

theorem test_read_clears : after (.readNotices ⟨.V, 2⟩) (raise .plugChange State.reset)
    (fun t => t.portV.pending == 0 && t.portV.attention == false && t.portV.returned.drop 1 == [0x2001]) = true := by
  decide +kernel

/-- R161 and R162: a frame of the command word alone loses the data and not the effect; a longer one reads 0 past the data. -/
theorem test_lost_data_still_clears : after (.readNotices ⟨.V, 1⟩) (raise .plugChange State.reset)
    (fun t => t.portV.pending == 0 && t.portV.returned.length == 1) = true := by decide +kernel
theorem test_words_past_the_data_read_zero : after (.getPointer ⟨.V, 4⟩)
    { State.reset with portV := { PortState.reset with pointer := 9, direction := .read } }
    (fun t => t.portV.returned.drop 1 == [0x0109, 0, 0]) = true := by decide +kernel

/-! ## Witnesses: states and operands that meet the hypotheses of each statement, at the ends of their ranges -/

theorem ready_of {p : PortId} {s : State} (h : (s.powered && !(s.port p).resetAsserted) = true) : Ready p s := by
  simpa [Ready] using h

theorem sound_of {s : State} (h0 : s.htr.check = none) (h1 : ∀ z : Fin 8, (s.zone z).state ≠ .checking)
    (h2 : ∀ z : Fin 8, (s.zone z).state = .energized ↔ z ∈ s.htr.energized) (h3 : s.htr.energized.Nodup) : ZonesSound s :=
  ⟨fun z => ⟨fun h => absurd h (h1 z), fun ⟨_, h, _⟩ => by rw [h0] at h; cases h⟩, h2, h3⟩

/-- The van with one command queued. -/
def queued (c : Instr) : State := { van with pending := [c] }

theorem witness_StepRunsFrontCommand : (queued .pilotEdge).pending = [.pilotEdge] ∧ State.reset.pending = [] := ⟨rfl, rfl⟩

theorem witness_ReadableEntry : readable State.reset .V 16 = some 53 ∧ readable State.reset .V 15 = none
    ∧ State.reset.sup.nPh ≤ 3 ∧ van.iso.age ≤ 6553500 ∧ van.mtr.unassigned.wh ≤ 32767 := by decide +kernel

theorem witness_TurnOrderVisitsBlock : 7 < Htr.reset.mode.burst.len ∧ inBlock Htr.reset 7 = true := by decide

theorem witness_FramesSpellRequests : wellFormed (.authorize ⟨.F, 7⟩ 1 1 2 3 4) = true
    ∧ requestPort (.authorize ⟨.F, 7⟩ 1 1 2 3 4) = some .F
    ∧ frameWords (.authorize ⟨.F, 7⟩ 1 1 2 3 4) = some [0x4001, 1, 2, 3, 4]
    ∧ frameLength (.authorize ⟨.F, 7⟩ 1 1 2 3 4) = [0x4001, 1, 2, 3, 4].length + ([8, 9] : List Word).length
    ∧ .F ∈ requestRoles (.authorize ⟨.F, 7⟩ 1 1 2 3 4) ∧ 4 < [0x4001, 1, 2, 3, 4].length
    ∧ wellFormed (.rest ⟨.V, 1⟩ 0) = true ∧ frameWords (.rest ⟨.V, 1⟩ 0) = some [0x3000, 0] ∧ .V ∉ requestRoles (.rest ⟨.V, 1⟩ 0)
    ∧ frameLength (.rest ⟨.V, 1⟩ 0) = 1 ∧ wellFormed (.imageWrite ⟨.F, 1⟩ 0 0) = false := by decide

def heldInReset : State := { State.reset with portV := { PortState.reset with resetAsserted := true } }

theorem witness_FramesWithoutEffect :
    (requestPort (.noOperation ⟨.V, 1⟩) = some .V ∧ (heldInReset.port .V).resetAsserted = true)
      ∧ (requestPort (.endSession ⟨.V, 1⟩) = some .V ∧ .V ∉ requestRoles (.endSession ⟨.V, 1⟩)) ∧ Ready .V State.reset
      ∧ definedCodes.contains (0x0A#8).toNat = false :=
  ⟨by decide, by decide, ready_of rfl, by decide⟩

theorem witness_FramesReturnWords : requestPort (.readWord ⟨.V, 2⟩) = some .V
    ∧ (∀ how, Instr.readWord ⟨.V, 2⟩ ≠ .frameIncomplete .V how) ∧ requestPort (.endRest ⟨.P, 1⟩) = some .P
    ∧ (∀ how, Instr.endRest ⟨.P, 1⟩ ≠ .frameIncomplete .P how) ∧ Ready .V State.reset ∧ Ready .P State.reset :=
  ⟨rfl, (by intro how h; cases h), rfl, (by intro how h; cases h), ready_of rfl, ready_of rfl⟩

theorem witness_PointersAndWindows : Ready .V State.reset ∧ 63 < (64#8).toNat ∧ (63#8).toNat ≤ 63
    ∧ readable State.reset .V ((63#8).setWidth 6) = none ∧ readable State.reset .V ((26#8).setWidth 6) = some 63
    ∧ 3 < (4#8).toNat ∧ (3#8).toNat = (3 : Fin 4).val :=
  ⟨ready_of rfl, by decide, by decide, by decide +kernel, by decide +kernel, by decide, by decide⟩

def reading (sub : Fin 3) (snap : Snapshot) : State :=
  { State.reset with portV := { PortState.reset with direction := .read, sub := sub, snapshot := snap } }

/-- Port V with two words staged for local number n under the built-in windows. -/
def stagedClosed (n : BitVec 6) : State := { State.reset with portV := { staging n 0 0 with windows := builtInWindows } }
/-- Port V with two words staged for entry n through an open window. -/
def stagedOpen (n : BitVec 6) : State := { State.reset with portV := staging n 0 0 }

theorem witness_WordsReadAndStaged :
    (Ready .V State.reset ∧ (State.reset.port .V).direction ≠ .read ∧ (State.reset.port .V).direction ≠ .write)
      ∧ (Ready .V (reading 1 .mapped) ∧ ((reading 1 .mapped).port .V).sub ≠ 2 ∧ ((reading 2 .unmapped).port .V).sub = 2)
      ∧ (Ready .V (stagedClosed 0) ∧ ((stagedClosed 0).port .V).sub = 2 ∧ mapWindow ((stagedClosed 0).port .V) 0 = none)
      ∧ ((mapWindow ((stagedClosed 16).port .V) 16).map (·.protect) = some true)
      ∧ ((mapWindow ((stagedOpen 53).port .V) 53).map fun w => (w.protect, w.entryOf 53)) = some (false, 53)
      ∧ ((mapWindow ((stagedOpen 17).port .V) 17).map fun w => (w.protect, w.entryOf 17)) = some (false, 17) :=
  ⟨⟨ready_of rfl, by decide, by decide⟩, ⟨ready_of rfl, by decide, by decide⟩,
    ⟨ready_of rfl, by decide, by decide +kernel⟩, by decide +kernel, by decide +kernel, by decide +kernel⟩

/-- Port F with two words staged for entry n, and the tariff lock held. -/
def lockedEdit (n : BitVec 6) : State :=
  { van with portF := staging n 0 0, mtr := { van.mtr with lockHeld := true, lockTimer := .running 5000 } }

def openWindow : Window := ⟨0, 63, 0, false, true⟩

theorem witness_CommitStoresEntry : Ready .V (stagedOpen 16) ∧ ((stagedOpen 16).port .V).direction = .write
    ∧ ((stagedOpen 16).port .V).sub = 2 ∧ mapWindow ((stagedOpen 16).port .V) 16 = some openWindow
    ∧ (openWindow.entryOf 16).toNat = (16 : Fin 53).val
    ∧ Ready .F (lockedEdit 52) ∧ mapWindow ((lockedEdit 52).port .F) 52 = some openWindow
    ∧ (openWindow.entryOf 52).toNat = (52 : Fin 53).val ∧ (lockedEdit 52).mtr.lockHeld = true :=
  ⟨ready_of rfl, by decide, by decide, by decide +kernel, by decide, ready_of rfl, by decide +kernel, by decide, by decide⟩

theorem witness_FieldRanges : (2 : Fin 53).val ≤ 2 ∧ 9 ≤ (16 : Fin 53).val ∧ 17 ≤ (48 : Fin 53).val ∧ 49 ≤ (52 : Fin 53).val
    ∧ rangeStep 7400 49 ⟨9, 9, 9⟩ = ⟨9, 0, 0⟩ := by decide +kernel

/-- A commit of entry 8 finds zones at work in the van, and none in the reset state; one of entry 5 finds mode CHARGE. -/
theorem witness_CommitStoresEntry_modes : anyHot (lockedEdit 8).htr = true ∧ anyHot (stagedOpen 8).htr = false
    ∧ (lockedEdit 5).alc.record.mode = .charge ∧ mapWindow ((lockedEdit 8).port .F) 8 = some openWindow
    ∧ mapWindow ((lockedEdit 4).port .F) 4 = some openWindow := by decide +kernel

def acking (line : LineMode) : State :=
  { State.reset with portF := { PortState.reset with clearMode := .ackClears, lineMode := line, pulsing := line == .pulse } }

theorem witness_NoticesReadAndAcknowledged : Ready .V State.reset ∧ (State.reset.port .V).clearMode = .readClears
    ∧ Ready .F (acking .pulse) ∧ ((acking .pulse).port .F).clearMode = .ackClears ∧ ((acking .pulse).port .F).pulsing = true
    ∧ ((acking .level).port .F).lineMode = .level :=
  ⟨ready_of rfl, by decide, ready_of rfl, by decide, by decide, by decide⟩

theorem witness_RaisedKindJoins : Takes .plugChange (State.reset.port .V)
    ∧ flag (State.reset.port .V).pending Notice.plugChange.index = false
    ∧ Takes .restart (State.reset.port .V) ∧ flag (State.reset.port .V).pending Notice.restart.index = true
    ∧ ¬ Takes .plugChange (heldInReset.port .V) := by
  unfold Takes; decide

theorem witness_LinesSafeKept : LinesSafe (queued (.endSession ⟨.F, 1⟩)) ∧ ∃ t, step (queued (.endSession ⟨.F, 1⟩)) = .next t := by
  refine ⟨?_, _, rfl⟩
  unfold LinesSafe PortState.LineSafe; decide +kernel

/-- The van with the tariff lock HELD: its band is 1, and the clock is unknown, so that an evaluation finds 0. -/
def lockedVan : State := { van with mtr := { van.mtr with lockHeld := true, lockTimer := .running 5000 } }

theorem witness_PortResets : van.powered = true ∧ (van.port .V).resetAsserted = false ∧ van.alc.hold ≠ .none
    ∧ lockedVan.mtr.lockHeld = true ∧ (lockedVan.port .F).resetAsserted = false ∧ lockedVan.ses.session = .opened
    ∧ lockedVan.mtr.clock = none ∧ findBand lockedVan ≠ lockedVan.mtr.band
    ∧ (heldInReset.port .V).resetAsserted = true := by decide +kernel

/-- R137, R142, R143: the reset of port F breaks the lock; the band's change asks for a checkpoint, TIME_UNKNOWN set. -/
theorem test_port_reset_breaks_the_lock : after (.portReset .F) lockedVan
    (fun t => !t.mtr.lockHeld && t.mtr.lockTimer == .stopped && t.mtr.band == 0 && t.ses.timeUnknown
      && t.rst.writer != .idle) = true := by decide +kernel

theorem witness_PlanSafeKept : PlanSafe (queued .allocationInterval) ∧ ∃ t, step (queued .allocationInterval) = .next t := by
  refine ⟨?_, _, rfl⟩
  unfold PlanSafe; decide +kernel

/-- The plug contacts with the given raw levels, their timers running. -/
def contacts (a b : Bool) (s : State) : State :=
  { s with ses := { s.ses with rawA := a, rawB := b, timerA := .running 100, timerB := .running 100 } }

theorem witness_ContactsDebounced :
    (contacts true false State.reset).powered = true
      ∧ (debounced (contacts true false State.reset).ses true true).debA = some true
      ∧ (debounced (contacts true false State.reset).ses true true).debB = some false
      ∧ (debounced (contacts true false State.reset).ses true false).debB = none
      ∧ plugTable true false ≠ State.reset.ses.plug ∧ plugTable true true = van.ses.plug := by decide +kernel

theorem witness_UnplugTurnsOff : (contacts false true van).powered = true ∧ (contacts false true van).ses.plug = .plugged
    ∧ (debounced (contacts false true van).ses true true).debA = some false
    ∧ (debounced (contacts false true van).ses true true).debB = some true ∧ ¬ (false = true ∧ true = true)
    ∧ (contacts false true van).ses.session = .opened := by decide +kernel

/-- The van after its final write, still unplugged. -/
def closing : State := { van with ses := { van.ses with session := .closing, plug := .unplugged } }

theorem witness_PlugInMovesSession :
    (contacts true true State.reset).powered = true ∧ State.reset.ses.plug ≠ .plugged ∧ State.reset.ses.session = .none
      ∧ (debounced (contacts true true State.reset).ses true true).debA = some true
      ∧ (debounced (contacts true true State.reset).ses true true).debB = some true
      ∧ (contacts true true closing).ses.session ≠ .none ∧ (contacts true true closing).ses.plug ≠ .plugged := by
  decide +kernel

/-- The reset part plugged in, session PLUGGED. -/
def pluggedIn (account lock : Bool) (nv : Nv) : State :=
  { State.reset with
    ses := { van.ses with session := .plugged, defaultAccount := account }
    mtr := { Mtr.reset with lockHeld := lock }
    nv := nv }

/-- A store whose slots below 63 hold records. -/
def lastSlotFree : Nv :=
  { Nv.fresh with slots := (Vector.replicate 64 ⟨.record 1, Vector.replicate 53 0⟩).set 63 ⟨.free, Vector.replicate 53 0⟩ }

theorem witness_AuthorizeRefusedOrOpens :
    (Ready .F van ∧ (2 : BitVec 8) ≠ 0 ∧ (2 : BitVec 8) ≠ 1 ∧ van.ses.session = .opened
      ∧ State.reset.ses.session = .none ∧ (pluggedIn false false Nv.fresh).ses.defaultAccount = false
      ∧ (pluggedIn true true Nv.fresh).mtr.lockHeld = true
      ∧ (pluggedIn true false { Nv.fresh with counter := 0 }).nv.counter = 0)
    ∧ Ready .F (pluggedIn true false lastSlotFree) ∧ (pluggedIn true false lastSlotFree).ses.session = .plugged
    ∧ (pluggedIn true false lastSlotFree).ses.defaultAccount = true
    ∧ (pluggedIn true false lastSlotFree).mtr.lockHeld = false
    ∧ (pluggedIn true false lastSlotFree).nv.slots[(63 : Fin 64)].mark = .free
    ∧ (∀ j : Fin 64, j < 63 → (pluggedIn true false lastSlotFree).nv.slots[j].mark ≠ .free)
    ∧ (pluggedIn true false lastSlotFree).nv.counter ≠ 0 :=
  ⟨⟨ready_of rfl, by decide, by decide, rfl, rfl, rfl, rfl, rfl⟩, ready_of rfl, rfl, rfl, rfl, by decide +kernel,
    by decide +kernel, by decide⟩

theorem witness_EndSession : Ready .V van ∧ PortId.V ≠ .F ∧ Ready .F van ∧ van.ses.session = .opened
    ∧ Ready .F closing ∧ closing.ses.session ≠ .opened :=
  ⟨ready_of rfl, by decide, ready_of rfl, rfl, ready_of rfl, by decide⟩

theorem witness_SessionLeavesInOrder : (∃ t, exec (.endSession ⟨.F, 1⟩) van = .next t) ∧ van.ses.session = .opened
    ∧ (∃ t, exec .finalWriteComplete closing = .next t) ∧ closing.ses.session = .closing :=
  ⟨⟨_, rfl⟩, rfl, ⟨_, rfl⟩, rfl⟩

theorem witness_DemandSafeKept : DemandSafe (queued (.endSession ⟨.F, 1⟩)) ∧ ∃ t, step (queued (.endSession ⟨.F, 1⟩)) = .next t := by
  refine ⟨?_, _, rfl⟩
  unfold DemandSafe; decide +kernel

/-- The van that wants nothing, with the given withdrawal. -/
def content (w : Withdrawal) : State :=
  { van with sup := { van.sup with withdrawal := w }, htr := Htr.reset }

theorem witness_DemandLineEvaluated : State.reset.ses.plug ≠ .plugged
    ∧ closing.ses.session ≠ .opened ∧ van.ses.plug = .plugged ∧ permission van = true ∧ wantsPower van = true
    ∧ permission (content .waiting) = true ∧ wantsPower (content .waiting) = false
    ∧ (content .waiting).sup.demand = .ready ∧ (content .marked).sup.withdrawal = .marked
    ∧ (content .waiting).commission = false := by decide +kernel

theorem witness_PilotAndPhases :
    ((450 * 2222222 ≤ 1000000000 ∧ 1000000000 ≤ 550 * 2222222)
      ∧ (450 * 1818182 ≤ 1000000000 ∧ 1000000000 ≤ 550 * 1818182) ∧ ¬ 450 * 2222223 ≤ 1000000000
      ∧ ¬ 1000000000 ≤ 550 * 1818181 ∧ (decoding 500 .absent).sup.history.length = 7
      ∧ State.reset.sup.history.length < 7 ∧ State.reset.sup.holdTimer = .stopped
      ∧ ({ van.sup with holdTimer := .running 200 } : Sup).holdTimer ≠ .stopped)
    ∧ State.reset.powered = true ∧ [999, 0, 0].filter (fun u => decide (1000 ≤ u)) = []
    ∧ [1000, 999, 0].filter (fun u => decide (1000 ≤ u)) ≠ [] := by decide

/-- The charging van under a rest. -/
def resting : State := { charging 6000 with alc := { (charging 6000).alc with resting := true } }

theorem witness_GrantRecordBalances : State.reset.iso.uBus < 500
    ∧ ¬ ((charging 6000).alc.window = .granted ∨ (charging 6000).alc.resting = true ∨ (charging 6000).iso.uBus < 500)
    ∧ 0 < (computeRecord (charging 6000)).gAux ∧ 0 < (computeRecord (charging 6000)).gChg
    ∧ (computeRecord (charging 6000)).boundary = false ∧ (computeRecord fourZones).boundary = true
    ∧ resting.alc.resting = true ∧ (computeRecord resting).mode = .charge := by decide +kernel

/-- The van after its power-on reset, no zone checked yet. -/
def unchecked : State :=
  { van with htr := { van.htr with zones := Vector.replicate 8 ⟨.unchecked, some 50, true, 800⟩, energized := [] } }

theorem witness_HeatQuantized :
    (turnQueue unchecked = [0] ∧ unchecked.htr.check = none ∧ unchecked.alc.record.source ≠ .none)
      ∧ turnQueue { unchecked with iso := { unchecked.iso with uBus := 499 } } = []
      ∧ checkPhase unchecked = true ∧ checkPhase fourZones = false ∧ fourZones.htr.pendingMode = none
      ∧ turnQueue fourZones = [5, 4, 7, 6]
      ∧ turnQueue { fourZones with htr := { fourZones.htr with pendingMode := some fourZones.htr.mode } } = []
      ∧ (prefixRule fourZones 3600).p = 0 ∧ (prefixRule fourZones 2000).p = 2 := by decide +kernel

/-- The charging van with its bus not live and the mode in force OFF. -/
def heating : State := withEntry 5 ⟨0, 0, 0⟩ { charging 0 with alc := { (charging 0).alc with record := .reset } }

theorem witness_BudgetAndModeChosen : inputAllowed (charging 6000) = true ∧ inputAllowed State.reset = false
    ∧ 0 < bGrid (charging 6000) ∧ busLive (charging 6000) = true ∧ contradiction (charging 6000) = false
    ∧ 0 < bGrid heating ∧ busLive heating = false ∧ heatDemand heating = true ∧ contradiction heating = false
    ∧ contradiction (withEntry 5 ⟨0, 0, 0⟩ (charging 0)) = true ∧ heating.alc.changeover = .stopped := by decide +kernel

theorem witness_IntervalPublishes : van.powered = true
    ∧ ({ van.alc with window := .waiting, hold := .none } : Alc).hold ≠ .held ∧ van.sup.withdrawal = .none
    ∧ (van.alc.record.mode = .charge ∧ busLive van = false) := by decide

theorem witness_ModesNeverMeet : (∃ t, exec .allocationInterval van = .next t) ∧ van.alc.record.mode = .charge
    ∧ heating.alc.record.mode = .off ∧ (∃ t, exec .allocationInterval heating = .next t) :=
  ⟨⟨_, rfl⟩, rfl, rfl, ⟨_, rfl⟩⟩

theorem witness_StageLinesAndTimers : van.powered = true ∧ van.alc.freshTimer = .stopped ∧ van.alc.stageReady = true
    ∧ State.reset.alc.stageReady = false ∧ van.alc.stageFault = false
    ∧ ({ van.alc with stageFault := true, freshTimer := .running 2000 } : Alc).freshTimer ≠ .stopped := by decide

theorem witness_HoldAndRestRequests : Ready .V van ∧ van.alc.hold ≠ .none ∧ Ready .V (charging 0)
    ∧ (charging 0).alc.hold = .none ∧ (charging 0).iso.grade = .good ∧ (charging 0).iso.lockout = false
    ∧ (charging 0).iso.age < overdueLimit (charging 0).iso ∧ State.reset.iso.grade = .unknown
    ∧ Ready .P van ∧ van.alc.resting = false ∧ ({ van.alc with resting := true } : Alc).resting = true :=
  ⟨ready_of rfl, by decide, ready_of rfl, by decide, by decide, by decide, by decide, by decide, ready_of rfl, by decide,
    by decide⟩

theorem witness_HoldSafeKept : HoldSafe (queued (.busConversion 3824 1176))
    ∧ (queued (.busConversion 3824 1176)).alc.hold = .held ∧ ∃ t, step (queued (.busConversion 3824 1176)) = .next t := by
  refine ⟨?_, rfl, _, rfl⟩
  unfold HoldSafe; decide +kernel

theorem witness_ConversionTakesReadings : van.powered = true ∧ (van.zone 5).state = .energized
    ∧ zoneTarget van 5 + 100 ≤ 250 ∧ ¬ zoneTarget van 5 + 100 ≤ 249 ∧ zoneTarget van 5 - zoneHysteresis van 5 = 130
    ∧ (checkingZone none false).htr.check.isSome = true := by decide +kernel

/-- The van with a measurement settling, restarted n times so far, under its window. -/
def measuring (n : Nat) (s : State) : State :=
  { s with
    alc := { s.alc with window := .granted, hold := .none }
    iso := { s.iso with phase := .settleB, bridge := .b, purpose := some .periodic, restarts := n, phaseTimer := .running 400 } }

/-- R109: a switch change restarts the measurement from SETTLE_A with the restart count up; the third discards it. -/
theorem test_switch_changes_restart_and_discard :
    after (.heaterConversion (Vector.replicate 8 none)) (measuring 1 van)
      (fun t => t.iso.phase == .settleA && t.iso.restarts == 2 && t.alc.window == .granted) = true
    ∧ after (.heaterConversion (Vector.replicate 8 none)) (measuring 2 van)
      (fun t => t.iso.phase == .idle && t.iso.bridge == .opened && t.alc.window == .idle) = true := by decide +kernel

theorem van_sound : ZonesSound van := sound_of rfl (by decide +kernel) (by decide +kernel) (by decide)

/-- The van with zone 0 not checked yet, offered for its check. -/
def offering : State :=
  { van with htr := { van.htr with
      zones := van.htr.zones.set 0 ⟨.unchecked, some 50, true, 800⟩
      inbox := [{ van.htr.applied with gHeat := 1600, zones := [(0, 800), (5, 800)] }] } }

/-- The van offered its OFF zone 0 beside zone 5, by a boundary record or by one between two boundaries. -/
def offeringOff (boundary : Bool) : State :=
  { van with htr := { van.htr with
      inbox := [{ van.htr.applied with gHeat := 1600, zones := [(0, 800), (5, 800)], boundary := boundary }] } }

/-- R73, R90: only a boundary record energizes a zone that is OFF. -/
theorem test_no_zone_energized_between_boundaries :
    after .grantRecordApply (offeringOff false) (fun t => (t.zone 0).state == .off && t.htr.energized == [5]) = true
    ∧ after .grantRecordApply (offeringOff true) (fun t => (t.zone 0).state == .energized && t.htr.energized == [5, 0]) = true := by
  decide +kernel

theorem witness_SwitchesReported : (measuring 0 van).iso.phase.inFlight = true ∧ (measuring 1 van).iso.restarts < 2
    ∧ 2 ≤ (measuring 2 van).iso.restarts ∧ ZonesSound (measuring 2 (offeringOff true))
    ∧ (measuring 2 (offeringOff true)).htr.inbox.map (·.boundary) = [true] :=
  ⟨rfl, by decide, by decide, sound_of rfl (by decide +kernel) (by decide +kernel) (by decide), rfl⟩

theorem witness_GrantRecordApplied : van.powered = true ∧ ZonesSound van ∧ van.htr.inbox = []
    ∧ offering.powered = true ∧ ZonesSound offering ∧ offering.htr.inbox.length = 1
    ∧ (offering.zone 0).state = .unchecked ∧ 500 ≤ offering.iso.uBus ∧ offering.htr.pendingMode = none
    ∧ ([0, 5] : List (Fin 8)).Nodup :=
  ⟨rfl, van_sound, rfl, rfl, sound_of rfl (by decide +kernel) (by decide +kernel) (by decide), rfl, by decide +kernel,
    by decide, rfl, by decide⟩

/-- R82: the check of a zone rated 800 W at 380.0 V expects 2.1 A. -/
theorem test_check_begins : after .grantRecordApply offering
    (fun t => (t.zone 0).state == .checking && t.htr.check == some ⟨0, 21, false, none, false, false⟩) = true := by
  decide +kernel

theorem witness_CheckPulsesSlotsAndClearZone : van.powered = true ∧ van.htr.check = none
    ∧ (checkingZone (some .pass) false).htr.check = some ⟨0, 22, false, some .pass, true, false⟩
    ∧ ((checkingZone (some .pass) false).zone 0).state = .checking
    ∧ (checkingZone none false).alc.window ≠ .granted ∧ (checkingZone none false).iso.phase.inFlight = false
    ∧ (measuring 2 (checkingZone none false)).iso.phase.inFlight = true
    ∧ Ready .P van ∧ 7 < (8#8).toNat ∧ (7#8).toNat = (7 : Fin 8).val ∧ (∀ k, (van.zone 7).state ≠ .faulted k)
    ∧ ({ van.zone 7 with state := .faulted .open } : Zone).state = .faulted .open :=
  ⟨rfl, rfl, by decide +kernel, by decide +kernel, by decide, by decide, rfl, ready_of rfl, by decide, by decide,
    by intro k; cases k <;> decide, rfl⟩

theorem witness_HeatSafeKept : ZonesSound (queued (.endSession ⟨.F, 1⟩)) ∧ HeatSafe (queued (.endSession ⟨.F, 1⟩))
    ∧ HeatSafe State.reset ∧ ∃ t, step (queued (.endSession ⟨.F, 1⟩)) = .next t := by
  refine ⟨van_sound, ?_, ?_, _, rfl⟩ <;> unfold HeatSafe <;> decide +kernel

theorem witness_DrawSafeKept : ZonesSound (queued (.endSession ⟨.F, 1⟩)) ∧ DrawSafe (queued (.endSession ⟨.F, 1⟩))
    ∧ heatDrawn (queued (.endSession ⟨.F, 1⟩)) = 800 ∧ ∃ t, step (queued (.endSession ⟨.F, 1⟩)) = .next t := by
  refine ⟨van_sound, ⟨?_, ?_⟩, by decide +kernel, _, rfl⟩
  · intro r h; cases h
  · decide +kernel

theorem witness_BusConverted : van.powered = true ∧ van.iso.localization.suspendsPeriodic = false
    ∧ 500 ≤ 250 + 250 ∧ van.iso.longDead = false ∧ 250 + 249 < 500 := by decide

/-- The van before its bus came up: grade GOOD, LONG_DEAD set, nothing energized. -/
def longDead : State :=
  { van with
    sup := { van.sup with demand := .present }
    htr := { Htr.reset with zones := Vector.replicate 8 (coldZone 800) }
    iso := { van.iso with longDead := true, energizedLast := false, uBus := 0 } }

theorem witness_BusConverted_longDead : longDead.powered = true ∧ 500 ≤ 250 + 250 ∧ longDead.iso.longDead = true
    ∧ longDead.iso.phase = .idle ∧ longDead.iso.localization.suspendsPeriodic = false ∧ ZonesSound longDead
    ∧ HeatSafe longDead ∧ DemandSafe longDead := by
  refine ⟨rfl, by decide, rfl, rfl, rfl, sound_of rfl (by decide +kernel) (by decide +kernel) (by decide), ?_, ?_⟩
  · unfold HeatSafe; decide +kernel
  · unfold DemandSafe; decide +kernel

def inPhase (ph : Phase) : State := { van with iso := { van.iso with phase := ph, purpose := some .periodic, countA := 15 } }

theorem witness_MonitorTimersAndPhases : van.powered = true ∧ van.iso.phase = .idle ∧ van.iso.energizedLast = true
    ∧ van.iso.localization.suspendsPeriodic = false ∧ (inPhase .settleA).iso.phase = .settleA
    ∧ (inPhase .sampleA).iso.countA < 16 ∧ (inPhase .settleB).iso.phase = .settleB ∧ (inPhase .sampleB).iso.countB < 16
    ∧ ¬ ((inPhase .request).iso.phase = .idle) := by decide

theorem witness_BridgeResultComputed : bridgeResult 400 4000 0 0 0 0 = none
    ∧ (bridgeResult 400 4000 0 4 5 0).isSome = true ∧ (bridgeResult 400 4000 0 5 4 0).isSome = true
    ∧ (bridgeResult 400 4000 471 3529 2824 1176).isSome = true := by decide +kernel

def lockedOut : State :=
  { longDead with iso := { longDead.iso with lockout := true, localization := .probing 7 }, htr := { longDead.htr with
      zones := longDead.htr.zones.set 7 ⟨.probed .off, some 50, true, 800⟩ } }

/-- SAMPLE_B of the worked example of section 6.6. -/
def sampled : State :=
  { van with iso := { van.iso with
      phase := .sampleB, purpose := some .periodic, upA := 471, unA := 3529, sumUpB := 16 * 2824, sumUnB := 16 * 1176 } }

theorem witness_MeasurementEnds : sampled.powered = true ∧ sampled.iso.phase = .sampleB ∧ 5 ≤ sampled.iso.period
    ∧ bridgeResult sampled.iso.rref sampled.iso.rdiv sampled.iso.upA sampled.iso.unA (sampled.iso.sumUpB / 16)
      (sampled.iso.sumUnB / 16) = some (1000, 3992, 1000, 2500)
    ∧ bridgeResult 400 4000 0 0 ((inPhase .sampleB).iso.sumUpB / 16) 0 = none := by decide +kernel

/-- SAMPLE_B of a measurement of the localization. -/
def sampledFor (pu : Purpose) (l : Localization) : State :=
  { sampled with
    alc := { sampled.alc with hold := .suspended }
    iso := { sampled.iso with purpose := some pu, localization := l, grade := .warning, lockout := true }
    htr := lockedOut.htr }

theorem witness_MeasurementEnds_uses : sampled.iso.purpose = some .periodic ∧ (sampledFor .baseline .baseline).powered = true
    ∧ (sampledFor .baseline .baseline).iso.localization = .baseline
    ∧ (sampledFor .probe (.probing 7)).iso.localization = .probing 7
    ∧ ((sampledFor .probe (.probing 7)).zone 7).state = .probed .off
    ∧ (sampledFor .periodic .doneNone).alc.hold = .suspended := by decide +kernel

/-- R66: a completed measurement makes a SUSPENDED hold HELD again; R122: a probe that reads GOOD returns its zone. -/
theorem test_probe_returns_the_zone : after .measurementPhaseEnd (sampledFor .probe (.probing 7))
    (fun t => (t.zone 7).state == .off && t.iso.localization == .probeWait && t.alc.hold == .held
      && t.portV.holds .holdChange) = true := by decide +kernel

theorem witness_GradeDecidedAndFaultStops : State.reset.iso.grade = .unknown ∧ van.iso.grade = .good
    ∧ ResultClass.good.toGrade = van.iso.grade ∧ ResultClass.warning.toGrade ≠ van.iso.grade
    ∧ van.iso.candidate ≠ some .warning ∧ van.iso.grade ≠ .fault ∧ ZonesSound van ∧ van.iso.lockout = false :=
  ⟨rfl, rfl, rfl, by decide, by decide, by decide, van_sound, rfl⟩

/-- A localization run with the localization conditions met, zone 0 the last examined, two zones marked. -/
def localizing (l : Localization) (long : Bool) : State :=
  withEntry 5 ⟨0, 0, 1⟩ { lockedOut with
    alc := Alc.reset
    iso := { lockedOut.iso with
      grade := .fault, localization := l, longDead := long, lastExamined := some 0, marked := 2,
      baselineClass := some .warning } }

theorem localizing_sound : ZonesSound (localizing (.probing 7) true) :=
  sound_of rfl (by decide +kernel) (by decide +kernel) (by decide)

theorem witness_LocalizationRuns : (localizing .probeWait false).powered = true ∧ 500 ≤ 250 + 250 ∧ 250 + 249 < 500
    ∧ (localizing .probeWait false).iso.longDead = false ∧ (localizing .probeWait true).iso.longDead = true
    ∧ (localizing .probeWait false).iso.localization.suspendsPeriodic = true
    ∧ (localizing .baselineWait false).iso.localization.suspendsPeriodic = true
    ∧ (localizing (.probing 7) false).iso.localization.suspendsPeriodic = true
    ∧ busLive (localizing .probeWait false) = true ∧ (localizing .probeWait false).alc.record.mode = .off
    ∧ (localizing .probeWait false).iso.phase = .idle ∧ ((localizing .probeWait false).zone 1).state = .off
    ∧ ZonesSound (localizing (.probing 7) true) ∧ Localization.probeWait ≠ .baseline :=
  ⟨rfl, by decide, by decide, rfl, rfl, rfl, rfl, rfl, by decide +kernel, rfl, rfl, by decide +kernel,
    localizing_sound, by decide⟩

/-- R121 to R123: the next zone is probed; after the last one the run ends with the lockout clear and the baseline's grade. -/
theorem test_next_zone_is_probed : after (.busConversion 250 250) (localizing .probeWait false)
    (fun t => t.iso.localization == .probing 1 && (t.zone 1).state == .probed .off && t.iso.phase == .request) = true := by
  decide +kernel
theorem test_run_ends_with_a_culprit : after (.busConversion 250 250)
    { localizing .probeWait false with iso := { (localizing .probeWait false).iso with lastExamined := some 7 } }
    (fun t => t.iso.localization == .doneCulprit && !t.iso.lockout && t.iso.grade == .warning) = true := by decide +kernel

/-- R109: the probed zone's return is a switch change; the third discards the probe's measurement. -/
theorem test_clear_lockout_disturbs_the_measurement : after (.clearLockout ⟨.V, 1⟩) (measuring 2 lockedOut)
    (fun t => (t.zone 7).state == .off && t.iso.phase == .idle && t.alc.window == .idle) = true := by decide +kernel

theorem witness_LockoutCleared : Ready .V van ∧ van.iso.lockout = false ∧ Ready .V lockedOut ∧ lockedOut.iso.lockout = true
    ∧ lockedOut.iso.latest = some ⟨1000, 3992, 1000, 2500, .good⟩ ∧ (lockedOut.zone 7).state = .probed .off :=
  ⟨ready_of rfl, rfl, ready_of rfl, rfl, rfl, by decide +kernel⟩

theorem witness_SharesOfEnergy : (gridRecord 1 0 0).source = .grid ∧ 0 < (gridRecord 1 0 0).gHeat
    ∧ (gridRecord 0 0 0).gHeat + (gridRecord 0 0 0).gAux + (gridRecord 0 0 0).s = 0
    ∧ (sharesOf (gridRecord 1 1 1) 2).chg ≠ 2 * 1 / 3 ∧ (sharesOf (gridRecord 2 1 1) 3).heat ≠ 3 * 2 / 4 := by decide +kernel

/-- The van's clock at the last tenth before a slot boundary; without a schedule the band found is 0, not 1. -/
def lastTenth (lock : Bool) : State :=
  { van with mtr := { van.mtr with clock := some 899, tenths := 9, lockHeld := lock } }

theorem witness_MeterIntervalBooks : van.powered = true ∧ van.ses.session = .opened ∧ State.reset.ses.session ≠ .opened
    ∧ van.mtr.clock = none ∧ (lastTenth true).mtr.clock = some 899 ∧ slotOf (899 + 1) ≠ slotOf 899
    ∧ State.reset.mtr.unassigned.residue + 35999 < 36000 ∧ State.reset.mtr.unassigned.wh ≤ 32767
    ∧ (lastTenth false).mtr.lockHeld = false ∧ findBand (lastTenth false) ≠ (lastTenth false).mtr.band
    ∧ (van.mtr.lines.map (·.band)).Nodup ∧ (∀ l ∈ van.mtr.lines, l.price = van.ses.prices[l.band]) := by decide +kernel

/-- R136 and R143: the band change at a slot boundary starts a checkpoint. -/
theorem test_band_change_asks_for_a_checkpoint : after (.meterInterval 0 0 0) (lastTenth false)
    (fun t => t.mtr.band == 0 && t.rst.seq == 1) = true := by decide +kernel

theorem witness_AccountsSoundKept : AccountsSound (queued (.meterInterval 12800 0 0))
    ∧ ∃ t, step (queued (.meterInterval 12800 0 0)) = .next t := by
  refine ⟨?_, _, rfl⟩
  unfold AccountsSound; decide +kernel

theorem witness_BandFound :
    ((schedule 63000).mtr.clock = some 63000 ∧ scheduleValid (schedule 63000) 6 = true
      ∧ startSlot (schedule 63000) 6 ≤ 63000 / 900
      ∧ ∀ m, scheduleValid (schedule 63000) m = true → startSlot (schedule 63000) m ≤ 63000 / 900 →
        startSlot (schedule 63000) m < startSlot (schedule 63000) 6
          ∨ startSlot (schedule 63000) m = startSlot (schedule 63000) 6 ∧ m ≤ 6)
    ∧ (∀ m, scheduleValid (schedule 12600) m = true → 12600 / 900 < startSlot (schedule 12600) m)
    ∧ State.reset.mtr.clock = none ∧ ∀ n, scheduleValid State.reset n = false := by decide +kernel

theorem witness_TariffRequests : Ready .F van ∧ van.mtr.lockHeld = false ∧ Ready .F (lockedEdit 0)
    ∧ (lockedEdit 0).mtr.lockHeld = true ∧ (lockedEdit 0).mtr.lockTimer ≠ .stopped
    ∧ (lockedEdit 0).ses.session = .opened ∧ findBand (lockedEdit 0) ≠ (lockedEdit 0).mtr.band
    ∧ van.mtr.lockTimer = .stopped :=
  ⟨ready_of rfl, rfl, ready_of rfl, rfl, by decide, rfl, by decide +kernel, rfl⟩

def writing (w : Writer) : State := { van with rst := { Rst.reset with writer := w } }

theorem witness_CheckpointsWritten : van.ses.session = .opened ∧ van.mtr.checkpointTimer ≠ .stopped
    ∧ finalPending van.rst = false ∧ van.rst.writer = .idle ∧ finalPending (writing (.final 1 [])).rst = true
    ∧ (writing (.checkpoint .A 1 ⟨1, []⟩)).rst.writer = .checkpoint .A 1 ⟨1, []⟩
    ∧ (writing (.image Nv.fresh.image)).rst.writer = .image Nv.fresh.image := by decide +kernel

/-- A checkpoint or image write in flight, and a checkpoint that waits. -/
def waiting (w : Writer) : State := { van with rst := { Rst.reset with writer := w, seq := 1, waitCheckpoint := some ⟨1, [5]⟩ } }

theorem witness_CheckpointsWritten_waiting : (waiting (.image Nv.fresh.image)).powered = true
    ∧ (waiting (.image Nv.fresh.image)).rst.waitFinal = none ∧ (waiting (.image Nv.fresh.image)).rst.waitImage = none
    ∧ (waiting (.image Nv.fresh.image)).rst.waitCheckpoint ≠ none := by decide +kernel

/-- R152: the waiting checkpoint starts into the next area with the next sequence number. -/
theorem test_waiting_checkpoint_starts : after .imageWriteComplete (waiting (.image Nv.fresh.image))
    (fun t => t.rst.writer == .checkpoint .A 2 ⟨1, [5]⟩ && t.rst.nextArea == .B && t.rst.waitCheckpoint == none) = true := by
  decide +kernel

/-- A final write in flight for the reserved slot 0. -/
def finishing : State := { closing with rst := { Rst.reset with writer := .final 1 [21, 0, 1] } }

theorem witness_FinalWriteCompletes : finishing.powered = true ∧ finishing.rst.writer = .final 1 [21, 0, 1]
    ∧ finishing.ses.session = .closing ∧ slotReserved finishing.nv.slots 1 = some 0
    ∧ (writing .idle).rst.writer ≠ .final 1 [] := by decide +kernel

/-- The van's session with a tag, to be written as a record. -/
def tagged : State := { van with ses := { van.ses with tag := some ⟨0x4142, 0x4344, 0x4546, 0x4748⟩ } }

theorem witness_RecordWords : tagged.mtr.lines.length ≤ 4 ∧ 1 ≤ 3 ∧ tagged.ses.tag = some ⟨0x4142, 0x4344, 0x4546, 0x4748⟩
    ∧ 0 < tagged.mtr.lines.length ∧ 3 < ((Vector.replicate 53 0 : Vector Word 53).toList).length := by decide

/-- Table 12-5, R148: 32 words with a tag and one band line; the reason, the tag's flag, the record number and the line. -/
theorem test_record_words : (let r := sessionWords tagged 1 0
    r.length == 31 && r.take 5 == [32, 0, 1, 0x0101, 1] && (r.drop 24) == [1, 3100, 0, 1, 0, 0, 3100]) = true := by decide +kernel

theorem witness_RecordsStayUntilReleased : (∃ t, exec (.endSession ⟨.F, 1⟩) twoRecords = .next t)
    ∧ twoRecords.nv.slots[(2 : Fin 64)].mark = .record 2040 ∧ ∀ p len hi lo, Instr.endSession ⟨.F, 1⟩ ≠ .release ⟨p, len⟩ hi lo :=
  ⟨⟨_, rfl⟩, by decide +kernel, by intro p len hi lo h; cases h⟩

theorem witness_RecordsCollected : Ready .F van ∧ (∀ i : Fin 64, van.nv.slots[i].mark.isRecord = false) ∧ Ready .F twoRecords
    ∧ twoRecords.nv.slots[(2 : Fin 64)].mark = .record 2040
    ∧ (∀ j : Fin 64, twoRecords.nv.slots[j].mark.isRecord = true → j = 1 ∨ j = 2)
    ∧ twoRecords.nv.slots[(1 : Fin 64)].mark = .record 2041 ∧ van.recordBuffer = none
    ∧ (⟨2040, List.replicate 25 0, 24⟩ : RecordCopy).index < 25 :=
  ⟨ready_of rfl, by decide +kernel, ready_of rfl, by decide +kernel, by decide +kernel, by decide +kernel, rfl, by decide⟩

def commissioning (w : Writer) : State :=
  { writing w with commission := true, imageBuffer := some Nv.fresh.image }

theorem witness_ImageRequests : Ready .F van ∧ van.commission = false ∧ Ready .F (commissioning .idle)
    ∧ (commissioning .idle).commission = true ∧ imageBusy (commissioning .idle).rst = false
    ∧ (commissioning .idle).imageBuffer = some Nv.fresh.image
    ∧ imageBusy (commissioning (.image Nv.fresh.image)).rst = true ∧ 199 < (200#8).toNat
    ∧ (199#8).toNat = (199 : Fin 200).val :=
  ⟨ready_of rfl, rfl, ready_of rfl, rfl, by decide +kernel, rfl, by decide +kernel, by decide, by decide⟩

/-- The van without supply, a checkpoint of its session in area B. -/
def unsupplied : State :=
  { van with powered := false, nv := { van.nv with areaB := Area.written 1 (checkpointCopy van) } }

/-- An image of zero words but for a window of port P, port F's mask 0x0011, options 0 and 2, trims past their ranges, and a warning
threshold past its range, its CRC word formed. -/
def settings : Vector Word 200 :=
  let v : Vector Word 200 := ((Nv.fresh.image.set 8 0x0908).set 9 0x023D).set 28 0x0011
  sealImage ((((v.set 30 0x0005).set 34 250).set 35 9000).set 57 6000)

theorem imageCrc_set (v : Vector Word 200) (x : Word) : imageCrc (v.set 199 x) = imageCrc v := by
  unfold imageCrc
  congr 1
  apply List.ext_getElem <;> simp
  intro i h
  rw [Vector.getElem_set_ne _ _ (by omega)]

theorem sealed_passes (v : Vector Word 200) : imagePasses (sealImage v) = true := by
  simp [imagePasses, imagePasses.imageWordLast, sealImage, imageCrc_set]

theorem spoiled_fails (v : Vector Word 200) : imagePasses (v.set 199 (~~~ imageCrc v)) = false := by
  simp only [imagePasses, imagePasses.imageWordLast, imageCrc_set, Vector.getElem_set_self, beq_eq_false_iff_ne]
  intro h
  simpa using congrArg (fun w : Word => w.getLsbD 0) h

theorem witness_SettingsLoaded : imagePasses settings = true ∧ ∃ v : Vector Word 200, imagePasses v = false :=
  ⟨sealed_passes _, _, spoiled_fails settings⟩

/-- R171, R172, R183: the windows, the mask, the clamped trims and the clamped default of entry 7 that a passing image gives. -/
theorem test_settings_of_an_image : ((bootPort true settings .P false).windows[0] == ⟨8, 9, 61, false, true⟩
    && (bootPort true settings .F false).mask == 0x0011 && (bootIso builtInPlan true settings).rref == 300
    && (bootIso builtInPlan true settings).rdiv == 8000 && (loadPlan 22000 true settings)[7].w0 == 5000) = true := by
  decide +kernel

theorem witness_RestoreSettlesRecords : unsupplied.powered = false ∧ State.reset.rst.writer = .idle
    ∧ unsupplied.nv.areaA.isValid = false ∧ unsupplied.nv.areaB.isValid = true ∧ unsupplied.nv.areaB.number = 1
    ∧ unsupplied.nv.slots[(0 : Fin 64)].mark = .reserved 1
    ∧ passes unsupplied.nv.slots[(0 : Fin 64)].content = false :=
  ⟨rfl, rfl, by decide +kernel, by simp [unsupplied, Area.isValid, Area.written], rfl, by decide +kernel, by decide +kernel⟩

/-- R156 and Table 12-5: the restored record carries the close reason POWER_LOSS and the flag RESTORED. -/
theorem test_restored_record :
    (restoredRecord (Area.written 1 ⟨1, [22, 0, 1, 0x0120, 0x0002]⟩)).take 5 = [22, 0, 1, 0x0123, 0x0012] := by decide +kernel

theorem witness_PowerLossCutsWrite : van.powered = true ∧ van.rst.writer = .idle
    ∧ (writing (.checkpoint .B 1 ⟨1, []⟩)).rst.writer = .checkpoint .B 1 ⟨1, []⟩
    ∧ (commissioning (.image Nv.fresh.image)).rst.writer = .image Nv.fresh.image
    ∧ finishing.rst.writer = .final 1 [21, 0, 1] ∧ slotReserved finishing.nv.slots 1 ≠ some 63 := by decide +kernel

end Sys2Proof.Tests
end

section
/-! PROOFS. The close of a session: its demand line, its final record, its place with the store's writer; and END SESSION (R34, R35). -/

namespace Sys2Proof.Machine

/-! ## The demand line outside an OPEN session -/

/-- No session is OPEN, so R27's permission is missing whatever the grade and the van's wants: the plug alone decides. -/
theorem evalDemand_of_not_opened (s : State) (h : s.ses.session ≠ .opened) :
    evalDemand s = s.setSup
      { s.sup with demand := if s.ses.plug = .plugged then .present else .idle, withdrawal := .none } := by
  by_cases hp : s.ses.plug = .plugged
  · have hperm : permission s = false := by simp [permission, h]
    simp [evalDemand, demandLine, hp, hperm]
  · rw [evalDemand_unplugged s hp, if_neg hp]

/-! ## The final record and the writer -/

/-- The store's side of the handover (R151): it reads and writes the writer's fields alone. -/
theorem handoverFinal_rst (n : Word32) (ws : List Word) (s : State) :
    (handoverFinal n ws s).rst =
      if s.rst.writer = .idle then { s.rst with waitCheckpoint := none, writer := .final n ws }
      else { s.rst with waitCheckpoint := none, waitFinal := some (n, ws) } := by
  unfold handoverFinal
  split
  · next hw => rw [if_pos hw]; rfl
  · next hw => rw [if_neg hw]; rfl

/-- The store takes a close as the handover of the session's record, formed from the data as they are after the close (R35, R148). -/
theorem closeSession_rst (r : CloseReason) (s : State) (h : s.ses.session = .opened) :
    (closeSession r s).rst = (handoverFinal s.ses.number
      (withCrc (sessionWords { s with ses := (closeSession r s).ses } r.code (closeSession r s).ses.endTime)) s).rst := by
  obtain ⟨hses, -, -⟩ := closeSession_spec r s h
  rw [hses, handoverFinal_rst]
  unfold closeSession
  rw [if_pos h]
  simp only [evalDemand_keeps, raise_keeps, handoverFinal_rst]
  rfl

/-- A closed session gives no permission, so the demand line falls at the close (R27, R35). -/
theorem closeSession_sup (r : CloseReason) (s : State) (h : s.ses.session = .opened) :
    (closeSession r s).sup =
      { s.sup with demand := if s.ses.plug = .plugged then .present else .idle, withdrawal := .none } := by
  unfold closeSession
  rw [if_pos h]
  dsimp only
  rw [evalDemand_of_not_opened _ (by simp)]
  simp

/-! ## END SESSION (R34) -/

/-- The arm of END SESSION in the dispatch. -/
theorem exec_endSession (f : Frame) (s : State) : exec (.endSession f) s = execEndSession f s := rfl

/-- END SESSION on a port outside port F's role (R163). -/
theorem exec_endSession_not_permitted {p : PortId} (len : Nat) {s : State} (hr : Ready p s) (hp : p ≠ .F) :
    exec (.endSession ⟨p, len⟩) s = .next (answer p len .notPermitted [] s s) := by
  rw [exec_endSession, execEndSession, request_ready _ _ hr, if_neg (by simpa using hp)]

/-- END SESSION with no session OPEN. -/
theorem exec_endSession_no_session (len : Nat) {s : State} (hr : Ready .F s) (h : s.ses.session ≠ .opened) :
    exec (.endSession ⟨.F, len⟩) s = .next (answer .F len .noSession [] s s) := by
  rw [exec_endSession, execEndSession, request_admitted _ hr (List.mem_singleton_self _), if_neg h]
  rfl

/-- END SESSION on an OPEN session is the close with reason ENDED. -/
theorem exec_endSession_opened (len : Nat) {s : State} (hr : Ready .F s) (h : s.ses.session = .opened) :
    exec (.endSession ⟨.F, len⟩) s = .next (answer .F len .ok [] s (closeSession .ended s)) := by
  rw [exec_endSession, execEndSession, request_admitted _ hr (List.mem_singleton_self _), if_pos h]

/-- Settles O19: the two refusals, and the close's data part by part. -/
theorem endSession : Obligations.EndSession := by
  intro p len s hr
  refine ⟨exec_endSession_not_permitted len hr, ?_, ?_⟩
  · rintro rfl h
    exact exec_endSession_no_session len hr h
  · rintro rfl h
    obtain ⟨hses, hmtr, -⟩ := closeSession_spec .ended s h
    have hrst := closeSession_rst .ended s h
    rw [handoverFinal_rst] at hrst
    refine ⟨_, exec_endSession_opened len hr h, rfl, by simpa using hses, by simpa using hmtr, ?_, ⟨_, ?_, rfl⟩,
      by simpa using closeSession_sup .ended s h, (closeSession_told .ended s h).answered, ?_⟩
    · simp only [answer_keeps, hrst]
      split <;> rfl
    · simp only [answer_keeps, hrst]
      split <;> exact ⟨rfl, rfl⟩
    · simp [RestKept]

end Sys2Proof.Machine
end

section
/-! PROOFS. The block of the heating mode in force and its turn order: every zone of the block has exactly one position (R85). -/

namespace Sys2Proof.Machine

/-! ## The block -/

/-- L is a power of two (R11). -/
theorem burstLen_eq_two_pow (h : Htr) : ∃ k, burstLen h = 2 ^ k := by
  unfold burstLen
  cases h.mode.burst
  · exact ⟨0, rfl⟩
  · exact ⟨1, rfl⟩
  · exact ⟨2, rfl⟩
  · exact ⟨3, rfl⟩

theorem burstLen_pos (h : Htr) : 0 < burstLen h := by
  obtain ⟨k, hk⟩ := burstLen_eq_two_pow h
  exact hk ▸ Nat.two_pow_pos k

/-- The start zone's place in its block (R85's s_low). -/
def blockLow (h : Htr) : Nat := h.s.val % burstLen h

/-- The first zone of the block (R85's base). -/
def blockBase (h : Htr) : Nat := h.s.val - blockLow h

theorem blockLow_lt (h : Htr) : blockLow h < burstLen h := Nat.mod_lt _ (burstLen_pos h)

theorem blockBase_add_blockLow (h : Htr) : blockBase h + blockLow h = h.s.val :=
  Nat.sub_add_cancel (Nat.mod_le _ _)

/-- The base is a multiple of L. -/
theorem blockBase_eq (h : Htr) : blockBase h = h.s.val / burstLen h * burstLen h :=
  Nat.sub_eq_of_eq_add (Nat.div_add_mod' _ _).symm

/-- A block never passes the last zone, because every L divides 8. -/
theorem blockBase_add_burstLen_le (h : Htr) : blockBase h + burstLen h ≤ 8 := by
  have hs : h.s.val < 8 := h.s.isLt
  rw [blockBase_eq]
  unfold burstLen
  cases h.mode.burst <;> simp only [Burst.len] <;> omega

/-- The block holds the zones base to base + L − 1. -/
theorem inBlock_iff (h : Htr) (z : Fin 8) :
    inBlock h z = true ↔ blockBase h ≤ z.val ∧ z.val < blockBase h + burstLen h := by
  have hL := burstLen_pos h
  rw [inBlock, beq_iff_eq, Nat.div_eq_iff hL, ← blockBase_eq]
  omega

/-! ## Turn positions and offsets in the block -/

/-- The offset from the base of the zone at position i (R85's two orders). -/
def turnOffset (h : Htr) (i : Nat) : Nat :=
  if h.mode.interleaved = true then blockLow h ^^^ i else (blockLow h + i) % burstLen h

/-- The position at which offset o has its turn: XOR undoes itself, and the rotation is undone by the rest of the turn. -/
def turnPosition (h : Htr) (o : Nat) : Nat :=
  if h.mode.interleaved = true then blockLow h ^^^ o else (burstLen h - blockLow h + o) % burstLen h

/-- XOR stays below L, a power of two. -/
theorem xor_lt_burstLen (h : Htr) {a b : Nat} (ha : a < burstLen h) (hb : b < burstLen h) : a ^^^ b < burstLen h := by
  obtain ⟨k, hk⟩ := burstLen_eq_two_pow h
  rw [hk] at ha hb ⊢
  exact Nat.xor_lt_two_pow ha hb

theorem turnOffset_lt (h : Htr) {i : Nat} (hi : i < burstLen h) : turnOffset h i < burstLen h := by
  unfold turnOffset
  split
  · exact xor_lt_burstLen h (blockLow_lt h) hi
  · exact Nat.mod_lt _ (burstLen_pos h)

theorem turnPosition_lt (h : Htr) {o : Nat} (ho : o < burstLen h) : turnPosition h o < burstLen h := by
  unfold turnPosition
  split
  · exact xor_lt_burstLen h (blockLow_lt h) ho
  · exact Nat.mod_lt _ (burstLen_pos h)

/-- Two rotations that make up a whole turn cancel. -/
theorem rotate_rotate_of_add_eq {a b L i : Nat} (hab : a + b = L) (hi : i < L) : (a + (b + i) % L) % L = i := by
  rw [Nat.add_mod_mod, ← Nat.add_assoc, hab, Nat.add_mod_left, Nat.mod_eq_of_lt hi]

theorem turnPosition_turnOffset (h : Htr) {i : Nat} (hi : i < burstLen h) : turnPosition h (turnOffset h i) = i := by
  unfold turnPosition turnOffset
  split
  · exact Nat.xor_xor_cancel_left _ _
  · exact rotate_rotate_of_add_eq (Nat.sub_add_cancel (blockLow_lt h).le) hi

theorem turnOffset_turnPosition (h : Htr) {o : Nat} (ho : o < burstLen h) : turnOffset h (turnPosition h o) = o := by
  unfold turnPosition turnOffset
  split
  · exact Nat.xor_xor_cancel_left _ _
  · exact rotate_rotate_of_add_eq (Nat.add_sub_cancel' (blockLow_lt h).le) ho

/-! ## The zone at a position (R85) -/

/-- The zone at position i stands at that position's offset: the block ends at zone 7 at the latest, so nothing wraps. -/
theorem zoneAt_val (h : Htr) {i : Nat} (hi : i < burstLen h) : (zoneAt h i).val = blockBase h + turnOffset h i := by
  have hfit : blockBase h + turnOffset h i < 8 :=
    (Nat.add_lt_add_left (turnOffset_lt h hi) _).trans_le (blockBase_add_burstLen_le h)
  have hzone : zoneAt h i = Fin.ofNat 8 (blockBase h + turnOffset h i) := by
    unfold zoneAt turnOffset
    split <;> rfl
  rw [hzone]
  exact Nat.mod_eq_of_lt hfit

/-- Position 0 is the start zone in both orders. -/
theorem zoneAt_zero (h : Htr) : zoneAt h 0 = h.s := by
  have hoff : turnOffset h 0 = blockLow h := by
    unfold turnOffset
    split
    · exact Nat.xor_zero _
    · exact Nat.mod_eq_of_lt (blockLow_lt h)
  apply Fin.ext
  rw [zoneAt_val h (burstLen_pos h), hoff, blockBase_add_blockLow]

theorem inBlock_zoneAt (h : Htr) {i : Nat} (hi : i < burstLen h) : inBlock h (zoneAt h i) = true := by
  rw [inBlock_iff, zoneAt_val h hi]
  exact ⟨Nat.le_add_right _ _, Nat.add_lt_add_left (turnOffset_lt h hi) _⟩

/-- No zone has two positions. -/
theorem zoneAt_injective (h : Htr) {i j : Nat} (hi : i < burstLen h) (hj : j < burstLen h)
    (hz : zoneAt h i = zoneAt h j) : i = j := by
  have hoff : turnOffset h i = turnOffset h j :=
    Nat.add_left_cancel (by rw [← zoneAt_val h hi, ← zoneAt_val h hj, hz])
  rw [← turnPosition_turnOffset h hi, hoff, turnPosition_turnOffset h hj]

/-- Each zone of the block has a position. -/
theorem exists_zoneAt_of_inBlock (h : Htr) {z : Fin 8} (hz : inBlock h z = true) :
    ∃ i, i < burstLen h ∧ zoneAt h i = z := by
  obtain ⟨hlow, hhigh⟩ := (inBlock_iff h z).mp hz
  have ho : z.val - blockBase h < burstLen h := Nat.sub_lt_left_of_lt_add hlow hhigh
  refine ⟨turnPosition h (z.val - blockBase h), turnPosition_lt h ho, Fin.ext ?_⟩
  rw [zoneAt_val h (turnPosition_lt h ho), turnOffset_turnPosition h ho, Nat.add_sub_cancel' hlow]

/-- Settles O35: a position is an offset in the block under an invertible map, and the block fits into the eight zones. -/
theorem turnOrderVisitsBlock : Obligations.TurnOrderVisitsBlock := by
  intro h
  exact ⟨inBlock_iff h, fun _ hi => zoneAt_val h hi, zoneAt_zero h, fun _ hi => inBlock_zoneAt h hi,
    fun _ _ hi hj hz => zoneAt_injective h hi hj hz, fun _ hz => exists_zoneAt_of_inBlock h hz⟩

end Sys2Proof.Machine
end

section
/-! PROOFS. The band of the current slot: the schedule entry that R135 names is the one the model picks. -/

namespace Sys2Proof.Machine

/-! ## The entry picked -/

/-- No entry is picked exactly when none satisfies the condition. -/
theorem pickEntry_eq_none_iff (s : State) (ok : Fin 32 → Bool) : pickEntry s ok = none ↔ ∀ n, ok n = false := by
  have hbest := pickEntry_best s ok
  constructor
  · intro hpick n
    rw [hpick] at hbest
    exact hbest n (List.mem_finRange n)
  · intro hno
    cases hpick : pickEntry s ok with
    | none => rfl
    | some a =>
      rw [hpick] at hbest
      obtain ⟨hok, -, -⟩ := hbest
      exact absurd hok (by simp [hno a])

/-- The entry that no other one beats, by start slot and then by number, is the one picked: the order is total, so there is one
such entry at most (R135). -/
theorem pickEntry_eq_some (s : State) (ok : Fin 32 → Bool) {n : Fin 32} (hn : ok n = true)
    (hmax : ∀ m, ok m = true → startSlot s m < startSlot s n ∨ startSlot s m = startSlot s n ∧ m ≤ n) :
    pickEntry s ok = some n := by
  have hbest := pickEntry_best s ok
  cases hpick : pickEntry s ok with
  | none => exact absurd hn (by simp [(pickEntry_eq_none_iff s ok).mp hpick n])
  | some a =>
    rw [hpick] at hbest
    obtain ⟨hok, -, hamax⟩ := hbest
    have hna := hamax n (List.mem_finRange n) hn
    have han := hmax a hok
    have heq : a = n := by omega
    rw [heq]

/-! ## The band found, case by case -/

/-- The valid entries whose start slot is at or below a slot (R135). -/
def atOrBelow (s : State) (slot : Nat) (n : Fin 32) : Bool := scheduleValid s n && decide (startSlot s n ≤ slot)

theorem atOrBelow_iff (s : State) (slot : Nat) (n : Fin 32) :
    atOrBelow s slot n = true ↔ scheduleValid s n = true ∧ startSlot s n ≤ slot := by
  simp [atOrBelow]

theorem findBand_clock_none {s : State} (hc : s.mtr.clock = none) : findBand s = 0 := by
  simp [findBand, hc]

/-- With the clock known, the first choice is among the entries at or below its slot, and the second among all valid ones. -/
theorem findBand_clock_some {s : State} {sec : Word32} (hc : s.mtr.clock = some sec) :
    findBand s = (((pickEntry s (atOrBelow s (slotOf sec))).or (pickEntry s (scheduleValid s))).map (scheduleBand s)).getD 0 := by
  have hbelow : (fun n => scheduleValid s n && decide (startSlot s n ≤ slotOf sec)) = atOrBelow s (slotOf sec) := rfl
  simp only [findBand, hc, hbelow]
  cases pickEntry s (atOrBelow s (slotOf sec)) with
  | some n => rfl
  | none => cases pickEntry s (scheduleValid s) <;> rfl

/-- Without a valid entry the band is 0. -/
theorem findBand_none_valid {s : State} (hno : ∀ n, scheduleValid s n = false) : findBand s = 0 := by
  cases hc : s.mtr.clock with
  | none => exact findBand_clock_none hc
  | some sec =>
    have hbelow : pickEntry s (atOrBelow s (slotOf sec)) = none :=
      (pickEntry_eq_none_iff s _).mpr fun n => by simp [atOrBelow, hno n]
    rw [findBand_clock_some hc, hbelow, (pickEntry_eq_none_iff s _).mpr hno]
    rfl

/-- An entry picked at or below the slot gives the band. -/
theorem findBand_of_atOrBelow {s : State} {sec : Word32} {n : Fin 32} (hc : s.mtr.clock = some sec)
    (hpick : pickEntry s (atOrBelow s (slotOf sec)) = some n) : findBand s = scheduleBand s n := by
  rw [findBand_clock_some hc, hpick]
  rfl

/-- With every valid entry above the slot, the one picked among them all gives the band: the day's last entry still holds. -/
theorem findBand_of_all_above {s : State} {sec : Word32} {n : Fin 32} (hc : s.mtr.clock = some sec)
    (habove : ∀ m, scheduleValid s m = true → slotOf sec < startSlot s m)
    (hpick : pickEntry s (scheduleValid s) = some n) : findBand s = scheduleBand s n := by
  have hbelow : pickEntry s (atOrBelow s (slotOf sec)) = none := by
    refine (pickEntry_eq_none_iff s _).mpr fun m => Bool.eq_false_iff.mpr fun hm => ?_
    obtain ⟨hvalid, hle⟩ := (atOrBelow_iff s _ m).mp hm
    exact absurd hle (Nat.not_le_of_lt (habove m hvalid))
  rw [findBand_clock_some hc, hbelow, hpick]
  rfl

/-- Settles O48: the unbeaten entry is the one picked, at or below the slot or, where there is none, among all valid ones. -/
theorem bandFound : Obligations.BandFound := by
  intro s
  refine ⟨fun h => h.elim findBand_clock_none findBand_none_valid, ?_⟩
  rintro sec n hc hvalid (⟨hle, hmax⟩ | ⟨habove, hmax⟩)
  · refine findBand_of_atOrBelow hc (pickEntry_eq_some s _ ((atOrBelow_iff s _ n).mpr ⟨hvalid, hle⟩) fun m hm => ?_)
    obtain ⟨hmvalid, hmle⟩ := (atOrBelow_iff s _ m).mp hm
    exact hmax m hmvalid hmle
  · exact findBand_of_all_above hc habove (pickEntry_eq_some s _ hvalid hmax)

end Sys2Proof.Machine
end

section
/-! PROOFS. What a power-on reset leaves, read off the blocks' start state. -/

namespace Sys2Proof.Machine

/-- A power-on reset ends in the blocks' start state, with at most STORE_LOW raised on it (R154, R156). -/
theorem powerOn_of_startState {P : State → Prop} (pins : Pins) (cut : WriteCut) (s : State)
    (hstart : ∀ nv free queue, P (startState pins nv free queue)) (hlow : ∀ t, P t → P (raiseStoreLow t)) :
    P (powerOn pins cut s) := by
  unfold powerOn
  dsimp only
  split
  · exact hlow _ (hstart _ _ _)
  · exact hstart _ _ _

end Sys2Proof.Machine
end

section
/-! PROOFS. The demand line: every step keeps READY to an OPEN session, a good grade and a clear lockout (R27). -/

namespace Sys2Proof.Machine

-- One proof after another: side by side they wait for each other in more threads than a small memory holds.
set_option Elab.async false

/-- What leaves the line, the session, the grade and the lockout leaves the line safe. -/
theorem DemandSafe.of_eq {s t : State} (h : DemandSafe s) (hd : t.sup.demand = s.sup.demand := by simp)
    (hs : t.ses.session = s.ses.session := by simp) (hg : t.iso.grade = s.iso.grade := by simp)
    (hl : t.iso.lockout = s.iso.lockout := by simp) : DemandSafe t := by
  unfold DemandSafe at h ⊢
  rw [hd, hs, hg, hl]
  exact h

/-- A line that is not READY is safe whatever the rest. -/
theorem DemandSafe.of_not_ready {s : State} (h : s.sup.demand ≠ .ready) : DemandSafe s := fun hr => absurd hr h

/-! ## The pilot leaves the line -/

theorem noteEdge_demand (x : Sup) : (noteEdge x).demand = x.demand := by
  unfold noteEdge; split <;> rfl

theorem startHold_demand (x : Sup) : (startHold x).demand = x.demand := by
  unfold startHold; (repeat' split) <;> rfl

theorem pilotPeriodDone_demand (period high : Nat) (s : State) :
    (pilotPeriodDone period high s).sup.demand = s.sup.demand := by
  unfold pilotPeriodDone decodePilot
  dsimp only
  (repeat' split) <;> simp [startHold_demand, noteEdge_demand]

theorem pilotSilent_demand (s : State) : (pilotSilent s).sup.demand = s.sup.demand := by
  unfold pilotSilent; split <;> simp [startHold_demand]

theorem pilotLost_demand (s : State) : (pilotLost s).sup.demand = s.sup.demand := by
  unfold pilotLost; split <;> simp

/-! ## The shared operations: what ends in an evaluation is safe -/

theorem heaterChanged_demandSafe (b : Htr) (s : State) : DemandSafe (heaterChanged b s) := evalDemand_demandSafe _

theorem enterSession_demandSafe (st : SessionState) (s : State) : DemandSafe (enterSession st s) :=
  evalDemand_demandSafe _

theorem authorizeSession_demandSafe (tag : Option Tag) {s : State} (h : DemandSafe s) :
    DemandSafe (authorizeSession tag s) := by
  unfold authorizeSession openSession
  split
  · exact evalDemand_demandSafe _
  · exact h

theorem closeSession_demandSafe (r : CloseReason) {s : State} (h : DemandSafe s) : DemandSafe (closeSession r s) := by
  unfold closeSession
  split
  · exact evalDemand_demandSafe _
  · exact h

theorem leaveClosing_demandSafe {s : State} (h : DemandSafe s) : DemandSafe (leaveClosing s) := by
  unfold leaveClosing
  split
  · exact enterSession_demandSafe _ _
  · exact h

theorem plugEnters_demandSafe (s : State) : DemandSafe (plugEnters s) := by
  unfold plugEnters autoOpen
  (repeat' split)
  · exact authorizeSession_demandSafe _ (enterSession_demandSafe _ _)
  · exact enterSession_demandSafe _ _
  · exact evalDemand_demandSafe _

theorem sessionUnplugged_demandSafe {s : State} (h : DemandSafe s) : DemandSafe (sessionUnplugged s) := by
  unfold sessionUnplugged
  split
  · exact closeSession_demandSafe _ h
  · exact enterSession_demandSafe _ _
  · exact h

theorem plugLeaves_demandSafe (s : State) : DemandSafe (plugLeaves s) := by
  have hoff : DemandSafe (immediateOff (evalDemand s)) := (evalDemand_demandSafe s).of_eq
  have hses := sessionUnplugged_demandSafe hoff
  unfold plugLeaves
  exact hses.of_eq

theorem putPlug_demandSafe (new : Plug) {s : State} (h : DemandSafe s) : DemandSafe (putPlug new s) := by
  unfold putPlug
  dsimp only
  (repeat' split)
  · exact h
  · exact plugLeaves_demandSafe _
  · exact plugEnters_demandSafe _
  · exact evalDemand_demandSafe _

theorem derivePlug_demandSafe {s : State} (h : DemandSafe s) : DemandSafe (derivePlug s) := by
  unfold derivePlug
  split
  · exact putPlug_demandSafe _ h
  · exact h

theorem watchRecord_demandSafe {s : State} (h : DemandSafe s) : DemandSafe (watchRecord s) := by
  unfold watchRecord
  dsimp only
  have he := evalDemand_demandSafe s
  (repeat' split)
  · exact h
  · exact he
  · exact he.of_eq
  · exact he
  · exact .of_not_ready (by simp)

theorem allocate_demandSafe {s : State} (h : DemandSafe s) : DemandSafe (allocate s) :=
  watchRecord_demandSafe (h.of_eq)

theorem endProbe_demandSafe (z : Fin 8) (leak : Bool) (s : State) : DemandSafe (endProbe z leak s) :=
  heaterChanged_demandSafe _ _

theorem changeGrade_demandSafe (g : Grade) {s : State} (h : DemandSafe s) : DemandSafe (changeGrade g s) := by
  unfold changeGrade
  split
  · exact h
  · exact evalDemand_demandSafe _

theorem useResult_demandSafe (c : ResultClass) {s : State} (h : DemandSafe s) : DemandSafe (useResult c s) := by
  unfold useResult
  split
  · exact h.of_eq
  · exact h.of_eq
  · unfold decideGrade
    (repeat' split)
    · exact changeGrade_demandSafe _ h
    · exact h.of_eq
    · exact changeGrade_demandSafe _ h
    · exact changeGrade_demandSafe _ h
    · exact h.of_eq

theorem endProbeAfter_demandSafe (p : Option Purpose) (l : Localization) (c : ResultClass) {s : State}
    (h : DemandSafe s) : DemandSafe (endProbeAfter p l c s) := by
  unfold endProbeAfter
  split
  · exact endProbe_demandSafe _ _ _
  · exact h

theorem validResult_demandSafe (r : IsoResult) {s : State} (h : DemandSafe s) : DemandSafe (validResult r s) := by
  have hused := useResult_demandSafe r.cls
    (s := updateSummary r ((monitorIdle s).setIso { (monitorIdle s).iso with latest := some r })) h.of_eq
  exact endProbeAfter_demandSafe _ _ _ hused.of_eq

theorem phaseEnded_demandSafe {s : State} (h : DemandSafe s) : DemandSafe (phaseEnded s) := by
  unfold phaseEnded finishMeasurement
  dsimp only
  (repeat' split)
  · exact h.of_eq
  · exact h.of_eq
  · exact h.of_eq
  · exact validResult_demandSafe _ h.of_eq
  · exact h.of_eq
  · exact h
  · exact h

theorem localizationStep_demandSafe {s : State} (h : DemandSafe s) : DemandSafe (localizationStep s) := by
  unfold localizationStep startProbe endRun
  dsimp only
  (repeat' split)
  · exact h.of_eq
  · exact h.of_eq
  · next z b _ =>
      have hprobe := heaterChanged_demandSafe s.htr (s.setHtr (s.htr.enter z (.probed b)))
      exact hprobe.of_eq
  · exact h.of_eq
  · exact evalDemand_demandSafe _
  · exact evalDemand_demandSafe _
  · exact h
  · exact h

theorem restartRun_demandSafe {s : State} (h : DemandSafe s) : DemandSafe (restartRun s) := by
  unfold restartRun
  split
  · exact endProbe_demandSafe _ _ _
  · exact h.of_eq
  · exact h

theorem longDeadEnergization_demandSafe {s : State} (h : DemandSafe s) : DemandSafe (longDeadEnergization s) := by
  unfold longDeadEnergization
  dsimp only
  have hrun := restartRun_demandSafe
    (changeGrade_demandSafe .unknown (s := s.setIso { s.iso with longDead := false }) h.of_eq)
  split
  · exact hrun.of_eq
  · exact hrun

theorem busConverted_demandSafe (up un : Nat) {s : State} (h : DemandSafe s) : DemandSafe (busConverted up un s) := by
  unfold busConverted energizedConversion
  dsimp only
  split
  · refine localizationStep_demandSafe ?_
    split
    · exact longDeadEnergization_demandSafe h.of_eq
    · exact h.of_eq
  · exact h.of_eq

theorem finalDone_demandSafe {s : State} (h : DemandSafe s) : DemandSafe (finalDone s) := by
  unfold finalDone
  dsimp only
  split
  · next n ws _ =>
      have hnext : DemandSafe (nextWrite ((s.setNv (finalWritten n ws s.nv)).setRst { s.rst with nextArea := .A })) := h.of_eq
      have hleft := leaveClosing_demandSafe hnext
      exact hleft.of_eq
  · exact h

theorem afterCommit_demandSafe (n : Fin 53) {s : State} (h : DemandSafe s) : DemandSafe (afterCommit n s) := by
  unfold afterCommit
  (repeat' split)
  · exact evalDemand_demandSafe _
  · exact h.of_eq
  · exact heaterChanged_demandSafe _ _
  · exact h

theorem powerOn_demandSafe (pins : Pins) (cut : WriteCut) (s : State) : DemandSafe (powerOn pins cut s) := by
  refine powerOn_of_startState pins cut s (fun nv free queue => ?_) fun _ h => h.of_eq
  exact .of_not_ready (by simp [startState, Sup.reset])

theorem demandSafe_preserved : Preserved DemandSafe where
  port _ _ _ h := h.of_eq
  queue _ _ h := h.of_eq
  powerOn pins cut s _ := powerOn_demandSafe pins cut s
  losePower _ _ h := h.of_eq rfl rfl rfl rfl
  releaseOwned _ _ h := h.of_eq
  commit n _ _ h := afterCommit_demandSafe n h.of_eq
  departureHold _ _ h := h.of_eq
  dropHold _ h := h.of_eq
  dropHoldWithNotice _ h := h.of_eq
  clearLockout _ _ _ := evalDemand_demandSafe _
  rest _ _ h := h.of_eq
  endRest _ h := h.of_eq
  endRestWithNotice _ h := h.of_eq
  clearZone _ _ _ _ := heaterChanged_demandSafe _ _
  authorize tag _ h := authorizeSession_demandSafe tag h
  endSession _ _ h := closeSession_demandSafe _ h
  setTime _ _ h := h.of_eq
  lockTariff _ h := h.of_eq
  unlockTariff _ h := h.of_eq
  breakLock _ h := h.of_eq
  recordBuffer _ _ h := h.of_eq
  release _ _ _ _ h := h.of_eq
  imageBuffer _ _ h := h.of_eq
  imageStore _ _ h := h.of_eq
  contactChange _ _ _ h := h.of_eq
  debounce _ _ _ h := derivePlug_demandSafe (h.of_eq (hs := rfl))
  pilotPeriod _ _ _ h := h.of_eq (hd := pilotPeriodDone_demand _ _ _)
  pilotSilent _ h := h.of_eq (hd := pilotSilent_demand _)
  pilotLost _ h := h.of_eq (hd := pilotLost_demand _)
  pilotEdge _ h := h.of_eq (hd := noteEdge_demand _)
  phaseWindow _ _ _ _ h := h.of_eq
  allocate _ h := allocate_demandSafe h
  changeover _ h := h.of_eq
  acceptance _ h := h.of_eq
  stageReady _ _ h := h.of_eq
  stageFault _ _ h := h.of_eq
  recovered _ h := h.of_eq
  applyNext s h := by
    unfold applyNext
    split
    · exact heaterChanged_demandSafe _ _
    · exact h
  pulseDue s h := by
    unfold pulseDue
    (repeat' split)
    · exact h
    · exact h.of_eq
    · exact heaterChanged_demandSafe _ _
    · exact h
  pulseEnded i s h := by
    unfold pulseEnded
    (repeat' split)
    · exact heaterChanged_demandSafe _ _
    · exact h
    · exact h
  conversion _ _ _ := heaterChanged_demandSafe _ _
  slotExpired _ h := h.of_eq
  busConverted up un _ h := busConverted_demandSafe up un h
  deadBus _ h := h.of_eq
  periodExpired _ h := h.of_eq
  phaseEnded _ h := phaseEnded_demandSafe h
  sampled _ _ _ h := h.of_eq
  meterTick _ _ _ _ h := h.of_eq
  checkpointTimer _ _ h := h.of_eq
  checkpointDone _ h := h.of_eq
  finalDone _ h := finalDone_demandSafe h
  imageDone _ h := h.of_eq

/-- Settles O21: an effect either ends in an evaluation of the line, or leaves what R27 reads. -/
theorem demandSafeKept : Obligations.DemandSafeKept := fun _ _ h he => demandSafe_preserved.step h he

end Sys2Proof.Machine
end

section
/-! PROOFS. The plan: every step keeps every entry within the ranges of its class (R2). -/

namespace Sys2Proof.Machine

/-- What leaves the plan, the kept defaults and the strap leaves the plan safe. -/
theorem PlanSafe.of_eq {s t : State} (h : PlanSafe s) (hp : t.plan = s.plan := by simp)
    (hd : t.planDefaults = s.planDefaults := by simp) (ht : t.threePhases = s.threePhases := by simp) : PlanSafe t := by
  unfold PlanSafe at h ⊢
  rw [hp, hd, ht]
  exact h

theorem pHw_lt (b : Bool) : Config.pHw b < 65536 := by cases b <;> decide

/-- A commit stores what the field-range step made of the entry (R2). -/
theorem storeEntry_planSafe (n : Fin 53) (e : Entry) {s : State} (h : PlanSafe s) : PlanSafe (storeEntry n e s) := by
  obtain ⟨hplan, hdefaults⟩ := h
  refine ⟨fun m => ?_, hdefaults⟩
  by_cases hm : n = m
  · subst hm
    simpa [storeEntry] using rangeStep_inRange _ n e (pHw_lt _)
  · simpa [storeEntry, Vector.getElem_set_ne _ _ (fun hv => hm (Fin.ext hv))] using hplan m

/-- The kept defaults are within the ranges of the entries that they return to (R22). -/
theorem scopedRestore_planSafe {s : State} (h : PlanSafe s) : PlanSafe (scopedRestore s) := by
  unfold scopedRestore
  split
  · obtain ⟨hplan, hdefaults⟩ := h
    refine ⟨fun m => ?_, hdefaults⟩
    have h0 := hdefaults 0
    have h1 := hdefaults 1
    have h2 := hdefaults 2
    have h3 := hdefaults 3
    have hm := hplan m
    simp only [restoreDefaults, State.setPlan_plan, State.setPlan_threePhases, Fin.getElem_fin, Vector.getElem_set] at *
    (repeat' split)
    · next e3 => simpa [← Fin.ext (a := (3 : Fin 53)) e3] using h3
    · next e2 => simpa [← Fin.ext (a := (2 : Fin 53)) e2] using h2
    · next e1 => simpa [← Fin.ext (a := (1 : Fin 53)) e1] using h1
    · next e0 => simpa [← Fin.ext (a := (0 : Fin 53)) e0] using h0
    · exact hm
  · exact h

theorem plugLeaves_planSafe {s : State} (h : PlanSafe s) : PlanSafe (plugLeaves s) :=
  scopedRestore_planSafe h.of_eq

theorem derivePlug_planSafe {s : State} (h : PlanSafe s) : PlanSafe (derivePlug s) := by
  unfold derivePlug putPlug
  dsimp only
  (repeat' split)
  · exact h
  · exact plugLeaves_planSafe h.of_eq
  · exact h.of_eq
  · exact h.of_eq
  · exact h

theorem defaultsOf_getElem (plan : Vector Entry 53) (n : Fin 4) :
    (defaultsOf plan)[n] = plan[(⟨n.val, by omega⟩ : Fin 53)] := by
  match n with
  | 0 => rfl
  | 1 => rfl
  | 2 => rfl
  | 3 => rfl

/-- A plan as a power-on reset loads it is within its ranges, and so are its first four entries (R16). -/
theorem startState_planSafe (pins : Pins) (nv : Nv) (free : Nat) (queue : List Instr) :
    PlanSafe (startState pins nv free queue) := by
  have hload (n : Fin 53) : inRange (Config.pHw pins.threePhases) n
      (loadPlan (Config.pHw pins.threePhases) (imagePasses nv.image) nv.image)[n] = true := by
    simpa [loadPlan] using rangeStep_inRange _ n _ (pHw_lt _)
  refine ⟨hload, fun n => ?_⟩
  rw [show (startState pins nv free queue).planDefaults[n] = _ from defaultsOf_getElem _ n]
  exact hload _

theorem planSafe_preserved : Preserved PlanSafe where
  port _ _ _ h := h.of_eq
  queue _ _ h := h.of_eq
  powerOn pins cut s _ := powerOn_of_startState pins cut s (startState_planSafe pins) fun _ h => h.of_eq
  losePower _ _ h := h
  releaseOwned _ _ h := h.of_eq
  commit n e _ h := (storeEntry_planSafe n e h).of_eq
  departureHold _ _ h := h.of_eq
  dropHold _ h := h.of_eq
  dropHoldWithNotice _ h := h.of_eq
  clearLockout _ _ h := h.of_eq
  rest _ _ h := h.of_eq
  endRest _ h := h.of_eq
  endRestWithNotice _ h := h.of_eq
  clearZone _ _ _ h := h.of_eq
  authorize _ _ h := h.of_eq
  endSession _ _ h := h.of_eq
  setTime _ _ h := h.of_eq
  lockTariff _ h := h.of_eq
  unlockTariff _ h := h.of_eq
  breakLock _ h := h.of_eq
  recordBuffer _ _ h := h.of_eq
  release _ _ _ _ h := h.of_eq
  imageBuffer _ _ h := h.of_eq
  imageStore _ _ h := h.of_eq
  contactChange _ _ _ h := h.of_eq
  debounce _ _ _ h := derivePlug_planSafe h.of_eq
  pilotPeriod _ _ _ h := h.of_eq
  pilotSilent _ h := h.of_eq
  pilotLost _ h := h.of_eq
  pilotEdge _ h := h.of_eq
  phaseWindow _ _ _ _ h := h.of_eq
  allocate _ h := h.of_eq
  changeover _ h := h.of_eq
  acceptance _ h := h.of_eq
  stageReady _ _ h := h.of_eq
  stageFault _ _ h := h.of_eq
  recovered _ h := h.of_eq
  applyNext _ h := h.of_eq
  pulseDue _ h := h.of_eq
  pulseEnded _ _ h := h.of_eq
  conversion _ _ h := h.of_eq
  slotExpired _ h := h.of_eq
  busConverted _ _ _ h := h.of_eq
  deadBus _ h := h.of_eq
  periodExpired _ h := h.of_eq
  phaseEnded _ h := h.of_eq
  sampled _ _ _ h := h.of_eq
  meterTick _ _ _ _ h := h.of_eq
  checkpointTimer _ _ h := h.of_eq
  checkpointDone _ h := h.of_eq
  finalDone _ h := h.of_eq
  imageDone _ h := h.of_eq

/-- Settles O14: only a commit, a scoped restore and a power-on reset write the plan, and each writes entries that came through the
field-range step. -/
theorem planSafeKept : Obligations.PlanSafeKept := fun _ _ h he => planSafe_preserved.step h he

end Sys2Proof.Machine
end

section
/-! PROOFS. The departure hold: every step keeps it from being HELD while the measurement is overdue (R65, R102). -/

namespace Sys2Proof.Machine

-- One proof after another: side by side they wait for each other in more threads than a small memory holds.
set_option Elab.async false

/-- What leaves the age, the condition, the period and entry 7, and makes no hold HELD, leaves the hold safe. -/
theorem HoldSafe.of_eq {s t : State} (h : HoldSafe s) (hper : t.iso.period = s.iso.period := by simp)
    (hent : t.entry 7 = s.entry 7 := by simp) (hage : t.iso.age = s.iso.age := by simp)
    (hover : t.iso.overdue = s.iso.overdue := by simp)
    (hhold : t.alc.hold = .held → s.alc.hold = .held := by simp) : HoldSafe t := by
  obtain ⟨hp, he, ho, hh⟩ := h
  refine ⟨hper ▸ hp, ?_, ?_, fun ht => hover ▸ hh (hhold ht)⟩
  · rwa [periodEntry, hent]
  · rw [hover, ho, hage, overdueLimit, overdueLimit, hper]

/-! ## The condition re-tested (R65, R102) -/

/-- A HELD hold stays HELD over a re-test only where the condition is false or was already true. -/
theorem testOverdue_hold (s : State) (h : (testOverdue s).alc.hold = .held) :
    s.alc.hold = .held ∧ (overdueLimit s.iso ≤ s.iso.age → s.iso.overdue = true) := by
  unfold testOverdue suspendHold at h
  dsimp only at h
  split at h
  · split at h
    · simp at h
    · next hne => exact absurd h hne
  · next hno => exact ⟨h, by simpa using hno⟩

/-- After a re-test the condition is what R102 says, and it suspends a HELD hold when it becomes true. -/
theorem testOverdue_holdSafe {s : State} (hp : 5 ≤ s.iso.period) (he : 5 ≤ periodEntry s)
    (hh : s.alc.hold = .held → s.iso.overdue = false) : HoldSafe (testOverdue s) := by
  obtain ⟨hiso, -, -⟩ := testOverdue_spec s
  refine ⟨by rwa [hiso], by simpa [periodEntry] using he, by rw [hiso]; rfl, fun ht => ?_⟩
  obtain ⟨hheld, hover⟩ := testOverdue_hold s ht
  have hfalse := hh hheld
  rw [hiso]
  exact decide_eq_false fun hle => by simp [hover hle] at hfalse

/-- A measurement that completes brings the age to 0, below every limit (R66, R102). -/
theorem completeMeasurement_holdSafe {s : State} (h : HoldSafe s) : HoldSafe (completeMeasurement s) := by
  obtain ⟨hp, he, -, -⟩ := h
  obtain ⟨hiso, -, -⟩ := completeMeasurement_spec s hp
  refine ⟨by rwa [hiso], by simpa [periodEntry] using he, ?_, fun _ => by rw [hiso]⟩
  rw [hiso]
  exact (decide_eq_false (by simp only [overdueLimit]; omega)).symm

/-! ## The grade -/

/-- No change of grade makes a hold HELD (R67). -/
theorem gradeLost_hold (old new : Grade) (s : State) (h : (gradeLost old new s).alc.hold = .held) :
    s.alc.hold = .held := by
  have hend : (endHoldByGrade s).alc.hold = .none := (endHoldByGrade_spec s).1
  have heq : (gradeLost old new s).alc.hold =
      (if old.isProven && !new.isProven then endHoldByGrade s else s).alc.hold := by
    unfold gradeLost
    dsimp only
    generalize (if old.isProven && !new.isProven then endHoldByGrade s else s) = a
    (repeat' split) <;> simp
  rw [heq] at h
  split at h
  · simp [hend] at h
  · exact h

theorem changeGrade_holdSafe (g : Grade) {s : State} (h : HoldSafe s) : HoldSafe (changeGrade g s) := by
  unfold changeGrade
  split
  · exact h
  · refine h.of_eq (hhold := fun ht => ?_)
    rw [(evalDemand_keeps _).2.2.2.2.2.2.2.2.1] at ht
    simpa using gradeLost_hold _ _ _ ht

theorem endRun_holdSafe {s : State} (h : HoldSafe s) : HoldSafe (endRun s) := by
  unfold endRun
  dsimp only
  (repeat' split)
  · exact h.of_eq
  · next c _ =>
      have hgrade := changeGrade_holdSafe c.toGrade
        (s := clearTheLockout (s.setIso { s.iso with localization := .doneCulprit, candidate := none })) h.of_eq
      exact hgrade.of_eq
  · exact h.of_eq

theorem useResult_holdSafe (c : ResultClass) {s : State} (h : HoldSafe s) : HoldSafe (useResult c s) := by
  unfold useResult decideGrade
  (repeat' split)
  · exact h.of_eq
  · exact h.of_eq
  · exact changeGrade_holdSafe _ h
  · exact h.of_eq
  · exact changeGrade_holdSafe _ h
  · exact changeGrade_holdSafe _ h
  · exact h.of_eq

theorem restartRun_holdSafe {s : State} (h : HoldSafe s) : HoldSafe (restartRun s) := by
  unfold restartRun
  split
  · exact h.of_eq
  · exact h.of_eq
  · exact h

/-! ## The monitor's events -/

theorem validResult_holdSafe (r : IsoResult) {s : State} (h : HoldSafe s) : HoldSafe (validResult r s) := by
  have hused := useResult_holdSafe r.cls
    (s := updateSummary r ((monitorIdle s).setIso { (monitorIdle s).iso with latest := some r })) h.of_eq
  have hdone := completeMeasurement_holdSafe hused
  unfold validResult
  exact hdone.of_eq

theorem phaseEnded_holdSafe {s : State} (h : HoldSafe s) : HoldSafe (phaseEnded s) := by
  unfold phaseEnded finishMeasurement
  dsimp only
  (repeat' split)
  · exact h.of_eq
  · exact h.of_eq
  · exact h.of_eq
  · exact validResult_holdSafe _ h.of_eq
  · exact h.of_eq
  · exact h
  · exact h

theorem localizationStep_holdSafe {s : State} (h : HoldSafe s) : HoldSafe (localizationStep s) := by
  unfold localizationStep
  (repeat' split)
  · exact h.of_eq
  · exact h.of_eq
  · exact h.of_eq
  · exact endRun_holdSafe h
  · exact h
  · exact h

theorem longDeadEnergization_holdSafe {s : State} (h : HoldSafe s) : HoldSafe (longDeadEnergization s) := by
  unfold longDeadEnergization
  dsimp only
  have hrun := restartRun_holdSafe
    (changeGrade_holdSafe .unknown (s := s.setIso { s.iso with longDead := false }) h.of_eq)
  split
  · exact hrun.of_eq
  · exact hrun

theorem raiseAge_holdSafe {s : State} (h : HoldSafe s) : HoldSafe (raiseAge s) := by
  obtain ⟨hp, he, -, hh⟩ := h
  exact testOverdue_holdSafe hp he hh

theorem busConverted_holdSafe (up un : Nat) {s : State} (h : HoldSafe s) : HoldSafe (busConverted up un s) := by
  have hage := raiseAge_holdSafe (s := s.setIso { s.iso with uBus := up + un, deadTimer := .stopped, energizedLast := true })
    h.of_eq
  unfold busConverted energizedConversion
  dsimp only
  split
  · refine localizationStep_holdSafe ?_
    split
    · exact longDeadEnergization_holdSafe hage
    · exact hage
  · exact h.of_eq

theorem periodExpired_holdSafe {s : State} (h : HoldSafe s) : HoldSafe (periodExpired s) := by
  obtain ⟨-, he, -, hh⟩ := h
  have htest := testOverdue_holdSafe
    (s := s.setIso { s.iso with period := periodEntry s, periodTimer := .running (1000 * periodEntry s) }) he he hh
  unfold periodExpired
  dsimp only
  split
  · exact htest.of_eq
  · exact htest

/-! ## The plan's entry 7 -/

/-- The field-range step gives entry 7 a period of at least 5 s (R10). -/
theorem rangeStep_period (pHw : Nat) (e : Entry) : 5 ≤ (rangeStep pHw 7 e).w2.toNat := by
  have hclass : classOf 7 = .isolation := rfl
  simp only [rangeStep, hclass, dropUnused, clampFields]
  rw [clampWord_toNat 5 60 _ (by decide) (by decide)]
  exact Nat.le_max_left _ _

/-- A dropped hold is not HELD (R64). -/
theorem dropHoldWithNotice_hold (s : State) (h : (dropHoldWithNotice s).alc.hold = .held) : s.alc.hold = .held := by
  unfold dropHoldWithNotice at h
  split at h
  · exact h
  · simp [dropHold] at h

/-- Port V's reset alone reaches the hold, and drops it (R68). -/
theorem releaseOwned_hold (p : PortId) (s : State) (h : (releaseOwned p s).alc.hold = .held) : s.alc.hold = .held := by
  cases p
  · exact dropHoldWithNotice_hold s h
  · simpa [releaseOwned] using h
  · simpa [releaseOwned] using h

theorem storeEntry_holdSafe (n : Fin 53) (e : Entry) {s : State} (h : HoldSafe s) : HoldSafe (storeEntry n e s) := by
  by_cases hn : n = 7
  · subst hn
    obtain ⟨hp, -, ho, hh⟩ := h
    refine ⟨hp, ?_, ho, hh⟩
    simpa [periodEntry, storeEntry] using rangeStep_period _ e
  · have hne : n.val ≠ 7 := fun hv => hn (Fin.ext hv)
    exact h.of_eq (hent := by simp [storeEntry, State.entry, Vector.getElem_set_ne _ _ hne])

/-- The scoped restore writes entries 0 to 3 alone (R22). -/
theorem scopedRestore_entry_seven (s : State) : (scopedRestore s).entry 7 = s.entry 7 := by
  unfold scopedRestore restoreDefaults
  split
  · simp [State.entry]
  · rfl

theorem derivePlug_holdSafe {s : State} (h : HoldSafe s) : HoldSafe (derivePlug s) := by
  unfold derivePlug putPlug
  dsimp only
  (repeat' split)
  · exact h
  · exact h.of_eq (hent := by unfold plugLeaves; simp [scopedRestore_entry_seven])
  · exact h.of_eq
  · exact h.of_eq
  · exact h

/-- At a power-on reset the age is 0 and no hold is HELD (Table 6-1, R62). -/
theorem startState_holdSafe (pins : Pins) (nv : Nv) (free : Nat) (queue : List Instr) :
    HoldSafe (startState pins nv free queue) := by
  have hperiod : 5 ≤ ((loadPlan (Config.pHw pins.threePhases) (imagePasses nv.image) nv.image)[7]).w2.toNat := by
    simpa [loadPlan] using rangeStep_period _ _
  have hlimit : ¬ 3 * ((loadPlan (Config.pHw pins.threePhases) (imagePasses nv.image) nv.image)[7]).w2.toNat * 100 ≤ 0 := by
    omega
  generalize hplan : loadPlan (Config.pHw pins.threePhases) (imagePasses nv.image) nv.image = plan at hperiod hlimit
  unfold startState
  simp only [hplan]
  exact ⟨hperiod, hperiod, (decide_eq_false hlimit).symm, fun h => nomatch h⟩

/-- DEPARTURE HOLD is admitted below the limit alone (R63). -/
theorem departureHold_holdSafe {s : State} (hs : holdStatus s = .ok) (h : HoldSafe s) :
    HoldSafe (s.setAlc { s.alc with hold := .held, holdTimer := .running Config.holdMs }) := by
  obtain ⟨hp, he, ho, -⟩ := h
  have hbelow : ¬ overdueLimit s.iso ≤ s.iso.age := by
    unfold holdStatus at hs
    (repeat' split at hs) <;> first | assumption | cases hs
  exact ⟨hp, he, ho, fun _ => ho.trans (decide_eq_false hbelow)⟩

theorem holdSafe_preserved : Preserved HoldSafe where
  port _ _ _ h := h.of_eq
  queue _ _ h := h.of_eq
  powerOn pins cut s _ := powerOn_of_startState pins cut s (startState_holdSafe pins) fun _ h => h.of_eq
  losePower _ _ h := h
  releaseOwned p s h := h.of_eq (hhold := releaseOwned_hold p s)
  commit n e _ h := (storeEntry_holdSafe n e h).of_eq
  departureHold _ hs h := departureHold_holdSafe hs h
  dropHold _ h := h.of_eq (hhold := fun ht => by simp [dropHold] at ht)
  dropHoldWithNotice s h := h.of_eq (hhold := dropHoldWithNotice_hold s)
  clearLockout _ _ h := h.of_eq
  rest _ _ h := h.of_eq
  endRest _ h := h.of_eq
  endRestWithNotice _ h := h.of_eq
  clearZone _ _ _ h := h.of_eq
  authorize _ _ h := h.of_eq
  endSession _ _ h := h.of_eq
  setTime _ _ h := h.of_eq
  lockTariff _ h := h.of_eq
  unlockTariff _ h := h.of_eq
  breakLock _ h := h.of_eq
  recordBuffer _ _ h := h.of_eq
  release _ _ _ _ h := h.of_eq
  imageBuffer _ _ h := h.of_eq
  imageStore _ _ h := h.of_eq
  contactChange _ _ _ h := h.of_eq
  debounce _ _ _ h := derivePlug_holdSafe h.of_eq
  pilotPeriod _ _ _ h := h.of_eq
  pilotSilent _ h := h.of_eq
  pilotLost _ h := h.of_eq
  pilotEdge _ h := h.of_eq
  phaseWindow _ _ _ _ h := h.of_eq
  allocate _ h := h.of_eq
  changeover _ h := h.of_eq
  acceptance _ h := h.of_eq
  stageReady _ _ h := h.of_eq
  stageFault _ _ h := h.of_eq
  recovered _ h := h.of_eq
  applyNext _ h := h.of_eq
  pulseDue _ h := h.of_eq
  pulseEnded _ _ h := h.of_eq
  conversion _ _ h := h.of_eq
  slotExpired _ h := h.of_eq
  busConverted up un _ h := busConverted_holdSafe up un h
  deadBus _ h := h.of_eq
  periodExpired _ h := periodExpired_holdSafe h
  phaseEnded _ h := phaseEnded_holdSafe h
  sampled _ _ _ h := h.of_eq
  meterTick _ _ _ _ h := h.of_eq
  checkpointTimer _ _ h := h.of_eq
  checkpointDone _ h := h.of_eq
  finalDone _ h := h.of_eq
  imageDone _ h := h.of_eq

/-- Settles O31: the condition is re-tested wherever the age or the period moves, and a hold becomes HELD below the limit alone. -/
theorem holdSafeKept : Obligations.HoldSafeKept := fun _ _ h he => holdSafe_preserved.step h he

end Sys2Proof.Machine
end

section
/-! PROOFS. The zones: every step keeps the check record and the energized set sound, the zones off under a lockout and without a good
grade, and the draw within the grant of the record applied last (R75, R91, R94, R113, R118). -/

namespace Sys2Proof.Machine

-- One proof after another: side by side they wait for each other in more threads than a small memory holds.
set_option Elab.async false

/-! ## Moves of the heater that energize nothing -/

/-- From heater g to h no zone was energized or checked anew, and the ratings in use, the records received and the record applied are as
they were. -/
structure HeaterKept (g h : Htr) : Prop where
  sound : g.Sound → h.Sound
  cold : g.Sound → g.Cold → h.Cold
  energized : h.energized.Sublist g.energized
  rating : ∀ z : Fin 8, h.zones[z].rating = g.zones[z].rating
  inbox : h.inbox = g.inbox
  applied : h.applied = g.applied

theorem HeaterKept.trans {g h k : Htr} (a : HeaterKept g h) (b : HeaterKept h k) : HeaterKept g k where
  sound hs := b.sound (a.sound hs)
  cold hs hc := b.cold (a.sound hs) (a.cold hs hc)
  energized := b.energized.trans a.energized
  rating z := (b.rating z).trans (a.rating z)
  inbox := b.inbox.trans a.inbox
  applied := b.applied.trans a.applied

/-- What leaves the states and the ratings of the zones, the energized set and the zone of the check record. -/
theorem HeaterKept.of_states {g h : Htr} (hz : ∀ z : Fin 8, h.zones[z].state = g.zones[z].state)
    (hr : ∀ z : Fin 8, h.zones[z].rating = g.zones[z].rating) (he : h.energized = g.energized := by simp)
    (hc : h.check.map (·.zone) = g.check.map (·.zone) := by simp) (hi : h.inbox = g.inbox := by simp)
    (ha : h.applied = g.applied := by simp) : HeaterKept g h where
  sound hs := sound_states hs hz he hc
  cold _ hg z := by rw [hz]; exact hg z
  energized := by rw [he]
  rating := hr
  inbox := hi
  applied := ha

theorem HeaterKept.of_zones {g h : Htr} (hz : h.zones = g.zones := by simp)
    (he : h.energized = g.energized := by simp) (hc : h.check.map (·.zone) = g.check.map (·.zone) := by simp)
    (hi : h.inbox = g.inbox := by simp) (ha : h.applied = g.applied := by simp) : HeaterKept g h :=
  .of_states (fun _ => by rw [hz]) (fun _ => by rw [hz]) he hc hi ha

theorem HeaterKept.refl (h : Htr) : HeaterKept h h := .of_zones

theorem enter_rating (h : Htr) (z : Fin 8) (st : ZoneState) (w : Fin 8) :
    (h.enter z st).zones[w].rating = h.zones[w].rating := by
  rw [enter_zone]; split <;> rfl

/-- A zone that is neither CHECKING nor ENERGIZED enters a state that is neither. -/
theorem enter_heaterKept {h : Htr} {z : Fin 8} {st : ZoneState} (h1 : h.zones[z].state ≠ .checking)
    (h2 : h.zones[z].state ≠ .energized) (h3 : st ≠ .checking) (h4 : st ≠ .energized) : HeaterKept h (h.enter z st) where
  sound hs := sound_enter hs h1 h2 h3 h4
  cold _ hc := cold_enter hc h3 h4
  energized := by simp
  rating := enter_rating h z st
  inbox := by simp
  applied := by simp

/-- The check of a CHECKING zone ends (R83, R84): the record names it. -/
theorem endCheck_heaterKept {h : Htr} {z : Fin 8} {st : ZoneState}
    (hz : h.Sound → h.zones[z].state = .checking) (h3 : st ≠ .checking) (h4 : st ≠ .energized) :
    HeaterKept h (h.endCheck z st) where
  sound hs := by
    obtain ⟨ck, hck, rfl⟩ := (hs.1 z).1 (hz hs)
    exact sound_endCheck hs hck h3 h4
  cold _ hcold := cold_enter hcold h3 h4
  energized := by simp
  rating := enter_rating h z st
  inbox := by simp
  applied := by simp

/-- An ENERGIZED zone is de-energized (R91). -/
theorem deenergize_heaterKept {h : Htr} {z : Fin 8} {st : ZoneState} (he : h.zones[z].state = .energized)
    (h3 : st ≠ .checking) (h4 : st ≠ .energized) : HeaterKept h (h.deenergize z st) where
  sound hs := sound_deenergize hs he h3 h4
  cold _ hc := absurd he (hc z).1
  energized := by simp [Htr.deenergize, List.filter_sublist]
  rating := enter_rating h z st
  inbox := by simp
  applied := by simp

theorem abortCheck_zones_rating (h : Htr) (st : ZoneState) (w : Fin 8) :
    (h.abortCheck st).zones[w].rating = h.zones[w].rating := by
  unfold Htr.abortCheck
  split
  · exact enter_rating h _ st w
  · rfl

/-- A forced de-energization (R94). -/
theorem allOff_heaterKept (h : Htr) : HeaterKept h h.allOff where
  sound hs := (allOff_sound_cold hs).1
  cold hs _ := (allOff_sound_cold hs).2
  energized := by simp
  rating w := by
    rw [← abortCheck_zones_rating h .unchecked w]
    simp only [Htr.allOff, Fin.getElem_fin, Vector.getElem_map]
    split <;> rfl
  inbox := by simp
  applied := by simp

theorem BeforeProbe.back_ne (b : BeforeProbe) : b.back ≠ .checking ∧ b.back ≠ .energized := by
  cases b <;> simp [BeforeProbe.back]

/-- The end of a probe (R96). -/
theorem leaveProbe_heaterKept (h : Htr) (z : Fin 8) (leak : Bool) : HeaterKept h (h.leaveProbe z leak) := by
  unfold Htr.leaveProbe
  split
  · next b hb =>
    obtain ⟨hback, hback'⟩ := b.back_ne
    refine enter_heaterKept (by rw [hb]; simp) (by rw [hb]; simp) ?_ ?_ <;> cases leak <;> simp [hback, hback']
  · exact .refl h

/-- A zone that the heater takes into PROBED was OFF, DWELL or UNCHECKED (R96). -/
theorem probeTakes_state {s : State} {z : Fin 8} {b : BeforeProbe} (h : probeTakes s z = some b) :
    (s.zone z).state = b.back := by
  unfold probeTakes ZoneState.probeBase at h
  (repeat' split at h) <;> simp at h
  all_goals next hst => rw [hst, ← h]; rfl

/-- Only an ENERGIZED or CHECKING zone is over its limit (R93). -/
theorem overLimit_hot {s : State} {z : Fin 8} {t : Option Int} (h : overLimit s z t = true) :
    (s.zone z).state = .energized ∨ (s.zone z).state = .checking := by
  unfold overLimit ZoneState.isHot at h
  (repeat' split at h) <;> simp_all

/-- A zone's conversion (R77, R78, R93). -/
theorem convertZone_heaterKept (s : State) (z : Fin 8) (r : Thermistor) : HeaterKept s.htr (convertZone s z r) := by
  have hset : HeaterKept s.htr (s.htr.setZone z (convertedZone s z (convertReading r))) := by
    refine .of_states (fun w => ?_) (fun w => ?_) <;> rw [setZone_zone] <;> split
    · next e => subst e; rfl
    · rfl
    · next e => subst e; rfl
    · rfl
  have hstate : (s.htr.setZone z (convertedZone s z (convertReading r))).zones[z].state = (s.zone z).state := by
    rw [setZone_zone, if_pos rfl]; rfl
  unfold convertZone
  dsimp only
  split
  · next hover =>
    split
    · next hck => exact hset.trans (endCheck_heaterKept (fun _ => by rw [hstate, hck]) (by simp) (by simp))
    · next hck =>
      have hhot := overLimit_hot hover
      exact hset.trans (deenergize_heaterKept (by rw [hstate]; exact hhot.resolve_right hck) (by simp) (by simp))
  · split
    · next hinv =>
      simp only [Bool.and_eq_true, beq_iff_eq] at hinv
      refine hset.trans (deenergize_heaterKept (by rw [hstate, hinv.2]) (restingState_ne _).1 (restingState_ne _).2)
    · exact hset

/-! ## Moves of the whole part -/

/-- From s to t a sound heater stays sound, and with it the zones stay off under R94's conditions and the draw within its bound. -/
def ZonesKept (s t : State) : Prop :=
  s.htr.Sound → t.htr.Sound ∧ (HeatSafe s → HeatSafe t) ∧ (DrawSafe s → DrawSafe t)

theorem ZonesKept.refl (s : State) : ZonesKept s s := fun hs => ⟨hs, id, id⟩

theorem ZonesKept.trans {s t u : State} (a : ZonesKept s t) (b : ZonesKept t u) : ZonesKept s u := fun hs => by
  obtain ⟨ht, hheat, hdraw⟩ := a hs
  obtain ⟨hu, hheat', hdraw'⟩ := b ht
  exact ⟨hu, hheat' ∘ hheat, hdraw' ∘ hdraw⟩

/-- R94's conditions are the failure of insulationOk. -/
theorem heatSafe_iff (s : State) : HeatSafe s ↔ (insulationOk s = false → s.htr.Cold) := by
  unfold HeatSafe insulationOk
  cases s.iso.lockout <;> cases s.iso.grade <;> simp [Grade.isProven] <;> rfl

/-- A smaller energized set with the same ratings draws no more. -/
theorem HeaterKept.heatDrawn_le {s t : State} (k : HeaterKept s.htr t.htr) : heatDrawn t ≤ heatDrawn s := by
  have hsame : (t.htr.energized.map fun z => (t.zone z).rating) = t.htr.energized.map fun z => (s.zone z).rating :=
    List.map_congr_left fun z _ => k.rating z
  unfold heatDrawn
  rw [hsame]
  exact (k.energized.map _).sum_le_sum (fun _ _ => Nat.zero_le _)

theorem HeaterKept.drawSafe {s t : State} (k : HeaterKept s.htr t.htr) (h : DrawSafe s) : DrawSafe t := by
  obtain ⟨hsum, hle⟩ := h
  exact ⟨by rwa [k.inbox], by rw [k.applied]; exact k.heatDrawn_le.trans hle⟩

/-- A move of the heater that energizes nothing, under an insulation that is no worse. -/
theorem HeaterKept.zonesKept {s t : State} (k : HeaterKept s.htr t.htr)
    (hok : insulationOk s = true → insulationOk t = true := by simp [insulationOk]) : ZonesKept s t := fun hs => by
  refine ⟨k.sound hs, fun hh => (heatSafe_iff t).2 fun hbad => ?_, k.drawSafe⟩
  have hbad' : insulationOk s = false := by
    cases h : insulationOk s
    · rfl
    · rw [hok h] at hbad; cases hbad
  exact k.cold hs ((heatSafe_iff s).1 hh hbad')

/-- A move of the heater that leaves no zone ENERGIZED or CHECKING is safe under every grade. -/
theorem HeaterKept.zonesKept_of_cold {s t : State} (k : HeaterKept s.htr t.htr) (hc : s.htr.Sound → t.htr.Cold) :
    ZonesKept s t := fun hs => ⟨k.sound hs, fun _ => (heatSafe_iff t).2 fun _ => hc hs, k.drawSafe⟩

/-- What leaves the zones, the energized set, the check's zone, the records and the insulation. -/
theorem ZonesKept.of_eq {s t : State} (hz : t.htr.zones = s.htr.zones := by simp)
    (he : t.htr.energized = s.htr.energized := by simp)
    (hc : t.htr.check.map (·.zone) = s.htr.check.map (·.zone) := by simp) (hi : t.htr.inbox = s.htr.inbox := by simp)
    (ha : t.htr.applied = s.htr.applied := by simp)
    (hok : insulationOk s = true → insulationOk t = true := by simp [insulationOk]) : ZonesKept s t :=
  (HeaterKept.of_zones hz he hc hi ha).zonesKept hok

/-- What follows a change of the heater leaves the zones. -/
theorem heaterChanged_zonesKept (b : Htr) (s : State) : ZonesKept s (heaterChanged b s) :=
  .of_eq (hc := heaterChanged_check b s)

theorem evalDemand_zonesKept (s : State) : ZonesKept s (evalDemand s) := .of_eq

theorem raiseIf_zonesKept (b : Bool) (k : Notice) (s : State) : ZonesKept s (raiseIf b k s) := .of_eq

theorem setHtr_zonesKept {s : State} {h : Htr} (k : HeaterKept s.htr h) : ZonesKept s (s.setHtr h) :=
  HeaterKept.zonesKept k

/-- Every change of the heater that energizes nothing, with what follows it. -/
theorem HeaterKept.changed {s : State} {h : Htr} (b : Htr) (k : HeaterKept s.htr h) :
    ZonesKept s (heaterChanged b (s.setHtr h)) :=
  (setHtr_zonesKept k).trans (heaterChanged_zonesKept b _)

/-! ## The grade and the monitor -/

theorem forcedDeenergize_zonesKept {s t : State} (h : t.htr = s.htr) : ZonesKept s (forcedDeenergize t) := by
  have hoff : ZonesKept s (t.setHtr t.htr.allOff) :=
    HeaterKept.zonesKept_of_cold (h ▸ allOff_heaterKept _) fun hs => by
      rw [← h] at hs
      exact (allOff_sound_cold hs).2
  exact hoff.trans (heaterChanged_zonesKept _ _)

/-- What a change of grade sets going: to FAULT, or out of GOOD and WARNING, it turns every zone off; otherwise the zones were off
already, or may stay (R94, R113). -/
theorem gradeLost_zonesKept {s t : State} (hh : t.htr = s.htr) (hl : t.iso.lockout = s.iso.lockout) :
    ZonesKept s (gradeLost s.iso.grade t.iso.grade t) := by
  unfold gradeLost
  dsimp only
  split
  · refine forcedDeenergize_zonesKept ?_
    (repeat' split) <;> simp [hh]
  · next hkeep =>
    simp only [Bool.or_eq_true, decide_eq_true_eq, not_or] at hkeep
    obtain ⟨hdrop, hfault⟩ := hkeep
    rw [if_neg hfault, if_neg hdrop]
    refine .of_eq (by rw [hh]) (by rw [hh]) (by rw [hh]) (by rw [hh]) (by rw [hh]) fun hok => ?_
    simp only [insulationOk, Bool.and_eq_true, hl] at hok ⊢
    exact ⟨by simpa [hok.1] using hdrop, hok.2⟩

theorem changeGrade_zonesKept (g : Grade) (s : State) : ZonesKept s (changeGrade g s) := by
  unfold changeGrade
  split
  · exact .refl s
  · exact (gradeLost_zonesKept (s := s) (t := raise .gradeChange (s.setIso { s.iso with grade := g, candidate := none }))
      rfl rfl).trans (evalDemand_zonesKept _)

theorem requestMeasurement_zonesKept (p : Purpose) (s : State) : ZonesKept s (requestMeasurement p s) := .of_eq

theorem discardMeasurement_zonesKept (s : State) : ZonesKept s (discardMeasurement s) :=
  .of_eq (hc := discardMeasurement_check s)

theorem releaseWindow_zonesKept (s : State) : ZonesKept s (releaseWindow s) := .of_eq (hc := releaseWindow_check s)

theorem completeMeasurement_zonesKept (s : State) : ZonesKept s (completeMeasurement s) := .of_eq

theorem endProbe_zonesKept (z : Fin 8) (leak : Bool) (s : State) : ZonesKept s (endProbe z leak s) := by
  have hraise : ZonesKept s (raiseIf leak .heaterFault (s.setHtr (s.htr.leaveProbe z leak))) :=
    (setHtr_zonesKept (leaveProbe_heaterKept _ z leak)).trans (raiseIf_zonesKept _ _ _)
  exact hraise.trans (heaterChanged_zonesKept _ _)

theorem startProbe_zonesKept {z : Fin 8} {b : BeforeProbe} {s : State} (h : probeTakes s z = some b) :
    ZonesKept s (startProbe z b s) := by
  have hstate := probeTakes_state h
  obtain ⟨hck, hen⟩ := b.back_ne
  have hprobe := (enter_heaterKept (h := s.htr) (z := z) (st := .probed b) (hstate ▸ hck) (hstate ▸ hen) (by simp)
    (by simp)).changed s.htr
  have hset (t : State) : ZonesKept t (t.setIso { t.iso with localization := .probing z, lastExamined := some z }) := .of_eq
  exact (hprobe.trans (hset _)).trans (requestMeasurement_zonesKept _ _)

theorem nextProbe_takes {s : State} {z : Fin 8} {b : BeforeProbe} (h : nextProbe s = some (z, b)) :
    probeTakes s z = some b := by
  obtain ⟨w, -, hw⟩ := List.exists_of_findSome?_eq_some h
  simp only [Option.map_eq_some_iff, Prod.mk.injEq] at hw
  obtain ⟨c, hc, rfl, rfl⟩ := hw
  exact hc

theorem endRun_zonesKept (s : State) : ZonesKept s (endRun s) := by
  unfold endRun
  dsimp only
  have hclear : ZonesKept s (clearTheLockout (s.setIso { s.iso with localization := .doneCulprit, candidate := none })) :=
    .of_eq (hok := by simp +contextual [insulationOk, clearTheLockout])
  (repeat' split)
  · exact .of_eq
  · exact (hclear.trans (changeGrade_zonesKept _ _)).trans (evalDemand_zonesKept _)
  · exact hclear.trans (evalDemand_zonesKept _)

theorem localizationStep_zonesKept (s : State) : ZonesKept s (localizationStep s) := by
  unfold localizationStep
  (repeat' split)
  · exact .of_eq
  · exact .of_eq
  · next hnext => exact startProbe_zonesKept (nextProbe_takes hnext)
  · exact endRun_zonesKept s
  · exact .refl s
  · exact .refl s

theorem restartRun_zonesKept (s : State) : ZonesKept s (restartRun s) := by
  unfold restartRun
  split
  · exact .trans .of_eq (endProbe_zonesKept _ _ _)
  · exact .of_eq
  · exact .refl s

theorem longDeadEnergization_zonesKept (s : State) : ZonesKept s (longDeadEnergization s) := by
  have hlong : ZonesKept s (s.setIso { s.iso with longDead := false }) := .of_eq
  have hrun := (hlong.trans (changeGrade_zonesKept .unknown _)).trans (restartRun_zonesKept _)
  unfold longDeadEnergization
  dsimp only
  split
  · exact hrun.trans (requestMeasurement_zonesKept _ _)
  · exact hrun

theorem busConverted_zonesKept (up un : Nat) (s : State) : ZonesKept s (busConverted up un s) := by
  unfold busConverted
  dsimp only
  have hbus : ZonesKept s (s.setIso { s.iso with uBus := up + un }) := .of_eq
  refine hbus.trans ?_
  generalize s.setIso { s.iso with uBus := up + un } = a
  split
  · unfold energizedConversion
    refine .trans ?_ (localizationStep_zonesKept _)
    have hage : ZonesKept a (raiseAge (a.setIso { a.iso with deadTimer := .stopped, energizedLast := true })) := .of_eq
    dsimp only
    split
    · exact hage.trans (longDeadEnergization_zonesKept _)
    · exact hage
  · unfold deadConversion
    dsimp only
    split
    · exact .trans .of_eq (discardMeasurement_zonesKept _)
    · split
      · exact .of_eq
      · exact .of_eq

theorem useResult_zonesKept (c : ResultClass) (s : State) : ZonesKept s (useResult c s) := by
  unfold useResult decideGrade
  (repeat' split)
  · exact .of_eq
  · exact .of_eq
  · exact changeGrade_zonesKept _ s
  · exact .of_eq
  · exact changeGrade_zonesKept _ s
  · exact changeGrade_zonesKept _ s
  · exact .of_eq

theorem endProbeAfter_zonesKept (p : Option Purpose) (l : Localization) (c : ResultClass) (s : State) :
    ZonesKept s (endProbeAfter p l c s) := by
  unfold endProbeAfter
  split
  · exact endProbe_zonesKept _ _ s
  · exact .refl s

theorem validResult_zonesKept (r : IsoResult) (s : State) : ZonesKept s (validResult r s) := by
  have htaken : ZonesKept s (updateSummary r ((monitorIdle s).setIso { (monitorIdle s).iso with latest := some r })) := .of_eq
  have hused := htaken.trans (useResult_zonesKept r.cls _)
  unfold validResult
  refine .trans ?_ (endProbeAfter_zonesKept _ _ _ _)
  exact (hused.trans (completeMeasurement_zonesKept _)).trans (releaseWindow_zonesKept _)

theorem phaseEnded_zonesKept (s : State) : ZonesKept s (phaseEnded s) := by
  unfold phaseEnded finishMeasurement
  dsimp only
  (repeat' split)
  · exact .of_eq
  · exact .of_eq
  · exact .of_eq
  · exact .trans .of_eq (validResult_zonesKept _ _)
  · exact .trans .of_eq (discardMeasurement_zonesKept _)
  · exact .refl s
  · exact .refl s

theorem cancelRun_zonesKept (s : State) : ZonesKept s (cancelRun s) := by
  unfold cancelRun
  dsimp only
  split
  · exact .trans .of_eq (endProbe_zonesKept _ _ _)
  · exact .of_eq

/-! ## The heater's events -/

theorem pulseDue_zonesKept (s : State) : ZonesKept s (pulseDue s) := by
  unfold pulseDue
  split
  · next ck hck =>
    have hset (x : CheckRecord) (hx : x.zone = ck.zone) : HeaterKept s.htr { s.htr with check := some x } :=
      .of_zones rfl rfl (by simp [hck, hx]) rfl rfl
    (repeat' split)
    · exact .refl s
    · exact setHtr_zonesKept (hset { ck with waiting := true } rfl)
    · exact (hset { ck with pulseOn := true, waiting := false } rfl).changed _
  · exact .refl s

theorem judgePair_ne {repeated : Bool} {a b : PulseResult} {st : ZoneState} (h : judgePair repeated a b = some st) :
    st ≠ .checking ∧ st ≠ .energized := by
  unfold judgePair at h
  (repeat' split at h) <;> simp at h <;> subst h <;> simp

theorem afterPulse_heaterKept {h : Htr} {ck : CheckRecord} (hck : h.check = some ck) (r : PulseResult) :
    HeaterKept h (afterPulse ck r h) := by
  unfold afterPulse
  (repeat' split)
  · exact .of_zones (hc := by simp [hck])
  · next hst =>
    obtain ⟨h3, h4⟩ := judgePair_ne hst
    exact endCheck_heaterKept (fun hs => (hs.1 _).2 ⟨ck, hck, rfl⟩) h3 h4
  · exact .of_zones (hc := by simp [hck])

theorem pulseEnded_zonesKept (i : Nat) (s : State) : ZonesKept s (pulseEnded i s) := by
  unfold pulseEnded
  split
  · next ck hck =>
    split
    · have hpulse := setHtr_zonesKept (afterPulse_heaterKept hck (judgePulse ck.iExp i))
      exact (hpulse.trans (raiseIf_zonesKept _ _ _)).trans (heaterChanged_zonesKept _ _)
    · exact .refl s
  · exact .refl s

theorem heaterConvert_zonesKept (z : Fin 8) (r : Thermistor) (s : State) : ZonesKept s (heaterConvert z r s) :=
  (setHtr_zonesKept (convertZone_heaterKept s z r)).trans (raiseIf_zonesKept _ _ _)

theorem convertAll_zonesKept (readings : Vector Thermistor 8) (s : State) : ZonesKept s (convertAll readings s) := by
  have hfold (l : List (Fin 8)) : ∀ t, ZonesKept t (l.foldl (fun u z => heaterConvert z readings[z] u) t) := by
    induction l with
    | nil => exact fun t => .refl t
    | cons z l ih => exact fun t => (heaterConvert_zonesKept z _ t).trans (ih _)
  have hset (t : State) : ZonesKept t (t.setHtr { t.htr with converted := true }) := .of_eq
  exact ((hfold _ s).trans (hset _)).trans (heaterChanged_zonesKept _ _)

theorem commitHeatingMode_zonesKept (s : State) : ZonesKept s (commitHeatingMode s) :=
  (HeaterKept.of_zones (h := { s.htr with pendingMode := some (heatingModeOf (s.entry 8)) })).changed _

theorem afterCommit_zonesKept (n : Fin 53) (s : State) : ZonesKept s (afterCommit n s) := by
  unfold afterCommit
  (repeat' split)
  · exact .of_eq
  · exact .of_eq
  · exact commitHeatingMode_zonesKept s
  · exact .refl s

/-! ## A grant record applied (R80, R91) -/

theorem inSet_cons (x : Fin 8 × Nat) (zs : List (Fin 8 × Nat)) (z : Fin 8) :
    inSet (x :: zs) z = (x.1 == z || inSet zs z) := rfl

theorem carriedRating_cons_self (x : Fin 8 × Nat) (zs : List (Fin 8 × Nat)) :
    carriedRating (x :: zs) x.1 = some x.2 := by simp [carriedRating]

theorem carriedRating_cons_ne {x : Fin 8 × Nat} {z : Fin 8} (h : z ≠ x.1) (zs : List (Fin 8 × Nat)) :
    carriedRating (x :: zs) z = carriedRating zs z := by
  have hne : (x.1 == z) = false := beq_eq_false_iff_ne.mpr (Ne.symm h)
  simp [carriedRating, hne]

/-- Distinct zones of a set carry together no more than the set's sum. -/
theorem sum_carriedRating_le (d : Fin 8 → Nat) (zs : List (Fin 8 × Nat)) : ∀ l : List (Fin 8), l.Nodup →
    (∀ z ∈ l, inSet zs z = true) → (l.map fun z => (carriedRating zs z).getD (d z)).sum ≤ ratingSum zs := by
  induction zs with
  | nil =>
    intro l _ hin
    cases l with
    | nil => simp
    | cons z l => exact absurd (hin z (by simp)) (by simp [inSet])
  | cons x zs ih =>
    intro l hnd hin
    have hrest (k : List (Fin 8)) (hk : k.Nodup) (hsub : ∀ z ∈ k, z ∈ l ∧ z ≠ x.1) :
        (k.map fun z => (carriedRating (x :: zs) z).getD (d z)).sum ≤ ratingSum zs := by
      have hmap : (k.map fun z => (carriedRating (x :: zs) z).getD (d z)) = k.map fun z => (carriedRating zs z).getD (d z) :=
        List.map_congr_left fun z hz => by rw [carriedRating_cons_ne (hsub z hz).2]
      rw [hmap]
      refine ih k hk fun z hz => ?_
      obtain ⟨hzl, hzx⟩ := hsub z hz
      have hzin := hin z hzl
      rw [inSet_cons, Bool.or_eq_true, beq_iff_eq] at hzin
      exact hzin.resolve_left (Ne.symm hzx)
    have hsum : ratingSum (x :: zs) = x.2 + ratingSum zs := by simp [ratingSum]
    by_cases hx : x.1 ∈ l
    · have hperm := ((List.perm_cons_erase hx).map fun z => (carriedRating (x :: zs) z).getD (d z)).sum_eq
      rw [hperm, List.map_cons, List.sum_cons, carriedRating_cons_self, hsum]
      exact Nat.add_le_add_left (hrest _ (hnd.erase _) fun z hz =>
        ⟨List.mem_of_mem_erase hz, fun e => (List.Nodup.not_mem_erase hnd) (e ▸ hz)⟩) _
    · rw [hsum]
      exact (hrest l hnd fun z hz => ⟨hz, fun e => hx (e ▸ hz)⟩).trans (Nat.le_add_left _ _)

/-- Zones de-energized one after another leave the energized set. -/
theorem shed_energized (l : List (Fin 8)) : ∀ h : Htr,
    (l.foldl (fun g z => g.deenergize z (restingState g.mode.dwell)) h).energized = h.energized.filter fun x => decide (x ∉ l) := by
  induction l with
  | nil => simp
  | cons z l ih =>
    intro h
    rw [List.foldl_cons, ih]
    simp [Htr.deenergize, List.filter_filter, Bool.and_comm]

theorem shed_rating (l : List (Fin 8)) : ∀ (h : Htr) (w : Fin 8),
    (l.foldl (fun g z => g.deenergize z (restingState g.mode.dwell)) h).zones[w].rating = h.zones[w].rating := by
  induction l with
  | nil => exact fun _ _ => rfl
  | cons z l ih =>
    intro h w
    rw [List.foldl_cons, ih]
    exact enter_rating h z _ w

/-- Step 2 leaves ENERGIZED only zones of the set, and no rating is moved (R91). -/
theorem shedOutside_spec (zs : List (Fin 8 × Nat)) (h : Htr) :
    (∀ z ∈ (shedOutside zs h).energized, inSet zs z = true)
      ∧ ∀ w : Fin 8, (shedOutside zs h).zones[w].rating = h.zones[w].rating := by
  unfold shedOutside
  dsimp only
  have hen (z : Fin 8) (hz : z ∈ ((h.energized.filter fun z => !inSet zs z).foldl
      (fun g z => g.deenergize z (restingState g.mode.dwell)) h).energized) : inSet zs z = true := by
    rw [shed_energized] at hz
    simp only [List.mem_filter, decide_eq_true_eq, not_and, Bool.not_eq_true', Bool.not_eq_false] at hz
    exact hz.2 hz.1
  (repeat' split)
  · exact ⟨hen, shed_rating _ h⟩
  · exact ⟨by simpa using hen, fun w => (enter_rating _ _ _ w).trans (shed_rating _ h w)⟩
  · exact ⟨hen, shed_rating _ h⟩

/-- Step 3 energizes only zones of the set (R91). -/
theorem energizeSet_energized (r : GrantRecord) (zs : List (Fin 8 × Nat)) (h : Htr) (z : Fin 8)
    (hz : z ∈ (energizeSet r zs h).energized) : z ∈ h.energized ∨ inSet zs z = true := by
  have hfold (l : List (Fin 8 × Nat)) : ∀ g : Htr, z ∈ (l.foldl (fun h x => energizeZone x.1 h) g).energized →
      z ∈ g.energized ∨ inSet l z = true := by
    induction l with
    | nil => exact fun _ h => .inl h
    | cons x l ih =>
      intro g hg
      rw [inSet_cons, Bool.or_eq_true, beq_iff_eq]
      refine (ih _ hg).elim (fun hx => ?_) fun hl => .inr (.inr hl)
      dsimp only [energizeZone] at hx
      split at hx
      · rcases List.mem_append.mp hx with hx | hx
        · exact .inl hx
        · exact .inr (.inl (List.mem_singleton.mp hx).symm)
      · exact .inl hx
  unfold energizeSet at hz
  split at hz
  · exact hfold zs h hz
  · exact .inl hz

theorem energizeSet_rating (r : GrantRecord) (zs : List (Fin 8 × Nat)) (h : Htr) (w : Fin 8) :
    (energizeSet r zs h).zones[w].rating = h.zones[w].rating := by
  rw [energizeSet_zone]; split <;> rfl

/-- The start of a check leaves the energized set and the ratings (R82). -/
theorem startCheck_spec (zs : List (Fin 8 × Nat)) (u : Nat) (h : Htr) :
    (startCheck zs u h).energized = h.energized ∧ ∀ w : Fin 8, (startCheck zs u h).zones[w].rating = h.zones[w].rating := by
  unfold startCheck Htr.beginCheck
  (repeat' split)
  · exact ⟨rfl, fun _ => rfl⟩
  · exact ⟨by simp, fun w => enter_rating h _ _ w⟩
  · exact ⟨rfl, fun _ => rfl⟩
  · exact ⟨rfl, fun _ => rfl⟩

theorem countDown_rating (b n : Zone) : (countDown b n).rating = n.rating := by
  unfold countDown
  (repeat' split) <;> rfl

theorem adoptTurn_same (r : GrantRecord) (h : Htr) :
    (adoptTurn r h).zones = h.zones ∧ (adoptTurn r h).energized = h.energized := by
  unfold adoptTurn
  (repeat' split) <;> exact ⟨rfl, rfl⟩

/-- The zones after the steps of a boundary (R91, R92). -/
theorem boundarySteps_zone (b : Htr) (r : GrantRecord) (h : Htr) (w : Fin 8) :
    (boundarySteps b r h).zones[w] = if r.boundary then countDown b.zones[w] h.zones[w] else h.zones[w] := by
  unfold boundarySteps
  split
  · simp [adoptTurn_same]
  · rfl

theorem boundarySteps_energized (b : Htr) (r : GrantRecord) (h : Htr) : (boundarySteps b r h).energized = h.energized := by
  unfold boundarySteps
  split
  · simp [adoptTurn_same]
  · rfl

/-- After a record is applied the ENERGIZED zones are zones of its set (R91). -/
theorem appliedHeater_energized (s : State) (r : GrantRecord) (z : Fin 8) (hz : z ∈ (appliedHeater s r).energized) :
    inSet (appliedSet s r) z = true := by
  unfold appliedHeater at hz
  simp only [boundarySteps_energized, (startCheck_spec _ _ _).1] at hz
  exact (energizeSet_energized _ _ _ z hz).elim ((shedOutside_spec _ _).1 z) id

/-- The ratings in use after a record is applied (R80). -/
theorem appliedHeater_rating (s : State) (r : GrantRecord) (z : Fin 8) :
    (appliedHeater s r).zones[z].rating = (carriedRating (appliedSet s r) z).getD (zoneRating s z) := by
  have hsteps : (appliedHeater s r).zones[z].rating = (takeRatings s (appliedSet s r) s.htr).zones[z].rating := by
    unfold appliedHeater
    dsimp only
    rw [boundarySteps_zone]
    split
    · rw [countDown_rating, (startCheck_spec _ _ _).2, energizeSet_rating, (shedOutside_spec _ _).2]
    · rw [(startCheck_spec _ _ _).2, energizeSet_rating, (shedOutside_spec _ _).2]
  rw [hsteps]
  simp [takeRatings]

theorem ratingSum_appliedSet_le (s : State) (r : GrantRecord) : ratingSum (appliedSet s r) ≤ ratingSum r.zones := by
  unfold appliedSet
  split
  · exact Nat.le_refl _
  · exact Nat.zero_le _

/-- The draw under the record just applied is within its set's sum (R91). -/
theorem appliedHeater_drawn (s : State) (r : GrantRecord) (hs : s.htr.Sound) :
    ((appliedHeater s r).energized.map fun z => (appliedHeater s r).zones[z].rating).sum ≤ ratingSum r.zones := by
  simp only [appliedHeater_rating]
  exact (sum_carriedRating_le _ _ _ (sound_appliedHeater s r hs).2.2 (appliedHeater_energized s r)).trans
    (ratingSum_appliedSet_le s r)

theorem shedOutside_cold (zs : List (Fin 8 × Nat)) {h : Htr} (hc : h.Cold) (hs : h.Sound) : (shedOutside zs h).Cold := by
  have hshed : ((h.energized.filter fun z => !inSet zs z).foldl
      (fun g z => g.deenergize z (restingState g.mode.dwell)) h).Cold := by
    intro w
    rw [shed_zone _ h (hs.2.2.filter _)]
    split
    · exact ⟨(restingState_ne _).2, (restingState_ne _).1⟩
    · exact hc w
  unfold shedOutside
  dsimp only
  (repeat' split)
  · exact hshed
  · exact cold_enter hshed (by simp) (by simp)
  · exact hshed

/-- With an empty set no zone is energized and no check begins (R91). -/
theorem appliedHeater_cold {s : State} {r : GrantRecord} (hset : appliedSet s r = []) (hs : s.htr.Sound) (hc : s.htr.Cold) :
    (appliedHeater s r).Cold := by
  have hstate (z : Fin 8) := takeRatings_state s [] s.htr z
  have hsound : (takeRatings s [] s.htr).Sound := sound_states hs hstate rfl rfl
  have hcold : (takeRatings s [] s.htr).Cold := fun z => by rw [hstate]; exact hc z
  have hshed := shedOutside_cold [] hcold hsound
  have hen : ∀ h, energizeSet r [] h = h := fun h => by simp [energizeSet]
  have hstart : ∀ h, startCheck [] s.iso.uBus h = h := fun h => by
    unfold startCheck; split <;> simp [inSet]
  intro z
  unfold appliedHeater
  simp only [hset, hen, hstart]
  rw [boundarySteps_zone]
  split
  · rw [Ne, countDown_energized, Ne, countDown_checking]
    exact hshed z
  · exact hshed z

/-- The registers of the heater that a record's steps leave: the mode in force, the pending mode, the conversion mark and the records
received. -/
def Htr.rest (h : Htr) : HeatingMode × Option HeatingMode × Bool × List GrantRecord :=
  (h.mode, h.pendingMode, h.converted, h.inbox)

theorem shedOutside_rest (zs : List (Fin 8 × Nat)) (h : Htr) : (shedOutside zs h).rest = h.rest := by
  have hfold (l : List (Fin 8)) : ∀ g : Htr,
      (l.foldl (fun g z => g.deenergize z (restingState g.mode.dwell)) g).rest = g.rest := by
    induction l with
    | nil => exact fun _ => rfl
    | cons z l ih => exact fun g => (ih _).trans rfl
  unfold shedOutside
  dsimp only
  (repeat' split) <;> exact hfold _ h

theorem energizeSet_rest (r : GrantRecord) (zs : List (Fin 8 × Nat)) (h : Htr) : (energizeSet r zs h).rest = h.rest := by
  have hfold (l : List (Fin 8 × Nat)) : ∀ g : Htr, (l.foldl (fun h x => energizeZone x.1 h) g).rest = g.rest := by
    induction l with
    | nil => exact fun _ => rfl
    | cons x l ih =>
      intro g
      rw [List.foldl_cons, ih]
      unfold energizeZone
      split <;> rfl
  unfold energizeSet
  split
  · exact hfold zs h
  · rfl

theorem startCheck_rest (zs : List (Fin 8 × Nat)) (u : Nat) (h : Htr) : (startCheck zs u h).rest = h.rest := by
  unfold startCheck Htr.beginCheck
  (repeat' split) <;> rfl

theorem boundarySteps_rest (b : Htr) (r : GrantRecord) (h : Htr) : (boundarySteps b r h).rest = h.rest := by
  have hturn (g : Htr) : (adoptTurn r g).rest = g.rest := by
    unfold adoptTurn
    (repeat' split) <;> rfl
  unfold boundarySteps
  split
  · exact hturn { h with zones := Vector.ofFn fun z => countDown b.zones[z] h.zones[z] }
  · rfl

theorem appliedHeater_rest (s : State) (r : GrantRecord) : (appliedHeater s r).rest = s.htr.rest :=
  calc (appliedHeater s r).rest = (boundarySteps s.htr r _).rest := rfl
    _ = _ := boundarySteps_rest _ _ _
    _ = _ := startCheck_rest _ _ _
    _ = _ := energizeSet_rest _ _ _
    _ = _ := shedOutside_rest _ _
    _ = s.htr.rest := rfl

theorem appliedHeater_inbox (s : State) (r : GrantRecord) : (appliedHeater s r).inbox = s.htr.inbox :=
  congrArg (fun x => x.2.2.2) (appliedHeater_rest s r)

theorem applyNext_zonesKept (s : State) : ZonesKept s (applyNext s) := by
  unfold applyNext
  split
  · next r rest hin =>
    unfold applyRecord
    refine .trans ?_ (heaterChanged_zonesKept _ _)
    generalize ht : s.setHtr { s.htr with inbox := rest } = t
    have hkept : HeaterKept { s.htr with inbox := rest } t.htr := ht ▸ .refl _
    intro hs
    have hts : t.htr.Sound := hkept.sound hs
    refine ⟨sound_appliedHeater t r hts, fun hh => (heatSafe_iff _).2 fun hbad => ?_, fun hd => ?_⟩
    · have hbad' : insulationOk t = false := hbad
      have hcold : t.htr.Cold := by
        subst ht
        exact (heatSafe_iff s).1 hh hbad
      exact appliedHeater_cold (by simp [appliedSet, hbad']) hts hcold
    · obtain ⟨hsum, -⟩ := hd
      have hr : r.Summed := hsum r (by simp [hin])
      refine ⟨?_, ?_⟩
      · show ∀ q ∈ (appliedHeater t r).inbox, q.Summed
        rw [appliedHeater_inbox, hkept.inbox]
        exact fun q hq => hsum q (by simp [hin, hq])
      · show _ ≤ r.gHeat
        rw [hr]
        exact appliedHeater_drawn t r hts
  · exact .refl s

/-- A record computed carries the sum of its set (R50), so the heater receives it summed. -/
theorem allocate_zonesKept (s : State) : ZonesKept s (allocate s) := by
  have hbefore : ZonesKept s (contradictionStep (windowStep s)) := .of_eq
  have hpublish (t : State) : ZonesKept t (publish (computeRecord t) t) := fun hs =>
    ⟨hs, id, fun ⟨hsum, hle⟩ => ⟨fun q hq => by
      rcases List.mem_append.mp hq with hq | hq
      · exact hsum q hq
      · rw [List.mem_singleton.mp hq]; rfl, hle⟩⟩
  have hafter (b : Bool) (t : State) : ZonesKept t (watchRecord (windowAtPublication b t)) := .of_eq
  exact (hbefore.trans (hpublish _)).trans (hafter _ _)

/-- At a power-on reset every zone is UNCHECKED, and the heater has received nothing (R75). -/
theorem startState_zonesKept (s : State) (pins : Pins) (nv : Nv) (free : Nat) (queue : List Instr) :
    ZonesKept s (startState pins nv free queue) := by
  have hzone (z : Fin 8) : ((startState pins nv free queue).zone z).state = .unchecked := by
    simp [State.zone, startState, bootHtr, Zone.reset]
  have hcold : (startState pins nv free queue).htr.Cold := fun z => by
    have hz : (startState pins nv free queue).htr.zones[z].state = .unchecked := hzone z
    rw [hz]; simp
  refine fun _ => ⟨⟨fun z => ?_, fun z => ?_, List.nodup_nil⟩, fun _ => (heatSafe_iff _).2 fun _ => hcold,
    fun _ => ⟨fun q hq => ?_, Nat.zero_le _⟩⟩
  · exact ⟨fun h => absurd h (hcold z).2, fun ⟨ck, hck, _⟩ => nomatch hck⟩
  · exact ⟨fun h => absurd h (hcold z).1, fun h => nomatch h⟩
  · exact nomatch hq

/-- From any state s, every effect keeps what ZonesKept says of s. -/
theorem zonesKept_preserved (s0 : State) : Preserved (ZonesKept s0) where
  port _ _ _ h := h.trans .of_eq
  queue _ _ h := h.trans .of_eq
  powerOn pins cut s _ := powerOn_of_startState pins cut s (startState_zonesKept s0 pins) fun _ h => h.trans .of_eq
  losePower _ _ h := h
  releaseOwned _ _ h := h.trans .of_eq
  commit n e s h := (h.trans (u := storeEntry n e s) .of_eq).trans (afterCommit_zonesKept n _)
  departureHold _ _ h := h.trans .of_eq
  dropHold _ h := h.trans .of_eq
  dropHoldWithNotice _ h := h.trans .of_eq
  clearLockout s _ h := by
    have hclear : ZonesKept s (clearTheLockout s) := .of_eq (hok := by simp +contextual [insulationOk, clearTheLockout])
    exact ((h.trans hclear).trans (cancelRun_zonesKept _)).trans (evalDemand_zonesKept _)
  rest _ _ h := h.trans .of_eq
  endRest _ h := h.trans .of_eq
  endRestWithNotice _ h := h.trans .of_eq
  clearZone z s hf h := by
    have hstate : (s.zone z).state ≠ .checking ∧ (s.zone z).state ≠ .energized := by
      constructor <;> intro e <;> simp [e, ZoneState.isFaulted] at hf
    exact h.trans ((enter_heaterKept hstate.1 hstate.2 (by simp) (by simp)).changed _)
  authorize _ _ h := h.trans .of_eq
  endSession _ _ h := h.trans .of_eq
  setTime _ _ h := h.trans .of_eq
  lockTariff _ h := h.trans .of_eq
  unlockTariff _ h := h.trans .of_eq
  breakLock _ h := h.trans .of_eq
  recordBuffer _ _ h := h.trans .of_eq
  release _ _ _ _ h := h.trans .of_eq
  imageBuffer _ _ h := h.trans .of_eq
  imageStore _ _ h := h.trans .of_eq
  contactChange _ _ _ h := h.trans .of_eq
  debounce _ _ _ h := h.trans .of_eq
  pilotPeriod _ _ _ h := h.trans .of_eq
  pilotSilent _ h := h.trans .of_eq
  pilotLost _ h := h.trans .of_eq
  pilotEdge _ h := h.trans .of_eq
  phaseWindow _ _ _ _ h := h.trans .of_eq
  allocate s h := h.trans (allocate_zonesKept s)
  changeover _ h := h.trans .of_eq
  acceptance _ h := h.trans .of_eq
  stageReady _ _ h := h.trans .of_eq
  stageFault _ _ h := h.trans .of_eq
  recovered _ h := h.trans .of_eq
  applyNext s h := h.trans (applyNext_zonesKept s)
  pulseDue s h := h.trans (pulseDue_zonesKept s)
  pulseEnded i s h := h.trans (pulseEnded_zonesKept i s)
  conversion r s h := h.trans (convertAll_zonesKept r s)
  slotExpired s h := by
    unfold slotExpired
    split
    · exact h.trans .of_eq
    · exact h
  busConverted up un s h := h.trans (busConverted_zonesKept up un s)
  deadBus _ h := h.trans .of_eq
  periodExpired _ h := h.trans .of_eq
  phaseEnded s h := h.trans (phaseEnded_zonesKept s)
  sampled _ _ _ h := h.trans .of_eq
  meterTick _ _ _ _ h := h.trans .of_eq
  checkpointTimer _ _ h := h.trans .of_eq
  checkpointDone _ h := h.trans .of_eq
  finalDone _ h := h.trans .of_eq
  imageDone _ h := h.trans .of_eq

theorem step_zonesKept {s t : State} (he : step s = .next t) : ZonesKept s t :=
  (zonesKept_preserved s).step (.refl s) he

/-- Settles O36: a move of the heater either energizes nothing or is a record applied under a proven insulation, and a lockout or a bad
grade turns every zone off as it comes. -/
theorem heatSafeKept : Obligations.HeatSafeKept := fun _ _ hs hh he => by
  obtain ⟨ht, hheat, -⟩ := step_zonesKept he hs
  exact ⟨ht, hheat hh⟩

/-- Settles O37: a record applied brings its own bound, and nothing else energizes a zone or moves a rating in use. -/
theorem drawSafeKept : Obligations.DrawSafeKept := fun _ _ hs hd he => by
  obtain ⟨-, -, hdraw⟩ := step_zonesKept he hs
  exact hdraw hd

end Sys2Proof.Machine
end

section
/-! PROOFS. Band evaluations and checkpoint requests; the clock, the tariff lock, and the store's completions (R134 to R144, R150, R152,
R174). -/

namespace Sys2Proof.Machine

/-! ## The session's words -/

/-- The words of a session are read from the session and its meter alone (R148). -/
theorem sessionWords_congr {s t : State} (hs : t.ses = s.ses) (hm : t.mtr = s.mtr) (reason : Nat) (e : Word32) :
    sessionWords t reason e = sessionWords s reason e := by
  simp only [sessionWords, recordLength, hs, hm]

/-! ## Asking for a checkpoint (R143, R144) -/

/-- A request is judged by the session and the meter it leaves, and by the store on both sides. -/
theorem CheckpointAsked.congr {s s' t t' : State} (h : CheckpointAsked s t) (hr : s'.rst = s.rst := by simp)
    (hn : s'.nv = s.nv := by simp) (hses : t'.ses = t.ses := by simp) (hmtr : t'.mtr = t.mtr := by simp)
    (hrst : t'.rst = t.rst := by simp) (hnv : t'.nv = t.nv := by simp) : CheckpointAsked s' t' := by
  unfold CheckpointAsked at h ⊢
  simpa only [hr, hn, hses, hmtr, hrst, hnv, sessionWords_congr hses hmtr] using h

/-- The store takes a request by what its writer is at (R150, R174). -/
theorem checkpointRequest_rst_nv (c : Checkpoint) (s : State) :
    if finalPending s.rst = true then (checkpointRequest c s).rst = s.rst ∧ (checkpointRequest c s).nv = s.nv
    else if s.rst.writer = .idle then
      (checkpointRequest c s).rst = { s.rst with
        writer := .checkpoint s.rst.nextArea (s.rst.seq + 1) c, seq := s.rst.seq + 1, nextArea := s.rst.nextArea.other }
      ∧ (checkpointRequest c s).nv = setArea s.rst.nextArea { s.nv.area s.rst.nextArea with valid := false } s.nv
    else (checkpointRequest c s).rst = { s.rst with waitCheckpoint := some c } ∧ (checkpointRequest c s).nv = s.nv := by
  unfold checkpointRequest
  split
  · exact ⟨rfl, rfl⟩
  · cases hw : s.rst.writer <;> exact ⟨by simp [startCheckpoint, hw], by simp [startCheckpoint, Area.cleared]⟩

theorem askCheckpoint_asked (s : State) : CheckpointAsked s (askCheckpoint s) := by
  refine ⟨by simp [askCheckpoint, Config.checkpointMs], ?_⟩
  have hcopy : (⟨(askCheckpoint s).ses.number, sessionWords (askCheckpoint s) 0 ((askCheckpoint s).mtr.clock.getD 0)⟩ :
      Checkpoint) = checkpointCopy s := by
    simp [checkpointCopy, clockOrZero, sessionWords, recordLength, residueSum, askCheckpoint]
  dsimp only
  rw [hcopy]
  exact checkpointRequest_rst_nv (checkpointCopy s) (s.setMtr { s.mtr with checkpointTimer := .running Config.checkpointMs })

/-! ## The evaluation of the band (R136, R137) -/

theorem findBand_markTimeUnknown (s : State) : findBand (markTimeUnknown s) = findBand s :=
  findBand_congr (by simp) (by simp)

/-- An evaluation: the band found comes into force, the unknown clock is noted, and a band change asks for a checkpoint. -/
theorem evaluateBand_eq (s : State) : evaluateBand s =
    if findBand s ≠ s.mtr.band ∧ s.ses.session = .opened then askCheckpoint (adoptBand (markTimeUnknown s))
    else adoptBand (markTimeUnknown s) := by
  simp [evaluateBand, adoptBand, findBand_markTimeUnknown]

theorem adoptBand_markTimeUnknown_mtr (s : State) :
    (adoptBand (markTimeUnknown s)).mtr = { s.mtr with band := findBand s } := by
  simp [adoptBand, findBand_markTimeUnknown]

theorem evaluateBand_ses (s : State) : (evaluateBand s).ses =
    if s.mtr.clock = none ∧ s.ses.session = .opened then { s.ses with timeUnknown := true } else s.ses := by
  have hmark : (markTimeUnknown s).ses =
      if s.mtr.clock = none ∧ s.ses.session = .opened then { s.ses with timeUnknown := true } else s.ses := by
    unfold markTimeUnknown
    split <;> rfl
  rw [← hmark, evaluateBand_eq]
  split <;> simp

theorem evaluateBand_mtr (s : State) : (evaluateBand s).mtr =
    { s.mtr with band := findBand s, checkpointTimer := (evaluateBand s).mtr.checkpointTimer } := by
  rw [evaluateBand_eq]
  split <;> simp [askCheckpoint, adoptBand_markTimeUnknown_mtr]

/-- A band change of an OPEN session asks for a checkpoint, and nothing else does. -/
theorem evaluateBand_checkpoint (s : State) :
    (s.ses.session = .opened ∧ findBand s ≠ s.mtr.band → CheckpointAsked s (evaluateBand s))
    ∧ (¬ (s.ses.session = .opened ∧ findBand s ≠ s.mtr.band) → (evaluateBand s).rst = s.rst ∧ (evaluateBand s).nv = s.nv
      ∧ (evaluateBand s).mtr.checkpointTimer = s.mtr.checkpointTimer) := by
  rw [evaluateBand_eq]
  refine ⟨fun ⟨ho, hb⟩ => ?_, fun hno => ?_⟩
  · rw [if_pos ⟨hb, ho⟩]
    exact (askCheckpoint_asked (adoptBand (markTimeUnknown s))).congr
  · rw [if_neg fun h => hno h.symm]
    simp

/-! ## The tariff requests (R134, R138 to R140) -/

theorem exec_setTime (len : Nat) (hi lo : Word) {s : State} (h : Ready .F s) : exec (.setTime ⟨.F, len⟩ hi lo) s =
    .next (answer .F len .ok [] s (evaluateBand (setClock (join32 hi lo) s))) :=
  by rw [exec, execSetTime, request_admitted _ h (List.mem_singleton_self _)]

theorem exec_lockTariff (len : Nat) {s : State} (h : Ready .F s) : exec (.lockTariff ⟨.F, len⟩) s =
    .next (if s.mtr.lockHeld then answer .F len .busy [] s s else answer .F len .ok [] s
      (s.setMtr { s.mtr with lockHeld := true, lockTimer := .running Config.tariffLockMs })) := by
  rw [exec, execLockTariff, request_admitted _ h (List.mem_singleton_self _)]
  split <;> rfl

theorem exec_unlockTariff (len : Nat) {s : State} (h : Ready .F s) : exec (.unlockTariff ⟨.F, len⟩) s =
    .next (if s.mtr.lockHeld then answer .F len .ok [] s (evaluateBand (freeLock s)) else answer .F len .denied [] s s) := by
  rw [exec, execUnlockTariff, request_admitted _ h (List.mem_singleton_self _)]
  split <;> rfl

theorem exec_tariffLockExpiry {s : State} (h : s.powered = true) : exec .tariffLockExpiry s =
    .next (if s.mtr.lockTimer.isRunning then breakLock s else s) :=
  live_powered _ h

theorem Timer.isRunning_iff (t : Timer) : t.isRunning = true ↔ t ≠ .stopped := by
  cases t <;> simp [Timer.isRunning]

/-- What an evaluation under a freed lock leaves in a state t that differs from it in other things alone (R136 to R138). -/
theorem evaluateBand_freed {s u t : State} (hmtr : u.mtr = { s.mtr with lockHeld := false, lockTimer := .stopped })
    (hplan : u.plan = s.plan) (hses : u.ses = s.ses) (hrst : u.rst = s.rst) (hnv : u.nv = s.nv)
    (tmtr : t.mtr = (evaluateBand u).mtr := by simp) (tses : t.ses = (evaluateBand u).ses := by simp)
    (trst : t.rst = (evaluateBand u).rst := by simp) (tnv : t.nv = (evaluateBand u).nv := by simp) :
    (t.mtr.lockHeld = false ∧ t.mtr.lockTimer = .stopped ∧ t.mtr.band = findBand s)
      ∧ t.ses = (if s.mtr.clock = none ∧ s.ses.session = .opened then { s.ses with timeUnknown := true } else s.ses)
      ∧ (s.ses.session = .opened ∧ t.mtr.band ≠ s.mtr.band → CheckpointAsked s t)
      ∧ (¬ (s.ses.session = .opened ∧ t.mtr.band ≠ s.mtr.band) →
        t.rst = s.rst ∧ t.nv = s.nv ∧ t.mtr.checkpointTimer = s.mtr.checkpointTimer) := by
  have hband : findBand u = findBand s := findBand_congr hplan (by rw [hmtr])
  obtain ⟨hasked, hnot⟩ := evaluateBand_checkpoint u
  rw [hband, hmtr, hses] at hasked hnot
  rw [tmtr, tses, trst, tnv, evaluateBand_band, hband]
  refine ⟨⟨by simp [hmtr], by simp [hmtr], rfl⟩, by rw [evaluateBand_ses, hmtr, hses], fun h => ?_, fun h => ?_⟩
  · exact (hasked h).congr hrst.symm hnv.symm tses tmtr trst tnv
  · simpa [hrst, hnv] using hnot h

/-- What SET TIME leaves, as an evaluation under the clock it sets (R134, R136). -/
theorem evaluateBand_setClock (sec : Word32) {s t : State} (tmtr : t.mtr = (evaluateBand (setClock sec s)).mtr := by simp)
    (tses : t.ses = (evaluateBand (setClock sec s)).ses := by simp)
    (trst : t.rst = (evaluateBand (setClock sec s)).rst := by simp)
    (tnv : t.nv = (evaluateBand (setClock sec s)).nv := by simp) :
    (t.mtr.clock = some sec ∧ t.mtr.tenths = 0
      ∧ t.mtr.band = findBand { s with mtr := { s.mtr with clock := some sec } } ∧ t.mtr.lockHeld = s.mtr.lockHeld)
      ∧ t.ses = s.ses
      ∧ (s.ses.session = .opened ∧ t.mtr.band ≠ s.mtr.band → CheckpointAsked s t)
      ∧ (¬ (s.ses.session = .opened ∧ t.mtr.band ≠ s.mtr.band) →
        t.rst = s.rst ∧ t.nv = s.nv ∧ t.mtr.checkpointTimer = s.mtr.checkpointTimer) := by
  have hband : findBand (setClock sec s) = findBand { s with mtr := { s.mtr with clock := some sec } } :=
    findBand_congr rfl rfl
  obtain ⟨hasked, hnot⟩ := evaluateBand_checkpoint (setClock sec s)
  rw [tmtr, tses, trst, tnv, evaluateBand_band]
  refine ⟨⟨by simp [setClock], (evaluateBand_clock _).2, hband, by simp [setClock]⟩, by rw [evaluateBand_ses]; rfl,
    fun h => ?_, fun h => ?_⟩
  · exact (hasked h).congr rfl rfl tses tmtr trst tnv
  · exact hnot h

/-- Settles O49: each request and the expiry as an evaluation of the band under the clock or the lock that it leaves. -/
theorem tariffRequests : Obligations.TariffRequests := by
  intro len hi lo s hr
  refine ⟨⟨_, exec_setTime len hi lo hr, ?_⟩, fun h => ?_, fun h => ⟨?_, ?_⟩,
    fun h => ⟨⟨_, (exec_unlockTariff len hr).trans (by rw [if_pos h]), ?_⟩, fun ht =>
      ⟨_, (exec_tariffLockExpiry hr.1).trans (by rw [if_pos ((Timer.isRunning_iff _).2 ht)]), ?_⟩⟩, fun h => ?_⟩
  · obtain ⟨⟨hc, ht, hb, hl⟩, hses, hasked, hnot⟩ := evaluateBand_setClock (hi ++ lo) (s := s)
      (t := answer .F len .ok [] s (evaluateBand (setClock (join32 hi lo) s))) (tmtr := by simp [join32])
      (tses := by simp [join32]) (trst := by simp [join32]) (tnv := by simp [join32])
    have hport := answer_port .F len .ok [] s (evaluateBand (setClock (join32 hi lo) s))
    refine ⟨by rw [show ∀ u : State, u.portF = u.port .F from fun _ => rfl, hport], hc, ht, hb, hl, hses, by simp [setClock],
      by simp [setClock], by simp [setClock], by simp [setClock], by simp [setClock], ?_, hasked, hnot,
      by simp [RestKept, setClock]⟩
    simp [setClock, accountEnergy, accountWh, residueSum]
  · rw [exec_lockTariff len hr, if_pos h]
  · rw [exec_lockTariff len hr, h]; rfl
  · rw [exec_unlockTariff len hr, h]; rfl
  · obtain ⟨⟨hl, ht, hb⟩, hev⟩ := evaluateBand_freed (s := s) (u := freeLock s)
      (t := answer .F len .ok [] s (evaluateBand (freeLock s))) rfl rfl rfl rfl rfl
    have hport := answer_port .F len .ok [] s (evaluateBand (freeLock s))
    exact ⟨by rw [show ∀ u : State, u.portF = u.port .F from fun _ => rfl, hport], hl, ht, hb, hev, by simp [freeLock],
      by simp [freeLock], by simp [freeLock], by simp [freeLock], by simp [freeLock], by simp [RestKept, freeLock]⟩
  · have hbreak : breakLock s = evaluateBand (raise .tariffLockBroken (freeLock s)) := by rw [breakLock, if_pos h]
    obtain ⟨⟨hl, ht, hb⟩, hev⟩ := evaluateBand_freed (s := s) (u := raise .tariffLockBroken (freeLock s))
      (t := breakLock s) (by simp [freeLock]) (by simp [freeLock]) (by simp [freeLock]) (by simp [freeLock])
      (by simp [freeLock]) (by rw [hbreak]) (by rw [hbreak]) (by rw [hbreak]) (by rw [hbreak])
    exact ⟨hl, ht, hb, hev, (breakLock_spec s h).2.2, by simp, by simp, by simp, by simp, by simp, by simp [RestKept]⟩
  · rw [exec_tariffLockExpiry hr.1]
    rcases h with h | h <;> simp [h, breakLock, Timer.isRunning]

end Sys2Proof.Machine
end

section
/-! PROOFS. The completions of the store's writes, and the write taken next (R143, R144, R150 to R154, R174). -/

namespace Sys2Proof.Machine

/-! ## What the store's operations touch -/

theorem checkpointRequest_store (c : Checkpoint) (s : State) :
    checkpointRequest c s = { s with rst := (checkpointRequest c s).rst, nv := (checkpointRequest c s).nv } := by
  unfold checkpointRequest
  split
  · rfl
  · cases s.rst.writer <;> rfl

theorem askCheckpoint_store (s : State) : askCheckpoint s =
    { s with
      mtr := { s.mtr with checkpointTimer := .running 60000 }, rst := (askCheckpoint s).rst, nv := (askCheckpoint s).nv } :=
  checkpointRequest_store _ _

theorem nextWrite_store (s : State) : nextWrite s = { s with rst := (nextWrite s).rst, nv := (nextWrite s).nv } := by
  unfold nextWrite
  split <;> rfl

/-- The writer takes the next write in the order final, image, checkpoint (R152, R153, R174). -/
theorem nextWrite_took (s : State) : TookNextWrite s.rst (nextWrite s).rst := by
  unfold nextWrite TookNextWrite
  split <;> simp [startCheckpoint, *]

/-- Only a checkpoint write that starts touches the memory: its area loses the valid mark (R152). -/
theorem nextWrite_nv (s : State) :
    (¬ (s.rst.waitFinal = none ∧ s.rst.waitImage = none ∧ s.rst.waitCheckpoint ≠ none) → (nextWrite s).nv = s.nv)
    ∧ (s.rst.waitFinal = none ∧ s.rst.waitImage = none ∧ s.rst.waitCheckpoint ≠ none →
      (nextWrite s).nv = setArea s.rst.nextArea { s.nv.area s.rst.nextArea with valid := false } s.nv) := by
  unfold nextWrite
  split <;> simp [startCheckpoint, Area.cleared, *]

/-- What follows a completion that leaves the memory nv. -/
theorem nextWrite_completed (s : State) (nv : Nv) :
    nextWrite (s.setNv nv) = { s with rst := (nextWrite (s.setNv nv)).rst, nv := (nextWrite (s.setNv nv)).nv }
    ∧ TookNextWrite s.rst (nextWrite (s.setNv nv)).rst
    ∧ (¬ (s.rst.waitFinal = none ∧ s.rst.waitImage = none ∧ s.rst.waitCheckpoint ≠ none) → (nextWrite (s.setNv nv)).nv = nv)
    ∧ (s.rst.waitFinal = none ∧ s.rst.waitImage = none ∧ s.rst.waitCheckpoint ≠ none →
      (nextWrite (s.setNv nv)).nv = setArea s.rst.nextArea { nv.area s.rst.nextArea with valid := false } nv) :=
  ⟨nextWrite_store (s.setNv nv), nextWrite_took (s.setNv nv), nextWrite_nv (s.setNv nv)⟩

/-! ## The events -/

theorem exec_checkpointTimerExpiry {s : State} (h : s.powered = true) : exec .checkpointTimerExpiry s =
    .next (if s.mtr.checkpointTimer.isRunning && s.ses.session == .opened then askCheckpoint s else s) :=
  live_powered _ h

theorem exec_checkpointWriteComplete {s : State} (h : s.powered = true) :
    exec .checkpointWriteComplete s = .next (checkpointDone s) :=
  live_powered _ h

theorem exec_imageWriteComplete {s : State} (h : s.powered = true) : exec .imageWriteComplete s = .next (imageDone s) :=
  live_powered _ h

theorem exec_finalWriteComplete {s : State} (h : s.powered = true) : exec .finalWriteComplete s = .next (finalDone s) :=
  live_powered _ h

theorem checkpointDone_of_other {s : State} (h : ∀ a q c, s.rst.writer ≠ .checkpoint a q c) : checkpointDone s = s := by
  unfold checkpointDone
  split
  next a q c hw => exact absurd hw (h a q c)
  next => rfl

theorem imageDone_of_other {s : State} (h : ∀ v, s.rst.writer ≠ .image v) : imageDone s = s := by
  unfold imageDone
  split
  next v hw => exact absurd hw (h v)
  next => rfl

theorem finalDone_of_other {s : State} (h : ∀ n ws, s.rst.writer ≠ .final n ws) : finalDone s = s := by
  unfold finalDone
  split
  next n ws hw => exact absurd hw (h n ws)
  next => rfl

/-- Settles O50: the timer asks for a checkpoint, and each completion stores what was written and takes the next write. -/
theorem checkpointsWritten : Obligations.CheckpointsWritten := by
  refine ⟨fun s hp => ⟨fun h => ?_, fun ho ht => ⟨askCheckpoint s, ?_, askCheckpoint_store s, askCheckpoint_asked s⟩⟩,
    fun s hp => ⟨fun h => ?_, fun h => ?_, fun a q c hw => ?_, fun v hw => ?_⟩⟩
  · rw [exec_checkpointTimerExpiry hp, if_neg]
    rcases h with h | h <;> simp [h, Timer.isRunning]
  · rw [exec_checkpointTimerExpiry hp, if_pos]
    simp [ho, (Timer.isRunning_iff _).2 ht]
  · rw [exec_checkpointWriteComplete hp, checkpointDone_of_other h]
  · rw [exec_imageWriteComplete hp, imageDone_of_other h]
  · have hdone : checkpointDone s = nextWrite (s.setNv (setArea a (Area.written q c) s.nv)) := by rw [checkpointDone, hw]
    refine ⟨_, exec_checkpointWriteComplete hp, ?_⟩
    rw [hdone]
    exact nextWrite_completed s _
  · have hdone : imageDone s = nextWrite (s.setNv { s.nv with image := v }) := by rw [imageDone, hw]
    refine ⟨_, exec_imageWriteComplete hp, ?_⟩
    rw [hdone]
    exact nextWrite_completed s _

/-! ## The final write (R36, R153, R154) -/

/-- A session in CLOSING leaves by the plug state, empty (R36). -/
theorem leaveClosing_spec {s : State} (h : s.ses.session = .closing) :
    (leaveClosing s).ses = { s.ses with
      session := if s.ses.plug = .plugged then .plugged else .none, tag := none, number := 0,
      prices := Vector.replicate 4 0 }
    ∧ (leaveClosing s).mtr = s.mtr.emptied := by
  simp [leaveClosing, h, enterSession, Ses.emptied]

theorem raiseStoreLow_told {s t : State} (hg : Grows s t) (h : 56 ≤ uncollected t.nv.slots) :
    ToldAll .storeLow s (raiseStoreLow t) := by
  rw [raiseStoreLow, raiseIf, if_pos (decide_eq_true (by simpa [Config.storeLowAt] using h))]
  exact raise_toldAll_of_grows _ hg

theorem Area.cleared_of_invalid {a : Area} (h : a.valid = false) : a.cleared = a := by
  rw [Area.cleared, ← h]

theorem setArea_self (a : AreaId) (nv : Nv) : setArea a (nv.area a) nv = nv := by
  cases a <;> rfl

/-- The write taken behind a final write finds both areas void, and leaves the memory as it is. -/
theorem nextWrite_nv_void {s : State} (ha : s.nv.areaA.valid = false) (hb : s.nv.areaB.valid = false) :
    (nextWrite s).nv = s.nv := by
  obtain ⟨hkept, hstarts⟩ := nextWrite_nv s
  by_cases h : s.rst.waitFinal = none ∧ s.rst.waitImage = none ∧ s.rst.waitCheckpoint ≠ none
  · have hinvalid : (s.nv.area s.rst.nextArea).valid = false := by
      cases s.rst.nextArea
      · exact ha
      · exact hb
    exact (hstarts h).trans ((congrArg (setArea _ · _) (Area.cleared_of_invalid hinvalid)).trans (setArea_self _ _))
  · exact hkept h

theorem finalWritten_eq {n : Word32} {ws : List Word} {nv : Nv} {i : Fin 64} (h : slotReserved nv.slots n = some i) :
    finalWritten n ws nv = { nv with
      slots := nv.slots.set i ⟨.record n, overlay nv.slots[i].content ws⟩
      areaA := { nv.areaA with valid := false }, areaB := { nv.areaB with valid := false } } := by
  simp [finalWritten, h, voidAreas, markSlot, fillSlot, setSlot, Area.cleared]

/-- Settles O51: the record in its slot, the session out of CLOSING, the notices, and the next write. -/
theorem finalWriteCompletes : Obligations.FinalWriteCompletes := by
  refine fun s hp => ⟨fun h => by rw [exec_finalWriteComplete hp, finalDone_of_other h], fun n ws i hw hc hi => ?_⟩
  have hnv := finalWritten_eq (ws := ws) hi
  generalize hnew : finalWritten n ws s.nv = new at hnv
  let b := nextWrite ((s.setNv new).setRst { s.rst with nextArea := .A })
  have hdone : finalDone s = raiseStoreLow (raise .recordReady (leaveClosing b)) := by
    rw [finalDone, hw]; subst hnew; rfl
  have hbses : b.ses = s.ses := by simp [b]
  have hbnv : b.nv = new := nextWrite_nv_void (by simp [hnv]) (by simp [hnv])
  obtain ⟨hses, hmtr⟩ := leaveClosing_spec (s := b) (by rw [hbses, hc])
  have hsb : Grows s b := .of_eq (by simp [b])
  have hgrow : Grows s (raise .recordReady (leaveClosing b)) := (hsb.trans (leaveClosing_grows b)).trans (raise_grows _ _)
  have hready : ToldAll .recordReady s (raise .recordReady (leaveClosing b)) :=
    raise_toldAll_of_grows _ (hsb.trans (leaveClosing_grows b))
  have hchange : ToldAll .sessionChange s (leaveClosing b) := .after hsb (leaveClosing_told b (by rw [hbses, hc]))
  refine ⟨_, (exec_finalWriteComplete hp).trans (by rw [hdone]), ?_, ?_, ?_, ?_, ?_, hready.grow (raiseStoreLow_grows _),
    (hchange.grow (raise_grows _ _)).grow (raiseStoreLow_grows _), fun h => raiseStoreLow_told hgrow (by simpa using h),
    by simp [b], by simp [b], by simp [b], by simp [b], (hgrow.trans (raiseStoreLow_grows _)).portsKept, by simp [RestKept, b]⟩
  · simp [hbnv, hnv]
  · simpa [b] using nextWrite_took ((s.setNv new).setRst { s.rst with nextArea := .A })
  · simp [hses, hbses]
  · simp [hmtr, Mtr.emptied, accountEnergy, accountWh, residueSum, Account.zero]
  · simp [hmtr, Mtr.emptied]

end Sys2Proof.Machine
end

section
/-! PROOFS. The assertion and the release of a port's reset line (R169, R178). -/

namespace Sys2Proof.Machine

theorem raise_port_of_asserted {s : State} {p : PortId} (k : Notice) (h : (s.port p).resetAsserted = true) :
    (raise k s).port p = s.port p := by
  rw [raise_port]
  exact PortState.offer_of_not_takes _ _ fun ht => Bool.noConfusion (h.symm.trans ht.1)

/-- A port whose reset line is asserted takes no notice of the release of what it owns. -/
theorem releaseOwned_port {p : PortId} {s : State} (h : (s.port p).resetAsserted = true) :
    (releaseOwned p s).port p = s.port p := by
  cases p
  case V =>
    rw [releaseOwned, dropHoldWithNotice]
    split
    · rfl
    · exact raise_port_of_asserted _ h
  case P =>
    rw [releaseOwned, endRestWithNotice]
    split
    · exact raise_port_of_asserted _ h
    · rfl
  case F =>
    rw [releaseOwned, breakLock]
    split
    · simpa using raise_port_of_asserted (s := freeLock (s.setRecordBuffer none)) .tariffLockBroken (by simpa [freeLock] using h)
    · rfl

/-- What a port's reset releases, but for the lock (R68, R70, R142, R169). -/
theorem releaseOwned_spec (p : PortId) (s : State) :
    (releaseOwned p s).recordBuffer = (if p = .F then none else s.recordBuffer)
      ∧ (releaseOwned p s).alc = (match p with
        | .V => if s.alc.hold = .none then s.alc else { s.alc with hold := .none, holdTimer := .stopped }
        | .P => if s.alc.resting = true then { s.alc with resting := false, restTimer := .stopped } else s.alc
        | .F => s.alc)
      ∧ (p ≠ .F ∨ s.mtr.lockHeld = false → (releaseOwned p s).mtr = s.mtr ∧ (releaseOwned p s).ses = s.ses
        ∧ (releaseOwned p s).rst = s.rst ∧ (releaseOwned p s).nv = s.nv)
      ∧ (p = .V → s.alc.hold ≠ .none → ToldAll .holdChange s (releaseOwned p s))
      ∧ (p = .P → s.alc.resting = true → ToldAll .holdChange s (releaseOwned p s)) := by
  cases p
  case V =>
    rw [releaseOwned, dropHoldWithNotice]
    split
    next h => simp [h]
    next h => simpa [h, dropHold] using raise_toldAll_of_grows .holdChange (Grows.of_eq (s := s) (t := dropHold s) (by simp))
  case P =>
    rw [releaseOwned, endRestWithNotice]
    split
    next h => simpa [h, endRest] using raise_toldAll_of_grows .holdChange (Grows.of_eq (s := s) (t := endRest s) (by simp))
    next h => simp [h]
  case F =>
    refine ⟨by simp [releaseOwned], by simp [releaseOwned], fun h => ?_, nofun, nofun⟩
    simp [releaseOwned, breakLock, h.resolve_left (by simp)]

theorem exec_portReset {p : PortId} {s : State} (hp : s.powered = true) (h : (s.port p).resetAsserted = false) :
    exec (.portReset p) s = .next (releaseOwned p (s.setPort p (s.port p).atReset)) :=
  (live_powered _ hp).trans (by rw [resetPort, h]; rfl)

theorem exec_portResetRelease {p : PortId} {s : State} (hp : s.powered = true) :
    exec (.portResetRelease p) s =
      .next (if (s.port p).resetAsserted then s.setPort p (s.port p).released else s) :=
  live_powered _ hp

/-- The release of the line: what is owed joins, and nothing else moves (R178). -/
theorem released_spec (pt : PortState) :
    pt.released.resetAsserted = false ∧ pt.released.restartOwed = false
      ∧ NoticesOnly { pt with resetAsserted := false, restartOwed := false } pt.released
      ∧ (pt.restartOwed = false → pt.released.pending = pt.pending ∧ pt.released.attention = pt.attention)
      ∧ (pt.restartOwed = true → Told .restart pt.released
        ∧ ∀ i, i < 16 → i ≠ 13 → flag pt.released.pending i = flag pt.pending i) := by
  rw [PortState.released]
  split
  next h =>
    have hjoin := PortState.join_noticesOnly { pt with resetAsserted := false, restartOwed := false } .restart
    refine ⟨by rw [hjoin], by rw [hjoin], hjoin, fun h' => Bool.noConfusion (h.symm.trans h'), fun _ =>
      ⟨PortState.join_told _ _, fun i hi hne => ?_⟩⟩
    rw [PortState.join_pending _ _ i hi]
    simp [Notice.index, hne]
  next h => simp [h, NoticesOnly]

theorem releaseOwned_lockHeld {p : PortId} {s : State} (h : p = .F) : (releaseOwned p s).mtr.lockHeld = false := by
  subst h
  rw [releaseOwned, breakLock]
  split
  next => simp [freeLock]
  next hl => simpa using hl

/-- Port F's reset breaks a HELD lock, with an evaluation of the band (R136, R137, R142); u is s but for port F. -/
theorem releaseOwned_lock {s u : State} (hl : s.mtr.lockHeld = true) (hmtr : u.mtr = s.mtr) (hplan : u.plan = s.plan)
    (hses : u.ses = s.ses) (hrst : u.rst = s.rst) (hnv : u.nv = s.nv) :
    (releaseOwned .F u).mtr = { s.mtr with
        lockHeld := false, lockTimer := .stopped, band := findBand s
        checkpointTimer := (releaseOwned .F u).mtr.checkpointTimer }
      ∧ (releaseOwned .F u).ses =
        (if s.mtr.clock = none ∧ s.ses.session = .opened then { s.ses with timeUnknown := true } else s.ses)
      ∧ (s.ses.session = .opened ∧ (releaseOwned .F u).mtr.band ≠ s.mtr.band → CheckpointAsked s (releaseOwned .F u))
      ∧ (¬ (s.ses.session = .opened ∧ (releaseOwned .F u).mtr.band ≠ s.mtr.band) →
        (releaseOwned .F u).rst = s.rst ∧ (releaseOwned .F u).nv = s.nv
          ∧ (releaseOwned .F u).mtr.checkpointTimer = s.mtr.checkpointTimer)
      ∧ ToldAll .tariffLockBroken u (releaseOwned .F u) := by
  have hbreak : releaseOwned .F u = evaluateBand (raise .tariffLockBroken (freeLock (u.setRecordBuffer none))) := by
    rw [releaseOwned, breakLock, if_pos (by simpa [hmtr] using hl)]
  have htold : ToldAll .tariffLockBroken u (releaseOwned .F u) :=
    .after (.of_eq (by simp)) (breakLock_spec (u.setRecordBuffer none) (by simpa [hmtr] using hl)).2.2
  obtain ⟨⟨-, -, hband⟩, hev, hasked, hnot⟩ := evaluateBand_freed (s := s) (t := releaseOwned .F u)
    (u := raise .tariffLockBroken (freeLock (u.setRecordBuffer none))) (by simp [freeLock, hmtr]) (by simp [freeLock, hplan])
    (by simp [freeLock, hses]) (by simp [freeLock, hrst]) (by simp [freeLock, hnv]) (by rw [hbreak]) (by rw [hbreak])
    (by rw [hbreak]) (by rw [hbreak])
  refine ⟨?_, hev, hasked, hnot, htold⟩
  rw [hbreak, evaluateBand_mtr]
  rw [findBand_congr (s := s) (by simp [freeLock, hplan]) (by simp [freeLock, hmtr])]
  simp [freeLock, hmtr]

/-- Settles O13: the port's own state, what it owned, and the broken lock as an evaluation of the band. -/
theorem portResets : Obligations.PortResets := by
  refine ⟨fun p s hp hr => ⟨_, exec_portReset hp hr, ?_⟩, fun p s hp => ⟨fun h => ?_, fun h =>
    ⟨(s.port p).released, ?_, released_spec _⟩⟩⟩
  · have hport : (releaseOwned p (s.setPort p (s.port p).atReset)).port p = (s.port p).atReset :=
      (releaseOwned_port (by simp [PortState.atReset])).trans (by simp)
    obtain ⟨hbuffer, halc, hkept, hhold, hrest⟩ := releaseOwned_spec p (s.setPort p (s.port p).atReset)
    simp only [State.setPort_recordBuffer, State.setPort_alc, State.setPort_mtr, State.setPort_ses, State.setPort_rst,
      State.setPort_nv] at hbuffer halc hkept hhold hrest
    rw [hport]
    refine ⟨rfl, (releaseOwned_grows _ _).portsKept, hbuffer, halc, ?_, hkept, ?_, hhold, hrest, by simp, by simp, by simp,
      by simp, by simp, by simp⟩
    · split
      next h => exact releaseOwned_lockHeld h
      next h => rw [(hkept (.inl h)).1]
    · rintro rfl hl
      exact releaseOwned_lock hl (by simp) (by simp) (by simp) (by simp) (by simp)
  · rw [exec_portResetRelease hp, h]; rfl
  · rw [exec_portResetRelease hp, h]; rfl

end Sys2Proof.Machine
end

section
/-! PROOFS. The shares of an interval's energy, the band lines it is booked to, and the meter's clock (R126 to R133, R136, R141). -/

namespace Sys2Proof.Machine

-- One proof after another: side by side they wait for each other in more threads than a small memory holds.
set_option Elab.async false

/-! ## The shares (R129) -/

/-- The rounded-down thirds of a whole lose at most 2 of it. -/
theorem floors_of_sum {x y z e g : Nat} (hg : 0 < g) (h : x + y + z = e * g) :
    x / g + y / g + z / g ≤ e ∧ e ≤ x / g + y / g + z / g + 2 := by
  have hx := Nat.div_add_mod x g
  have hy := Nat.div_add_mod y g
  have hz := Nat.div_add_mod z g
  have hxr := Nat.mod_lt x hg
  have hyr := Nat.mod_lt y hg
  have hzr := Nat.mod_lt z hg
  constructor
  · have hle : g * (x / g + y / g + z / g) ≤ g * e := by
      linarith [Nat.mul_div_le x g, Nat.mul_div_le y g, Nat.mul_div_le z g]
    exact Nat.le_of_mul_le_mul_left hle hg
  · have hlt : g * e < g * (x / g + y / g + z / g + 3) := by linarith
    exact Nat.le_of_lt_succ (Nat.lt_of_mul_lt_mul_left hlt)

/-- Settles O45: the floors of the shares, and what they leave of the whole to the largest grant. -/
theorem sharesOfEnergy : Obligations.SharesOfEnergy := by
  intro r e
  dsimp only
  rw [sharesOf]
  split
  next h =>
    obtain ⟨hsrc, hg⟩ := h
    have hfloor := floors_of_sum (x := e * r.s) (y := e * r.gHeat) (z := e * r.gAux) (e := e) hg (by ring)
    have hs0 : r.s = 0 → e * r.s / (r.gHeat + r.gAux + r.s) = 0 := fun h => by simp [h]
    have hh0 : r.gHeat = 0 → e * r.gHeat / (r.gHeat + r.gAux + r.s) = 0 := fun h => by simp [h]
    have ha0 : r.gAux = 0 → e * r.gAux / (r.gHeat + r.gAux + r.s) = 0 := fun h => by simp [h]
    dsimp only
    generalize e * r.s / (r.gHeat + r.gAux + r.s) = a at *
    generalize e * r.gHeat / (r.gHeat + r.gAux + r.s) = b at *
    generalize e * r.gAux / (r.gHeat + r.gAux + r.s) = c at *
    split
    next => simp [hsrc]; omega
    next =>
      split
      next => simp [hsrc]; omega
      next => simp [hsrc]; omega
  next h =>
    refine ⟨by simp, fun _ => rfl, fun hsrc hg => absurd ⟨hsrc, hg⟩ h⟩

theorem sharesOf_sum (r : GrantRecord) (e : Nat) :
    (sharesOf r e).chg + (sharesOf r e).heat + (sharesOf r e).aux + (sharesOf r e).standby = e :=
  (sharesOfEnergy r e).1

/-! ## The power of an interval (R126) -/

theorem pAc_le (s : State) (p1 p2 p3 : Int) : pAc s p1 p2 p3 ≤ 30000 := by
  unfold pAc
  dsimp only
  omega

/-! ## The band lines (R130, R131) -/

/-- The lines after k watt-hours of one band: its line grows by them, or begins with them. -/
def linesAfter (band : Fin 4) (price : Word) (k : Nat) (ls : List BandLine) : List BandLine :=
  if k = 0 then ls
  else if band ∈ ls.map (·.band) then
    ls.map fun l => if l.band = band then ⟨band, price, l.wh + k, l.cost + k * price.toNat⟩ else l
  else ls ++ [⟨band, price, k, k * price.toNat⟩]

/-- The lines of distinct bands, each at the frozen price of its band and with its cost. -/
def LinesPriced (prices : Vector Word 4) (ls : List BandLine) : Prop :=
  (ls.map (·.band)).Nodup ∧ ∀ l ∈ ls, l.price = prices[l.band] ∧ l.cost = l.wh * l.price.toNat

/-- A watt-hour of a band without a line begins one. -/
theorem bookLine_of_not_mem {band : Fin 4} (price : Word) {ls : List BandLine} (h : band ∉ ls.map (·.band)) :
    bookLine band price ls = ls ++ [⟨band, price, 1, price.toNat⟩] := by
  induction ls with
  | nil => rfl
  | cons l ls ih =>
    rw [List.map_cons, List.mem_cons, not_or] at h
    rw [bookLine, if_neg (Ne.symm h.1), ih h.2, List.cons_append]

/-- A watt-hour of a band with a line joins it. -/
theorem bookLine_of_mem {band : Fin 4} {price : Word} {ls : List BandLine} (h : band ∈ ls.map (·.band))
    (hn : (ls.map (·.band)).Nodup) (hp : ∀ l ∈ ls, l.band = band → l.price = price) :
    bookLine band price ls =
      ls.map fun l => if l.band = band then ⟨band, price, l.wh + 1, l.cost + price.toNat⟩ else l := by
  induction ls with
  | nil => simp at h
  | cons l ls ih =>
    rw [List.map_cons, List.nodup_cons] at hn
    rw [bookLine, List.map_cons]
    split
    next hl =>
      have hrest : (ls.map fun l => if l.band = band then ⟨band, price, l.wh + 1, l.cost + price.toNat⟩ else l) = ls := by
        refine (List.map_congr_left fun x hx => ?_).trans (List.map_id ls)
        exact if_neg fun hxb : x.band = band => hn.1 (List.mem_map.2 ⟨x, hx, hxb.trans hl.symm⟩)
      rw [hrest, hl, hp l (by simp) hl]
    next hl =>
      rw [List.map_cons, List.mem_cons] at h
      rw [ih (h.resolve_left (Ne.symm hl)) hn.2 fun x hx => hp x (by simp [hx])]

/-- A watt-hour joins the line that began behind the others. -/
theorem bookLine_last {band : Fin 4} (price : Word) (k c : Nat) {ls : List BandLine} (h : band ∉ ls.map (·.band)) :
    bookLine band price (ls ++ [⟨band, price, k, c⟩]) = ls ++ [⟨band, price, k + 1, c + price.toNat⟩] := by
  induction ls with
  | nil => simp [bookLine]
  | cons l ls ih =>
    rw [List.map_cons, List.mem_cons, not_or] at h
    rw [List.cons_append, bookLine, if_neg (Ne.symm h.1), ih h.2, List.cons_append]

/-- One more watt-hour behind k of them. -/
theorem bookLine_linesAfter {band : Fin 4} {price : Word} {ls : List BandLine} (k : Nat)
    (hn : (ls.map (·.band)).Nodup) (hp : ∀ l ∈ ls, l.band = band → l.price = price) :
    bookLine band price (linesAfter band price k ls) = linesAfter band price (k + 1) ls := by
  by_cases hm : band ∈ ls.map (·.band)
  case neg =>
    rcases Nat.eq_zero_or_pos k with rfl | hk
    · simpa [linesAfter, hm] using bookLine_of_not_mem price hm
    · simpa [linesAfter, hm, hk.ne', Nat.succ_mul] using bookLine_last price k (k * price.toNat) hm
  case pos =>
    rcases Nat.eq_zero_or_pos k with rfl | hk
    · simpa [linesAfter, hm] using bookLine_of_mem hm hn hp
    · have hbands : (ls.map fun l => if l.band = band then (⟨band, price, l.wh + k, l.cost + k * price.toNat⟩ : BandLine)
          else l).map (·.band) = ls.map (·.band) := by
        rw [List.map_map]
        refine List.map_congr_left fun l _ => ?_
        by_cases hb : l.band = band <;> simp [hb]
      rw [linesAfter, if_neg hk.ne', if_pos hm, linesAfter, if_neg (Nat.succ_ne_zero k), if_pos hm,
        bookLine_of_mem (hbands.symm ▸ hm) (hbands.symm ▸ hn), List.map_map]
      · refine List.map_congr_left fun l _ => ?_
        by_cases hb : l.band = band
        · simp [hb, Nat.succ_mul, Nat.add_assoc]
        · simp [hb]
      · rintro l hl hb
        obtain ⟨x, hx, rfl⟩ := List.mem_map.1 hl
        by_cases hxb : x.band = band
        · simp [hxb]
        · simp [hxb] at hb

/-- A share completes one watt-hour behind k of them, or none. -/
theorem bookShare_linesAfter {band : Fin 4} {price : Word} {ls : List BandLine} (x : Account) (e k : Nat)
    (hn : (ls.map (·.band)).Nodup) (hp : ∀ l ∈ ls, l.band = band → l.price = price) :
    bookShare band price x e (linesAfter band price k ls) =
      linesAfter band price (k + if completes x e = true then 1 else 0) ls := by
  rw [bookShare]
  split
  · exact bookLine_linesAfter k hn hp
  · rfl

theorem linesPriced_linesAfter {prices : Vector Word 4} {ls : List BandLine} (band : Fin 4) (k : Nat)
    (h : LinesPriced prices ls) : LinesPriced prices (linesAfter band prices[band] k ls) := by
  obtain ⟨hn, hl⟩ := h
  rw [linesAfter]
  split
  · exact ⟨hn, hl⟩
  · split
    next hm =>
      refine ⟨?_, fun l hlm => ?_⟩
      · have hbands : (ls.map fun l => if l.band = band
            then (⟨band, prices[band], l.wh + k, l.cost + k * prices[band].toNat⟩ : BandLine) else l).map (·.band) =
            ls.map (·.band) := by
          rw [List.map_map]
          refine List.map_congr_left fun l _ => ?_
          by_cases hb : l.band = band <;> simp [hb]
        rw [hbands]; exact hn
      · obtain ⟨x, hx, rfl⟩ := List.mem_map.1 hlm
        obtain ⟨hprice, hcost⟩ := hl x hx
        split
        next hb => exact ⟨rfl, by simp [hcost, hprice, hb, Nat.add_mul]⟩
        next => exact ⟨hprice, hcost⟩
    next hm =>
      refine ⟨?_, fun l hlm => ?_⟩
      · rw [List.map_append, List.nodup_append]
        refine ⟨hn, by simp, fun a ha b hb => ?_⟩
        simp only [List.map_cons, List.map_nil, List.mem_singleton] at hb
        exact fun hab => hm (hb ▸ hab ▸ ha)
      · rcases List.mem_append.1 hlm with hl' | hl'
        · exact hl l hl'
        · rw [List.mem_singleton.1 hl']
          exact ⟨rfl, rfl⟩

/-! ## A session's interval -/

/-- How many accounts a share completes a watt-hour in. -/
def bookedWh (m : Mtr) (sh : Shares) : Nat :=
  [completes m.chg sh.chg, completes m.heat sh.heat, completes m.aux sh.aux, completes m.standby sh.standby].count true

theorem bookSession_lines (sh : Shares) {s : State} (h : (s.mtr.lines.map (·.band)).Nodup)
    (hp : ∀ l ∈ s.mtr.lines, l.price = s.ses.prices[l.band]) :
    (bookSession sh s).mtr.lines =
      linesAfter s.mtr.band s.ses.prices[s.mtr.band] (bookedWh s.mtr sh) s.mtr.lines := by
  have hp' : ∀ l ∈ s.mtr.lines, l.band = s.mtr.band → l.price = s.ses.prices[s.mtr.band] :=
    fun l hl hb => by simp only [hp l hl, hb]
  have h0 : s.mtr.lines = linesAfter s.mtr.band s.ses.prices[s.mtr.band] 0 s.mtr.lines := by rw [linesAfter, if_pos rfl]
  rw [bookSession, State.setMtr_mtr]
  dsimp only
  conv_lhs => rw [h0]
  rw [bookShare_linesAfter _ _ _ h hp', bookShare_linesAfter _ _ _ h hp', bookShare_linesAfter _ _ _ h hp',
    bookShare_linesAfter _ _ _ h hp']
  congr 1
  simp only [bookedWh, List.count_cons, List.count_nil, beq_iff_eq]
  omega

theorem addShare_residue {e : Nat} {x : Account} (hx : x.residue < 36000) (he : e ≤ 36000) :
    (addShare e x).residue < 36000 := by
  unfold addShare completes Config.unitsPerWh
  split
  next => dsimp only; omega
  next h => simp at h; dsimp only; omega

theorem bookSession_energy (sh : Shares) (s : State) :
    accountEnergy (bookSession sh s).mtr = accountEnergy s.mtr + (sh.chg + sh.heat + sh.aux + sh.standby) := by
  have hc := addShare_energy sh.chg s.mtr.chg
  have hh := addShare_energy sh.heat s.mtr.heat
  have ha := addShare_energy sh.aux s.mtr.aux
  have hs := addShare_energy sh.standby s.mtr.standby
  have hm : ∀ x : Account, x.wh * Config.unitsPerWh + x.residue = x.wh * 36000 + x.residue := fun _ => rfl
  simp only [accountEnergy, accountWh, residueSum, bookSession, State.setMtr_mtr, Nat.add_mul]
  rw [← hm, ← hm] at hc hh ha hs
  omega

/-! ## The account laws (R130, R131) -/

theorem accountsSound_iff (s : State) : AccountsSound s ↔
    ((s.mtr.lines.map (·.wh)).sum = accountWh s.mtr ∧ LinesPriced s.ses.prices s.mtr.lines)
      ∧ (s.mtr.chg.residue < 36000 ∧ s.mtr.heat.residue < 36000 ∧ s.mtr.aux.residue < 36000 ∧ s.mtr.standby.residue < 36000)
      ∧ s.mtr.unassigned.residue < 36000 ∧ s.mtr.unassigned.wh ≤ 32767 := by
  unfold AccountsSound LinesPriced Config.unitsPerWh
  tauto

/-- The laws read the accounts, the lines and the frozen prices alone. -/
theorem AccountsSound.of_eq {s t : State} (h : AccountsSound s) (hl : t.mtr.lines = s.mtr.lines := by simp)
    (hc : t.mtr.chg = s.mtr.chg := by simp) (hh : t.mtr.heat = s.mtr.heat := by simp)
    (ha : t.mtr.aux = s.mtr.aux := by simp) (hs : t.mtr.standby = s.mtr.standby := by simp)
    (hu : t.mtr.unassigned = s.mtr.unassigned := by simp) (hp : t.ses.prices = s.ses.prices := by simp) :
    AccountsSound t := by
  unfold AccountsSound accountWh at *
  rwa [hl, hc, hh, ha, hs, hu, hp]

/-- A session that holds nothing meets the laws. -/
theorem accountsSound_empty {t : State} (hl : t.mtr.lines = []) (hc : t.mtr.chg = .zero) (hh : t.mtr.heat = .zero)
    (ha : t.mtr.aux = .zero) (hs : t.mtr.standby = .zero)
    (hu : t.mtr.unassigned.residue < 36000 ∧ t.mtr.unassigned.wh ≤ 32767) : AccountsSound t := by
  rw [accountsSound_iff]
  simp [hl, hc, hh, ha, hs, hu, LinesPriced, accountWh, Account.zero]

theorem AccountsSound.unassigned {s : State} (h : AccountsSound s) :
    s.mtr.unassigned.residue < 36000 ∧ s.mtr.unassigned.wh ≤ 32767 :=
  ((accountsSound_iff s).1 h).2.2

theorem authorizeSession_accounts {tag : Option Tag} {s : State} (h : AccountsSound s) :
    AccountsSound (authorizeSession tag s) := by
  rw [authorizeSession]
  split
  · exact accountsSound_empty (by simp [openSession_mtr]) (by simp [openSession_mtr, Account.zero])
      (by simp [openSession_mtr, Account.zero]) (by simp [openSession_mtr, Account.zero])
      (by simp [openSession_mtr, Account.zero]) (by simpa [openSession_mtr] using h.unassigned)
  · exact h

theorem leaveClosing_accounts {s : State} (h : AccountsSound s) : AccountsSound (leaveClosing s) := by
  rw [leaveClosing]
  split
  · exact accountsSound_empty (by simp [Mtr.emptied]) (by simp [Mtr.emptied]) (by simp [Mtr.emptied]) (by simp [Mtr.emptied])
      (by simp [Mtr.emptied]) (by simpa [Mtr.emptied] using h.unassigned)
  · exact h

theorem putPlug_accounts {new : Plug} {s : State} (h : AccountsSound s) : AccountsSound (putPlug new s) := by
  rw [putPlug]
  split
  · exact h
  · dsimp only
    have ht : AccountsSound (raise .plugChange (s.setSes { s.ses with plug := new })) := h.of_eq
    split
    · exact ht.of_eq
    · split
      · rw [plugEnters]
        split
        · rw [autoOpen]
          split
          · exact authorizeSession_accounts ht.of_eq
          · exact ht.of_eq
        · exact ht.of_eq
      · exact ht.of_eq

theorem derivePlug_accounts {s : State} (h : AccountsSound s) : AccountsSound (derivePlug s) := by
  rw [derivePlug]
  split
  · exact putPlug_accounts h
  · exact h

theorem finalDone_accounts {s : State} (h : AccountsSound s) : AccountsSound (finalDone s) := by
  rw [finalDone]
  split
  next n ws _ =>
    have hnext : AccountsSound (nextWrite ((s.setNv (finalWritten n ws s.nv)).setRst { s.rst with nextArea := .A })) := h.of_eq
    exact (leaveClosing_accounts hnext).of_eq
  next => exact h

theorem bookSession_accounts {sh : Shares} {s : State} (h : AccountsSound s)
    (hsh : sh.chg + sh.heat + sh.aux + sh.standby ≤ 36000) : AccountsSound (bookSession sh s) := by
  obtain ⟨⟨hsum, hn, hl⟩, ⟨hc, hh, ha, hs⟩, hu⟩ := (accountsSound_iff s).1 h
  rw [accountsSound_iff]
  refine ⟨⟨?_, ?_⟩, ⟨addShare_residue hc (by omega), addShare_residue hh (by omega), addShare_residue ha (by omega),
    addShare_residue hs (by omega)⟩, by simpa using hu⟩
  · rw [accountWh] at hsum ⊢
    rw [bookSession, State.setMtr_mtr]
    dsimp only
    generalize s.ses.prices[s.mtr.band] = price
    have h1 := bookShare_sum s.mtr.band price s.mtr.chg sh.chg s.mtr.lines
    generalize bookShare s.mtr.band price s.mtr.chg sh.chg s.mtr.lines = l1 at *
    have h2 := bookShare_sum s.mtr.band price s.mtr.heat sh.heat l1
    generalize bookShare s.mtr.band price s.mtr.heat sh.heat l1 = l2 at *
    have h3 := bookShare_sum s.mtr.band price s.mtr.aux sh.aux l2
    generalize bookShare s.mtr.band price s.mtr.aux sh.aux l2 = l3 at *
    have h4 := bookShare_sum s.mtr.band price s.mtr.standby sh.standby l3
    omega
  · rw [bookSession_lines sh hn fun l hlm => (hl l hlm).1]
    exact linesPriced_linesAfter _ _ ⟨hn, hl⟩

theorem bookUnassigned_accounts {e : Nat} {s : State} (h : AccountsSound s) (he : e ≤ 36000) :
    AccountsSound (bookUnassigned e s) := by
  obtain ⟨hlines, hres, hu, hw⟩ := (accountsSound_iff s).1 h
  rw [accountsSound_iff]
  exact ⟨hlines, hres, addShare_residue hu he, Nat.min_le_left _ _⟩

theorem meterTick_accounts {p1 p2 p3 : Int} {s : State} (h : AccountsSound s) : AccountsSound (meterTick p1 p2 p3 s) := by
  have he := pAc_le s p1 p2 p3
  rw [meterTick]
  suffices hb : AccountsSound (bookEnergy (pAc s p1 p2 p3) s) from hb.of_eq
  rw [bookEnergy]
  split
  · exact bookSession_accounts h (by rw [sharesOf_sum]; omega)
  · exact bookUnassigned_accounts h (by omega)

theorem powerOn_accounts (pins : Pins) (cut : WriteCut) (s : State) : AccountsSound (powerOn pins cut s) :=
  powerOn_of_startState pins cut s (fun _ _ _ => accountsSound_empty rfl rfl rfl rfl rfl
    ⟨by simp [startState, bootMtr, Mtr.reset, Account.zero], by simp [startState, bootMtr, Mtr.reset, Account.zero]⟩)
    fun _ h => h.of_eq

theorem preserved_accountsSound : Preserved AccountsSound where
  port s p x h := h.of_eq
  queue s q h := h.of_eq
  powerOn pins cut s _ := powerOn_accounts pins cut s
  losePower cut s h := h.of_eq rfl rfl rfl rfl rfl rfl rfl
  releaseOwned p s h := by cases p <;> exact h.of_eq
  commit n e s h := h.of_eq
  departureHold s _ h := h.of_eq
  dropHold s h := h.of_eq
  dropHoldWithNotice s h := h.of_eq
  clearLockout s _ h := h.of_eq
  rest ms s h := h.of_eq
  endRest s h := h.of_eq
  endRestWithNotice s h := h.of_eq
  clearZone z s _ h := h.of_eq
  authorize tag s h := authorizeSession_accounts h
  endSession s _ h := h.of_eq
  setTime sec s h := h.of_eq
  lockTariff s h := h.of_eq
  unlockTariff s h := h.of_eq
  breakLock s h := h.of_eq
  recordBuffer b s h := h.of_eq
  release i n s _ h := h.of_eq
  imageBuffer b s h := h.of_eq
  imageStore v s h := h.of_eq
  contactChange c raw s h := h.of_eq
  debounce a b s h := derivePlug_accounts (h.of_eq (hp := rfl))
  pilotPeriod period high s h := h.of_eq
  pilotSilent s h := h.of_eq
  pilotLost s h := h.of_eq
  pilotEdge s h := h.of_eq
  phaseWindow u1 u2 u3 s h := h.of_eq
  allocate s h := h.of_eq
  changeover s h := h.of_eq
  acceptance s h := h.of_eq
  stageReady b s h := h.of_eq
  stageFault b s h := h.of_eq
  recovered s h := h.of_eq
  applyNext s h := h.of_eq
  pulseDue s h := h.of_eq
  pulseEnded i s h := h.of_eq
  conversion readings s h := h.of_eq
  slotExpired s h := h.of_eq
  busConverted up un s h := h.of_eq
  deadBus s h := h.of_eq
  periodExpired s h := h.of_eq
  phaseEnded s h := h.of_eq
  sampled up un s h := h.of_eq
  meterTick p1 p2 p3 s h := meterTick_accounts h
  checkpointTimer s _ h := h.of_eq
  checkpointDone s h := h.of_eq
  finalDone s h := finalDone_accounts h
  imageDone s h := h.of_eq

/-- Settles O47: only a booking touches the accounts and the lines, and only an opening, a close or a reset empties them. -/
theorem accountsSoundKept : Obligations.AccountsSoundKept := fun _ _ h he => preserved_accountsSound.step h he

end Sys2Proof.Machine
end

section
/-! PROOFS. One meter interval: what it books, the clock, and the band (R126, R127, R130, R132, R133, R136, R141, R143). -/

namespace Sys2Proof.Machine

theorem exec_meterInterval (p1 p2 p3 : Int) {s : State} (h : s.powered = true) :
    exec (.meterInterval p1 p2 p3) s = .next (advanceClock (bookEnergy (pAc s p1 p2 p3) s)) :=
  live_powered _ h

/-- The clock's step and the band's follow-up: what an interval does behind its booking (R133, R136, R141). -/
structure ClockStepped (s t : State) : Prop where
  unknown : s.mtr.clock = none → t.mtr.clock = none ∧ t.mtr.band = s.mtr.band
  known : ∀ sec, s.mtr.clock = some sec →
    if s.mtr.tenths < 9 then t.mtr.clock = some sec ∧ t.mtr.tenths = s.mtr.tenths + 1 ∧ t.mtr.band = s.mtr.band
    else t.mtr.clock = some (sec + 1) ∧ t.mtr.tenths = 0
      ∧ (s.ses.session = .opened → t.mtr.band ≠ s.mtr.band → CheckpointAsked s t)
      ∧ (slotOf (sec + 1) = slotOf sec ∨ s.mtr.lockHeld = true → t.mtr.band = s.mtr.band)
      ∧ (slotOf (sec + 1) ≠ slotOf sec → s.mtr.lockHeld = false → t.mtr.band = findBand t)
      ∧ (slotOf (sec + 1) ≠ slotOf sec → s.mtr.lockHeld = true → s.ses.session = .opened → t.ses.bandHeld = true)
  store : s.ses.session ≠ .opened ∨ t.mtr.band = s.mtr.band →
    t.rst = s.rst ∧ t.nv = s.nv ∧ t.mtr.checkpointTimer = s.mtr.checkpointTimer

/-- A slot boundary under the tariff lock holds the band (R141). -/
theorem slotBoundary_held {s : State} (h : s.mtr.lockHeld = true) :
    (slotBoundary s).mtr = s.mtr ∧ (slotBoundary s).rst = s.rst ∧ (slotBoundary s).nv = s.nv
      ∧ (s.ses.session = .opened → (slotBoundary s).ses.bandHeld = true) := by
  rw [slotBoundary, if_pos h]
  split
  next => simp
  next hn => simp [hn]

theorem slotBoundary_free {s : State} (h : s.mtr.lockHeld = false) : slotBoundary s = evaluateBand s := by
  simp [slotBoundary, h]

theorem advanceClock_stepped (s : State) : ClockStepped s (advanceClock s) := by
  cases hc : s.mtr.clock
  case none =>
    have hadv : advanceClock s = s := by rw [advanceClock, hc]
    rw [hadv]
    exact ⟨fun _ => ⟨hc, rfl⟩, by simp [hc], fun _ => ⟨rfl, rfl, rfl⟩⟩
  case some sec =>
    by_cases ht : s.mtr.tenths < 9
    · have hadv : advanceClock s = s.setMtr { s.mtr with tenths := s.mtr.tenths + 1 } := by
        simp [advanceClock, hc, ht]
      rw [hadv]
      exact ⟨by simp [hc], by simp [hc, ht], by simp⟩
    · generalize hu : s.setMtr { s.mtr with tenths := 0, clock := some (sec + 1) } = u
      have hclock : u.mtr.clock = some (sec + 1) := by simp [← hu]
      have hten : u.mtr.tenths = 0 := by simp [← hu]
      have hband : u.mtr.band = s.mtr.band := by simp [← hu]
      have hlock : u.mtr.lockHeld = s.mtr.lockHeld := by simp [← hu]
      have hses : u.ses = s.ses := by simp [← hu]
      have hrst : u.rst = s.rst := by simp [← hu]
      have hnv : u.nv = s.nv := by simp [← hu]
      have htimer : u.mtr.checkpointTimer = s.mtr.checkpointTimer := by simp [← hu]
      have hadv : advanceClock s = if slotOf (sec + 1) ≠ slotOf sec then slotBoundary u else u := by
        rw [advanceClock, hc]
        dsimp only
        rw [if_neg (by omega), hu]
      rw [hadv]
      split
      next hslot =>
        cases hl : s.mtr.lockHeld
        case true =>
          obtain ⟨hm, hr, hv, hheld⟩ := slotBoundary_held (hlock.trans hl)
          refine ⟨by simp [hc], fun sec' h => ?_, by simp [hm, hr, hv, hrst, hnv, htimer]⟩
          obtain rfl := Option.some.inj (hc.symm.trans h)
          rw [if_neg ht, hm]
          exact ⟨hclock, hten, fun _ hne => absurd hband hne, fun _ => hband, fun _ hf => Bool.noConfusion (hl.symm.trans hf),
            fun _ _ ho => hheld (hses ▸ ho)⟩
        case false =>
          rw [slotBoundary_free (hlock.trans hl)]
          obtain ⟨hasked, hnot⟩ := evaluateBand_checkpoint u
          have hfind : findBand (evaluateBand u) = findBand u :=
            findBand_congr (by simp) (evaluateBand_clock u).1
          have hb := evaluateBand_band u
          refine ⟨by simp [hc], fun sec' h => ?_, fun h => ?_⟩
          · obtain rfl := Option.some.inj (hc.symm.trans h)
            rw [if_neg ht, (evaluateBand_clock u).1, (evaluateBand_clock u).2, hb, hfind]
            exact ⟨hclock, hten, fun ho hne => (hasked ⟨hses ▸ ho, hband ▸ hne⟩).congr hrst.symm hnv.symm rfl rfl rfl rfl,
              fun h => h.elim (absurd · hslot) fun hf => Bool.noConfusion (hl.symm.trans hf), fun _ _ => rfl,
              fun _ hf => Bool.noConfusion (hl.symm.trans hf)⟩
          · rw [← hrst, ← hnv, ← htimer]
            refine hnot fun ⟨ho, hne⟩ => ?_
            rcases h with h | h
            · exact h (hses ▸ ho)
            · exact hne (hb.symm.trans (h.trans hband.symm))
      next hslot =>
        refine ⟨by simp [hc], fun sec' h => ?_, by simp [hrst, hnv, htimer]⟩
        obtain rfl := Option.some.inj (hc.symm.trans h)
        rw [if_neg ht]
        exact ⟨hclock, hten, fun _ hne => absurd hband hne, fun _ => hband, fun h => absurd h hslot, fun h => absurd h hslot⟩

/-! ## What an interval books -/

/-- An OPEN session's interval, booked to its accounts and lines (R127, R129 to R131). -/
theorem bookEnergy_opened {e : Nat} {s : State} (h : s.ses.session = .opened) :
    bookEnergy e s = bookSession (sharesOf s.alc.record e) s := by
  rw [bookEnergy, h]

/-- An interval out of a session (R132). -/
theorem bookEnergy_closed {e : Nat} {s : State} (h : s.ses.session ≠ .opened) : bookEnergy e s = bookUnassigned e s := by
  rw [bookEnergy]
  split
  next ho => exact absurd ho h
  next => rfl

theorem bookUnassigned_unassigned (e : Nat) (s : State) :
    (s.mtr.unassigned.residue + e < 36000 → s.mtr.unassigned.wh ≤ 32767 →
      (bookUnassigned e s).mtr.unassigned = ⟨s.mtr.unassigned.wh, s.mtr.unassigned.residue + e⟩)
    ∧ (36000 ≤ s.mtr.unassigned.residue + e →
      (bookUnassigned e s).mtr.unassigned =
        ⟨min 32767 (s.mtr.unassigned.wh + 1), s.mtr.unassigned.residue + e - 36000⟩) := by
  refine ⟨fun hr hw => ?_, fun hr => ?_⟩
  · simp [bookUnassigned, addShare, completes, Config.unitsPerWh, Nat.not_le.2 hr, hw]
  · simp [bookUnassigned, addShare, completes, Config.unitsPerWh, hr]

theorem addShare_eq (e : Nat) (x : Account) : addShare e x =
    if 36000 ≤ x.residue + e then ⟨x.wh + 1, x.residue + e - 36000⟩ else ⟨x.wh, x.residue + e⟩ := by
  by_cases h : 36000 ≤ x.residue + e <;> simp [addShare, completes, Config.unitsPerWh, h]

theorem bookEnergy_tenths (e : Nat) (s : State) : (bookEnergy e s).mtr.tenths = s.mtr.tenths := by
  unfold bookEnergy
  split <;> rfl

theorem advanceClock_energy (s : State) : accountEnergy (advanceClock s).mtr = accountEnergy s.mtr := by
  simp [accountEnergy, accountWh, residueSum]

/-- Settles O46: the booking first, then the clock. -/
theorem meterIntervalBooks : Obligations.MeterIntervalBooks := by
  intro p1 p2 p3 s hp
  have hclk := advanceClock_stepped (bookEnergy (pAc s p1 p2 p3) s)
  obtain ⟨hunknown, hknown, hstore⟩ := hclk
  refine ⟨_, pAc s p1 p2 p3, exec_meterInterval p1 p2 p3 hp, ?_, fun ho => ?_, fun ho => ?_, ?_, ?_, ?_, by simp, by simp,
    by simp, by simp, by simp, by simp, by simp, by simp, by simp, by simp [RestKept]⟩
  · unfold pAc scaledPower
    dsimp only
    generalize (if s.threePhases = true then _ else _ : Int) = sum
    omega
  · rw [bookEnergy_opened ho, advanceClock_energy, bookSession_energy, sharesOf_sum]
    refine ⟨rfl, by simp, by simp [bookSession, addShare_eq], by simp [bookSession, addShare_eq], by simp [bookSession, addShare_eq],
      by simp [bookSession, addShare_eq], fun hn hprice => ?_⟩
    have hlines := bookSession_lines (sharesOf s.alc.record (pAc s p1 p2 p3)) hn hprice
    exact Eq.trans (by simp) hlines
  · rw [bookEnergy_closed ho, advanceClock_energy]
    refine ⟨by simp [bookUnassigned, accountEnergy, accountWh, residueSum], by simp [bookUnassigned], ?_⟩
    simpa using bookUnassigned_unassigned (pAc s p1 p2 p3) s
  · simpa using hunknown
  · intro sec hsec
    have h := hknown sec (by simpa using hsec)
    rw [bookEnergy_tenths] at h
    split
    next ht => simpa [if_pos ht] using h
    next ht =>
      rw [if_neg ht] at h
      obtain ⟨hc, hten, hasked, hkept, hfound, hheld⟩ := h
      refine ⟨hc, hten, fun ho hne => ?_, by simpa using hkept, by simpa using hfound, by simpa using hheld⟩
      exact (hasked (by simpa using ho) (by simpa using hne)).congr
  · simpa using hstore

end Sys2Proof.Machine
end

section
/-! PROOFS. A record's slot, from its final write to its release (R146, R147, R153, R155, R156). -/

namespace Sys2Proof.Machine

/-! ## What a write leaves of the slots -/

theorem setSlot_slot (i j : Fin 64) (x : Slot) (nv : Nv) :
    (setSlot i x nv).slots[j] = if i = j then x else nv.slots[j] := by
  simp [setSlot, Vector.getElem_set, Fin.val_inj]

theorem markSlot_slot (i j : Fin 64) (m : Mark) (nv : Nv) :
    (markSlot i m nv).slots[j] = if i = j then ⟨m, nv.slots[j].content⟩ else nv.slots[j] := by
  rw [markSlot, setSlot_slot]
  split
  next h => subst h; rfl
  next => rfl

theorem fillSlot_slot (i j : Fin 64) (ws : List Word) (nv : Nv) :
    (fillSlot i ws nv).slots[j] =
      if i = j then ⟨nv.slots[j].mark, overlay nv.slots[j].content ws⟩ else nv.slots[j] := by
  rw [fillSlot, setSlot_slot]
  split
  next h => subst h; rfl
  next => rfl

@[simp] theorem voidAreas_slots (a b : Bool) (nv : Nv) : (voidAreas a b nv).slots = nv.slots := rfl

/-- A final record stands in a slot that was RESERVED: every RECORD slot stays (R153). -/
theorem finalWritten_record {n m : Word32} (ws : List Word) {nv : Nv} {i : Fin 64} (h : nv.slots[i].mark = .record m) :
    (finalWritten n ws nv).slots[i] = nv.slots[i] := by
  rw [finalWritten]
  split
  next j hj =>
    have hne : j ≠ i := by
      rintro rfl
      exact absurd ((slotReserved_mark hj).symm.trans h) (by simp)
    rw [voidAreas_slots, markSlot_slot, if_neg hne, fillSlot_slot, if_neg hne]
  next => rfl

/-- A cut-off write leaves every RECORD slot (R155). -/
theorem cutWrite_record (f : Nat) (cut : WriteCut) (w : Writer) {m : Word32} {nv : Nv} {i : Fin 64}
    (h : nv.slots[i].mark = .record m) : (cutWrite f cut w nv).slots[i] = nv.slots[i] := by
  cases w
  case idle => rfl
  case checkpoint a q c => cases a <;> rfl
  case final n ws =>
    refine (cutFinal_other f cut n ws nv).2 i fun hr => ?_
    exact absurd ((slotReserved_mark hr).symm.trans h) (by simp)
  case image v => rw [cutWrite_image]

/-- A record's write into slot j, cut off anywhere, leaves every other slot, and slot j's mark but for the RECORD mark it ends
with. -/
theorem cutRecordWrite_mark (f : Nat) (cut : WriteCut) (j i : Fin 64) (n : Word32) (ws : List Word) (nv : Nv) :
    (j ≠ i → (cutRecordWrite f cut j n ws nv).slots[i] = nv.slots[i])
    ∧ ((cutRecordWrite f cut j n ws nv).slots[j].mark = nv.slots[j].mark
      ∨ (cutRecordWrite f cut j n ws nv).slots[j].mark = .record n) := by
  cases cut <;> refine ⟨fun h => ?_, ?_⟩ <;> rw [cutRecordWrite]
  case words.refine_1 => rw [setSlot_slot, if_neg h]
  case words.refine_2 => rw [setSlot_slot, if_pos rfl]; exact .inl rfl
  case written.refine_1 => rw [fillSlot_slot, if_neg h]
  case written.refine_2 => rw [fillSlot_slot, if_pos rfl]; exact .inl rfl
  case marked.refine_1 => rw [markSlot_slot, if_neg h, fillSlot_slot, if_neg h]
  case marked.refine_2 => rw [markSlot_slot, if_pos rfl]; exact .inr rfl
  case voided.refine_1 => rw [voidAreas_slots, markSlot_slot, if_neg h, fillSlot_slot, if_neg h]
  case voided.refine_2 => rw [voidAreas_slots, markSlot_slot, if_pos rfl]; exact .inr rfl

/-- The slot that the restore writes is FREE, or carries the number it writes (R155). -/
theorem restorePlan_slot {nv : Nv} {i : Fin 64} {n : Word32} {o : Option (List Word)} (h : restorePlan nv = some (i, n, o)) :
    nv.slots[i].mark = .free ∨ nv.slots[i].mark.number = some n := by
  rw [restorePlan] at h
  split at h
  next => simp at h
  next a _ =>
    split at h
    next j hj =>
      have hm := slotCarrying_mark hj
      split at h
      next =>
        obtain ⟨rfl, rfl, -⟩ := by simpa using h
        exact .inr hm
      next =>
        obtain ⟨rfl, rfl, -⟩ := by simpa using h
        exact .inr hm
    next =>
      obtain ⟨j, hj, hjn⟩ := Option.map_eq_some_iff.1 h
      obtain ⟨rfl, rfl, -⟩ := by simpa using hjn
      exact .inl (freeSlot_free hj)

theorem restorePlan_number {nv : Nv} {i : Fin 64} {n m : Word32} {o : Option (List Word)}
    (h : restorePlan nv = some (i, n, o)) (hm : nv.slots[i].mark = .record m) : m = n := by
  have hslot := restorePlan_slot h
  rw [hm] at hslot
  exact Option.some.inj (hslot.resolve_left nofun)

/-- The restore of the newest checkpoint keeps the mark of every RECORD slot (R155). -/
theorem restoreNewest_mark (f : Nat) (cut : WriteCut) {m : Word32} {nv : Nv} {i : Fin 64} (h : nv.slots[i].mark = .record m) :
    (restoreNewest f cut nv).slots[i].mark = .record m := by
  have hwrite : ∀ c j n ws o, restorePlan nv = some (j, n, o) →
      (cutRecordWrite f c j n ws nv).slots[i].mark = .record m := by
    intro c j n ws o hp
    obtain ⟨hother, hsame⟩ := cutRecordWrite_mark f c j i n ws nv
    by_cases hji : j = i
    · subst hji
      obtain rfl := restorePlan_number hp h
      exact hsame.elim (·.trans h) id
    · rw [hother hji, h]
  rw [restoreNewest]
  split
  next => exact h
  next j n ws hp => split <;> exact hwrite _ _ _ _ _ hp
  next j n hp =>
    split
    next => exact h
    next => exact h
    next =>
      rw [markSlot_slot]
      split
      next hji =>
        subst hji
        obtain rfl := restorePlan_number hp h
        rfl
      next => exact h

theorem settleReserved_record {x : Slot} {m : Word32} (h : x.mark = .record m) : settleReserved x = x := by
  rw [settleReserved, h]

theorem restoreTo_mark (f : Nat) (cut : WriteCut) {m : Word32} {nv : Nv} {i : Fin 64} (h : nv.slots[i].mark = .record m) :
    (restoreTo f cut nv).slots[i].mark = .record m := by
  have hnew := restoreNewest_mark f cut h
  cases cut
  case voided a b =>
    rw [restoreTo, voidAreas_slots]
    simp only [Fin.getElem_fin, Vector.getElem_map] at hnew ⊢
    rw [settleReserved_record hnew]
    exact hnew
  all_goals exact hnew

/-! ## What every command leaves of a record -/

theorem authorizeSession_record (tag : Option Tag) {s : State} {i : Fin 64} {m : Word32} (h : s.nv.slots[i].mark = .record m) :
    (authorizeSession tag s).nv.slots[i] = s.nv.slots[i] := by
  rw [authorizeSession]
  split
  · simp only [openSession_nv]
    exact reserve_record _ _ _ h
  · rfl

theorem derivePlug_record {s : State} {i : Fin 64} {m : Word32} (h : s.nv.slots[i].mark = .record m) :
    (derivePlug s).nv.slots[i] = s.nv.slots[i] := by
  rw [derivePlug]
  split
  next a b _ _ =>
    rw [putPlug]
    split
    · rfl
    · dsimp only
      split
      · simp
      · split
        · rw [plugEnters]
          split
          · rw [autoOpen]
            split
            · rw [authorizeSession_record none (m := m) (by simpa using h)]
              simp
            · simp
          · simp
        · simp
  next => rfl

theorem finalDone_record {s : State} {i : Fin 64} {m : Word32} (h : s.nv.slots[i].mark = .record m) :
    (finalDone s).nv.slots[i] = s.nv.slots[i] := by
  rw [finalDone]
  split
  next n ws _ =>
    have hkept := finalWritten_record (n := n) ws h
    simpa using hkept
  next => rfl

theorem powerOn_nv (pins : Pins) (cut : WriteCut) (s : State) : (powerOn pins cut s).nv = restore (nvAtReset cut s) := by
  rw [powerOn]
  split <;> simp [startState]

theorem powerOn_record (pins : Pins) (cut : WriteCut) {s : State} {i : Fin 64} {m : Word32}
    (h : s.nv.slots[i].mark = .record m) : (powerOn pins cut s).nv.slots[i].mark = .record m := by
  rw [powerOn_nv]
  refine restoreTo_mark _ _ ?_
  rw [nvAtReset]
  split
  · rw [cutWrite_record _ _ _ h, h]
  · exact h

theorem losePower_record (cut : WriteCut) {s : State} {i : Fin 64} {m : Word32} (h : s.nv.slots[i].mark = .record m) :
    (losePower cut s).nv.slots[i].mark = .record m := by
  rw [losePower]
  split
  · rw [cutWrite_record _ _ _ h, h]
  · exact restoreTo_mark _ _ h

/-- What holds of a RECORD slot holds of it after every command but a release; a power-on reset and a loss of supply may write its
words again, and leave its mark. -/
theorem preservedBy_record {c : Instr} {Q : Slot → Prop} (i : Fin 64) (hq : ∀ x, Q x → ∃ m, x.mark = .record m)
    (hwords : (∃ pins cut, c = .powerOnReset pins cut) ∨ (∃ cut, c = .powerLoss cut) →
      ∀ x y, Q x → y.mark = x.mark → Q y)
    (hrel : ∀ f hi lo, c ≠ .release f hi lo) : PreservedBy c (fun s => Q s.nv.slots[i]) where
  port s p x h := by simpa using h
  queue s q h := h
  powerOn pins cut hc s h := by
    obtain ⟨m, hm⟩ := hq _ h
    exact hwords (.inl ⟨pins, cut, hc⟩) _ _ h ((powerOn_record pins cut hm).trans hm.symm)
  losePower cut hc s h := by
    obtain ⟨m, hm⟩ := hq _ h
    exact hwords (.inr ⟨cut, hc⟩) _ _ h ((losePower_record cut hm).trans hm.symm)
  releaseOwned p _ s h := by cases p <;> simpa [releaseOwned] using h
  commit f w _ n e s h := by simpa using h
  departureHold f _ s _ h := h
  dropHold f _ s h := h
  dropHoldWithNotice _ s h := by simpa using h
  clearLockout f _ s _ h := by simpa using h
  rest f w _ ms s h := h
  endRest f _ s h := h
  endRestWithNotice _ s h := by simpa using h
  clearZone f arg _ z s _ h := by simpa using h
  authorize f arg t0 t1 t2 t3 _ tag s h := by
    obtain ⟨m, hm⟩ := hq _ h
    simpa only [authorizeSession_record tag hm] using h
  endSession f _ s _ h := by simpa using h
  setTime f hi lo _ sec s h := by simpa [setClock] using h
  lockTariff f _ s h := h
  unlockTariff f _ s h := by simpa [freeLock] using h
  breakLock _ s h := by simpa using h
  recordBuffer b s h := h
  release f hi lo hc := absurd hc (hrel f hi lo)
  imageBuffer b s h := h
  imageStore f _ v s h := by simpa using h
  contactChange k raw _ s h := by simpa using h
  debounce a b _ s h := by
    obtain ⟨m, hm⟩ := hq _ h
    have hkept := derivePlug_record (s := s.setSes (debounced s.ses a b)) (i := i) hm
    rw [State.setSes_nv] at hkept
    rwa [hkept]
  pilotPeriod period high _ s h := by simpa using h
  pilotSilent _ s h := by simpa using h
  pilotLost _ s h := by simpa using h
  pilotEdge _ s h := h
  phaseWindow u1 u2 u3 _ s h := by simpa using h
  allocate _ s h := by simpa using h
  changeover _ s h := h
  acceptance _ s h := by simpa using h
  stageReady b _ s h := by simpa using h
  stageFault b _ s h := by simpa using h
  recovered _ s h := by simpa using h
  applyNext _ s h := by simpa using h
  pulseDue _ s h := by simpa using h
  pulseEnded n _ s h := by simpa using h
  conversion readings _ s h := by simpa using h
  slotExpired _ s h := by simpa using h
  busConverted up un _ s h := by simpa using h
  deadBus _ s h := h
  periodExpired _ s h := by simpa using h
  phaseEnded _ s h := by simpa using h
  sampled up un _ s h := by simpa using h
  meterTick p1 p2 p3 _ s h := by simpa using h
  checkpointTimer _ s _ h := by simpa using h
  checkpointDone _ s h := by simpa using h
  finalDone _ s h := by
    obtain ⟨m, hm⟩ := hq _ h
    rwa [finalDone_record hm]
  imageDone _ s h := by simpa using h

/-- Settles O53: no command but a release changes the mark of a record, and only a restore its words. -/
theorem recordsStayUntilReleased : Obligations.RecordsStayUntilReleased := by
  intro c s t i n he hm hrel
  refine ⟨?_, fun hon hloss => ?_⟩
  · exact (preservedBy_record (Q := fun x => x.mark = .record n) i (fun x h => ⟨n, h⟩) (fun _ x y h hxy => hxy.trans h)
      (fun f hi lo => hrel f.port f.len hi lo)).exec hm he
  · refine (preservedBy_record (c := c) (Q := fun x => x = s.nv.slots[i]) i (fun x h => ⟨n, h ▸ hm⟩) ?_
      (fun f hi lo => hrel f.port f.len hi lo)).exec rfl he
    rintro (⟨pins, cut, hc⟩ | ⟨cut, hc⟩)
    · exact absurd hc (hon pins cut)
    · exact absurd hc (hloss cut)

end Sys2Proof.Machine
end

section
/-! PROOFS. The attention lines follow the pending sets (R169, R175, R177, R178). -/

namespace Sys2Proof.Machine

-- One proof after another: side by side they wait for each other in more threads than a small memory holds.
set_option Elab.async false

/-! ## One port -/

/-- A change of a port that leaves its line, its set, its mode and its reset line keeps them in accord. -/
theorem PortState.LineSafe.of_eq {x y : PortState} (h : x.LineSafe) (hm : y.lineMode = x.lineMode := by rfl)
    (ha : y.attention = x.attention := by rfl) (hp : y.pending = x.pending := by rfl)
    (hu : y.pulsing = x.pulsing := by rfl) (hr : y.resetAsserted = x.resetAsserted := by rfl) : y.LineSafe := by
  unfold PortState.LineSafe
  rw [hm, ha, hp, hu, hr]
  exact h

/-- A set that shrinks keeps its line in accord, with the reset line asserted too: there the set is empty. -/
theorem PortState.LineSafe.shrink {pt : PortState} {w : Word} (h : pt.LineSafe) (hw : pt.pending = 0 → w = 0) :
    (pt.withSet w).LineSafe := by
  cases hr : pt.resetAsserted
  case false => exact pt.withSet_lineSafe w hr h
  case true =>
    obtain ⟨hp, ha, hu⟩ := h.2 hr
    obtain rfl := hw hp
    unfold PortState.withSet PortState.LineSafe
    split <;> simp [ha, hu]

theorem PortState.atReset_lineSafe (pt : PortState) : pt.atReset.LineSafe :=
  ⟨fun _ => ⟨rfl, rfl⟩, fun _ => ⟨rfl, rfl, rfl⟩⟩

theorem PortState.released_lineSafe {pt : PortState} (h : pt.LineSafe) : pt.released.LineSafe := by
  have hkept : PortState.LineSafe { pt with resetAsserted := false, restartOwed := false } := ⟨h.1, nofun⟩
  unfold PortState.released
  split
  · exact PortState.join_lineSafe _ _ rfl hkept
  · exact hkept

theorem bootPort_lineSafe (ok : Bool) (image : Vector Word 200) (p : PortId) (line : Bool) :
    (bootPort ok image p line).takeRestart.LineSafe := by
  have hboot : (bootPort ok image p line).LineSafe := ⟨fun _ => ⟨rfl, rfl⟩, fun _ => ⟨rfl, rfl, rfl⟩⟩
  unfold PortState.takeRestart
  split
  · exact hboot.of_eq
  next hr => exact PortState.join_lineSafe _ _ (Bool.eq_false_iff.2 hr) hboot

theorem pulseEnd_lineSafe {pt : PortState} (h : pt.LineSafe) (hp : pt.pulsing = true) :
    PortState.LineSafe { pt with pulsing := false, attention := false } :=
  ⟨fun hm => Bool.noConfusion ((h.1 hm).2.symm.trans hp), fun hr => ⟨(h.2 hr).1, rfl, rfl⟩⟩

/-! ## The three ports -/

theorem LinesSafe.port {s : State} (h : LinesSafe s) (p : PortId) : (s.port p).LineSafe := (LinesSafe.iff_ports s).1 h p

theorem LinesSafe.setPort {s : State} {p : PortId} {x : PortState} (h : LinesSafe s) (hx : x.LineSafe) :
    LinesSafe (s.setPort p x) := by
  obtain ⟨hv, hp, hf⟩ := h
  cases p
  · exact ⟨hx, hp, hf⟩
  · exact ⟨hv, hx, hf⟩
  · exact ⟨hv, hp, hx⟩

theorem LinesSafe.of_eq {s t : State} (h : LinesSafe s) (hp : ∀ p, t.port p = s.port p := by simp [refuse]) : LinesSafe t :=
  (Grows.of_eq hp).linesSafe h

theorem answer_linesSafe {p : PortId} {len : Nat} {st : Status} {data : List Word} {s u : State} (h : LinesSafe u) :
    LinesSafe (answer p len st data s u) :=
  h.setPort (h.port p).of_eq

theorem live_linesSafe {s t : State} {f : State → State} (h : LinesSafe s) (he : live s f = .next t)
    (hf : LinesSafe (f s)) : LinesSafe t :=
  live_next he h fun _ => hf

theorem request_linesSafe {p : PortId} {len : Nat} {roles : List PortId} {s t : State} {body : State → Reply}
    (h : LinesSafe s) (he : request p len roles s body = .next t) (hb : LinesSafe (body s).st) : LinesSafe t :=
  request_next he h (fun _ _ _ hu => answer_linesSafe hu) hb

theorem powerOn_linesSafe (pins : Pins) (cut : WriteCut) (s : State) : LinesSafe (powerOn pins cut s) :=
  powerOn_of_startState pins cut s
    (fun _ _ _ => ⟨bootPort_lineSafe _ _ _ _, bootPort_lineSafe _ _ _ _, bootPort_lineSafe _ _ _ _⟩)
    fun t h => (raiseStoreLow_grows t).linesSafe h

/-! ## The requests of every port -/

theorem takeSnapshot_lineSafe {s : State} {p : PortId} {k : BitVec 6} {pt : PortState} (h : pt.LineSafe) :
    (takeSnapshot s p k pt).LineSafe := by
  unfold takeSnapshot
  split <;> exact h.of_eq

theorem advanceRead_lineSafe {s : State} {p : PortId} (h : (s.port p).LineSafe) : (advanceRead s p).LineSafe := by
  unfold advanceRead
  dsimp only
  split
  · exact takeSnapshot_lineSafe h.of_eq
  · exact h.of_eq

theorem LinesSafe.setReadPointer {f : Frame} {arg : BitVec 8} {s t : State} (h : LinesSafe s)
    (he : execSetReadPointer f arg s = .next t) : LinesSafe t := by
  refine request_linesSafe h he ?_
  split
  · exact h
  · exact h.setPort (takeSnapshot_lineSafe (h.port _).of_eq)

theorem LinesSafe.setWritePointer {f : Frame} {arg : BitVec 8} {s t : State} (h : LinesSafe s)
    (he : execSetWritePointer f arg s = .next t) : LinesSafe t := by
  refine request_linesSafe h he ?_
  split
  · exact h
  · exact h.setPort (h.port _).of_eq

theorem LinesSafe.readWord {f : Frame} {s t : State} (h : LinesSafe s) (he : execReadWord f s = .next t) :
    LinesSafe t := by
  refine request_linesSafe h he ?_
  dsimp only
  split
  · exact h.setPort (advanceRead_lineSafe (h.port _))
  · exact h.setPort (advanceRead_lineSafe (h.port _))
  · exact h

theorem LinesSafe.writeWord {f : Frame} {w : Word} {s t : State} (h : LinesSafe s) (he : execWriteWord f w s = .next t) :
    LinesSafe t := by
  refine request_linesSafe h he ?_
  dsimp only
  split
  · split
    · have hpres := (present_grows f.port ((s.port f.port).staging.setWord (s.port f.port).sub w) s).linesSafe h
      exact hpres.setPort (hpres.port _).of_eq
    · exact h.setPort (h.port _).of_eq
  · exact h

theorem LinesSafe.protectWindow {f : Frame} {arg : BitVec 8} {s t : State} (h : LinesSafe s)
    (he : execProtectWindow f arg s = .next t) : LinesSafe t := by
  refine request_linesSafe h he ?_
  split
  · exact h
  · exact h.setPort (h.port _).of_eq

theorem LinesSafe.closeWindow {f : Frame} {arg : BitVec 8} {s t : State} (h : LinesSafe s)
    (he : execCloseWindow f arg s = .next t) : LinesSafe t := by
  refine request_linesSafe h he ?_
  split
  · exact h
  · exact h.setPort (h.port _).of_eq

theorem LinesSafe.readNotices {f : Frame} {s t : State} (h : LinesSafe s) (he : execReadNotices f s = .next t) :
    LinesSafe t := by
  refine request_linesSafe h he ?_
  dsimp only
  split
  · exact h.setPort ((h.port _).shrink fun _ => rfl)
  · exact h

theorem LinesSafe.ackNotices {f : Frame} {w : Word} {s t : State} (h : LinesSafe s) (he : execAckNotices f w s = .next t) :
    LinesSafe t := by
  refine request_linesSafe h he ?_
  dsimp only
  split
  · exact h.setPort ((h.port _).shrink fun hp => by simp [hp])
  · exact h

/-! ## The requests of one port -/

theorem LinesSafe.departureHold {f : Frame} {s t : State} (h : LinesSafe s) (he : execDepartureHold f s = .next t) :
    LinesSafe t := by
  refine request_linesSafe h he ?_
  split <;> exact h.of_eq

theorem LinesSafe.releaseHold {f : Frame} {s t : State} (h : LinesSafe s) (he : execReleaseHold f s = .next t) :
    LinesSafe t := by
  refine request_linesSafe h he ?_
  split <;> exact h.of_eq

theorem LinesSafe.clearLockout {f : Frame} {s t : State} (h : LinesSafe s) (he : execClearLockout f s = .next t) :
    LinesSafe t := by
  refine request_linesSafe h he ?_
  split
  · exact (((clearTheLockout_grows s).trans (cancelRun_grows _)).trans (evalDemand_grows _)).linesSafe h
  · exact h

theorem LinesSafe.endRest {f : Frame} {s t : State} (h : LinesSafe s) (he : execEndRest f s = .next t) : LinesSafe t := by
  refine request_linesSafe h he ?_
  split <;> exact h.of_eq

theorem LinesSafe.clearZone {f : Frame} {arg : BitVec 8} {s t : State} (h : LinesSafe s)
    (he : execClearZone f arg s = .next t) : LinesSafe t := by
  refine request_linesSafe h he ?_
  split
  · exact h
  next z _ =>
    split
    · exact (heaterChanged_grows s.htr (s.setHtr (s.htr.enter z .unchecked))).linesSafe h.of_eq
    · exact h

theorem LinesSafe.authorize {f : Frame} {arg : BitVec 8} {t0 t1 t2 t3 : Word} {s t : State} (h : LinesSafe s)
    (he : execAuthorize f arg t0 t1 t2 t3 s = .next t) : LinesSafe t := by
  refine request_linesSafe h he ?_
  split
  · exact (authorizeSession_grows _ s).linesSafe h
  · exact h

theorem LinesSafe.endSession {f : Frame} {s t : State} (h : LinesSafe s) (he : execEndSession f s = .next t) :
    LinesSafe t := by
  refine request_linesSafe h he ?_
  split
  · exact (closeSession_grows .ended s).linesSafe h
  · exact h

theorem LinesSafe.lockTariff {f : Frame} {s t : State} (h : LinesSafe s) (he : execLockTariff f s = .next t) :
    LinesSafe t := by
  refine request_linesSafe h he ?_
  split <;> exact h.of_eq

theorem LinesSafe.unlockTariff {f : Frame} {s t : State} (h : LinesSafe s) (he : execUnlockTariff f s = .next t) :
    LinesSafe t := by
  refine request_linesSafe h he ?_
  split
  · exact h.of_eq (by simp [freeLock])
  · exact h

theorem LinesSafe.collect {f : Frame} {s t : State} (h : LinesSafe s) (he : execCollect f s = .next t) : LinesSafe t := by
  refine request_linesSafe h he ?_
  split <;> exact h.of_eq

theorem LinesSafe.readRecordWord {f : Frame} {s t : State} (h : LinesSafe s) (he : execReadRecordWord f s = .next t) :
    LinesSafe t := by
  refine request_linesSafe h he ?_
  split
  · exact h
  · split <;> exact h.of_eq

theorem LinesSafe.release {f : Frame} {hi lo : Word} {s t : State} (h : LinesSafe s) (he : execRelease f hi lo s = .next t) :
    LinesSafe t := by
  refine request_linesSafe h he ?_
  split
  · exact h
  · split <;> exact h.of_eq

theorem LinesSafe.imageRead {f : Frame} {arg : BitVec 8} {s t : State} (h : LinesSafe s)
    (he : execImageRead f arg s = .next t) : LinesSafe t := by
  refine request_linesSafe h he ?_
  split
  · exact h
  · split
    · exact h
    · split <;> exact h

theorem LinesSafe.imageWrite {f : Frame} {arg : BitVec 8} {w : Word} {s t : State} (h : LinesSafe s)
    (he : execImageWrite f arg w s = .next t) : LinesSafe t := by
  refine request_linesSafe h he ?_
  split
  · exact h
  · split
    · exact h
    · split <;> exact h.of_eq

theorem LinesSafe.imageStore {f : Frame} {s t : State} (h : LinesSafe s) (he : execImageStore f s = .next t) :
    LinesSafe t := by
  refine request_linesSafe h he ?_
  split
  · exact h
  · split
    · exact h
    · exact h.of_eq

/-! ## Every command -/

theorem exec_linesSafe {c : Instr} {s t : State} (h : LinesSafe s) (he : exec c s = .next t) : LinesSafe t := by
  cases c
  case powerOnReset pins cut => exact Host.Outcome.next.inj he ▸ powerOn_linesSafe pins cut s
  case powerLoss cut => exact Host.Outcome.next.inj he ▸ h
  case portReset p =>
    rw [exec, execPortReset] at he
    refine live_linesSafe h he ?_
    unfold resetPort
    split
    · exact h
    · exact (releaseOwned_grows p _).linesSafe (h.setPort (PortState.atReset_lineSafe _))
  case portResetRelease p =>
    rw [exec, execPortResetRelease] at he
    refine live_linesSafe h he ?_
    unfold releasePort
    split
    · exact h.setPort (PortState.released_lineSafe (h.port p))
    · exact h
  case frameIncomplete p how =>
    rw [exec, execFrameIncomplete] at he
    refine live_linesSafe h he ?_
    split
    · exact h
    · exact h.setPort (h.port p).of_eq
  case attentionPulseEnd p =>
    rw [exec, execAttentionPulseEnd] at he
    refine live_linesSafe h he ?_
    split
    next hp => exact h.setPort (pulseEnd_lineSafe (h.port p) hp)
    next => exact h
  case unknownCommand f code =>
    rw [exec, execUnknownCommand] at he
    exact request_linesSafe h he h
  case noOperation f =>
    rw [exec, execNoOperation] at he
    exact request_linesSafe h he h
  case getPointer f =>
    rw [exec, execGetPointer] at he
    exact request_linesSafe h he h
  case setReadPointer f arg => exact h.setReadPointer he
  case setWritePointer f arg => exact h.setWritePointer he
  case readWord f => exact h.readWord he
  case writeWord f w => exact h.writeWord he
  case protectWindow f arg => exact h.protectWindow he
  case closeWindow f arg => exact h.closeWindow he
  case readNotices f => exact h.readNotices he
  case ackNotices f w => exact h.ackNotices he
  case departureHold f => exact h.departureHold he
  case releaseHold f => exact h.releaseHold he
  case clearLockout f => exact h.clearLockout he
  case rest f w =>
    rw [exec, execRest] at he
    exact request_linesSafe h he h.of_eq
  case endRest f => exact h.endRest he
  case clearZone f arg => exact h.clearZone he
  case authorize f arg t0 t1 t2 t3 => exact h.authorize he
  case endSession f => exact h.endSession he
  case setTime f hi lo =>
    rw [exec, execSetTime] at he
    exact request_linesSafe h he (h.of_eq (by simp [setClock]))
  case lockTariff f => exact h.lockTariff he
  case unlockTariff f => exact h.unlockTariff he
  case collect f => exact h.collect he
  case readRecordWord f => exact h.readRecordWord he
  case release f hi lo => exact h.release he
  case imageRead f arg => exact h.imageRead he
  case imageWrite f arg w => exact h.imageWrite he
  case imageStore f => exact h.imageStore he
  case plugContactChange k raw =>
    rw [exec, execPlugContactChange] at he
    exact live_linesSafe h he h.of_eq
  case debounceExpiry a b =>
    rw [exec, execDebounceExpiry] at he
    exact live_linesSafe h he ((derivePlug_grows _).linesSafe h.of_eq)
  case pilotPeriod period high =>
    rw [exec, execPilotPeriod] at he
    exact live_linesSafe h he ((pilotPeriodDone_grows period high s).linesSafe h)
  case pilotSilenceTimeout =>
    rw [exec, execPilotSilenceTimeout] at he
    exact live_linesSafe h he h.of_eq
  case pilotHoldExpiry =>
    rw [exec, execPilotHoldExpiry] at he
    exact live_linesSafe h he ((pilotLost_grows s).linesSafe h)
  case pilotEdge =>
    rw [exec, execPilotEdge] at he
    exact live_linesSafe h he h.of_eq
  case phaseWindowEnd u1 u2 u3 =>
    rw [exec, execPhaseWindowEnd] at he
    exact live_linesSafe h he h.of_eq
  case allocationInterval =>
    rw [exec, execAllocationInterval] at he
    exact live_linesSafe h he ((allocate_grows s).linesSafe h)
  case changeoverExpiry =>
    rw [exec, execChangeoverExpiry] at he
    exact live_linesSafe h he h.of_eq
  case acceptanceFreshnessExpiry =>
    rw [exec, execAcceptanceFreshnessExpiry] at he
    exact live_linesSafe h he ((acceptanceExpired_grows s).linesSafe h)
  case stageReadyChange b =>
    rw [exec, execStageReadyChange] at he
    exact live_linesSafe h he ((readyChanged_grows b s).linesSafe h)
  case stageFaultChange b =>
    rw [exec, execStageFaultChange] at he
    exact live_linesSafe h he ((faultChanged_grows b s).linesSafe h)
  case stageRecoveryExpiry =>
    rw [exec, execStageRecoveryExpiry] at he
    exact live_linesSafe h he h.of_eq
  case holdTimerExpiry =>
    rw [exec, execHoldTimerExpiry] at he
    refine live_linesSafe h he ?_
    split
    · exact (dropHoldWithNotice_grows s).linesSafe h
    · exact h
  case restTimerExpiry =>
    rw [exec, execRestTimerExpiry] at he
    refine live_linesSafe h he ?_
    split
    · exact (endRestWithNotice_grows s).linesSafe h
    · exact h
  case grantRecordApply =>
    rw [exec, execGrantRecordApply] at he
    exact live_linesSafe h he ((applyNext_grows s).linesSafe h)
  case checkPulseStart =>
    rw [exec, execCheckPulseStart] at he
    exact live_linesSafe h he ((pulseDue_grows s).linesSafe h)
  case checkPulseEnd i =>
    rw [exec, execCheckPulseEnd] at he
    exact live_linesSafe h he ((pulseEnded_grows i s).linesSafe h)
  case heaterConversion readings =>
    rw [exec, execHeaterConversion] at he
    exact live_linesSafe h he ((convertAll_grows readings s).linesSafe h)
  case slotTimerExpiry =>
    rw [exec, execSlotTimerExpiry] at he
    exact live_linesSafe h he h.of_eq
  case busConversion up un =>
    rw [exec, execBusConversion] at he
    exact live_linesSafe h he ((busConverted_grows up un s).linesSafe h)
  case deadBusExpiry =>
    rw [exec, execDeadBusExpiry] at he
    refine live_linesSafe h he ?_
    split <;> exact h.of_eq
  case periodExpiry =>
    rw [exec, execPeriodExpiry] at he
    exact live_linesSafe h he ((periodExpired_grows s).linesSafe h)
  case measurementPhaseEnd =>
    rw [exec, execMeasurementPhaseEnd] at he
    exact live_linesSafe h he ((phaseEnded_grows s).linesSafe h)
  case bridgeSample up un =>
    rw [exec, execBridgeSample] at he
    exact live_linesSafe h he h.of_eq
  case meterInterval p1 p2 p3 =>
    rw [exec, execMeterInterval] at he
    exact live_linesSafe h he h.of_eq
  case tariffLockExpiry =>
    rw [exec, execTariffLockExpiry] at he
    refine live_linesSafe h he ?_
    split
    · exact (breakLock_grows s).linesSafe h
    · exact h
  case checkpointTimerExpiry =>
    rw [exec, execCheckpointTimerExpiry] at he
    refine live_linesSafe h he ?_
    split <;> exact h.of_eq
  case checkpointWriteComplete =>
    rw [exec, execCheckpointWriteComplete] at he
    exact live_linesSafe h he h.of_eq
  case finalWriteComplete =>
    rw [exec, execFinalWriteComplete] at he
    exact live_linesSafe h he ((finalDone_grows s).linesSafe h)
  case imageWriteComplete =>
    rw [exec, execImageWriteComplete] at he
    exact live_linesSafe h he h.of_eq

/-- Settles O12: a raise joins set and line together, and every other command leaves them or empties them together. -/
theorem linesSafeKept : Obligations.LinesSafeKept := by
  intro s t h he
  rw [step] at he
  split at he
  · exact Host.Outcome.next.inj he ▸ h
  · exact exec_linesSafe (s := s.setPending _) h.of_eq he

end Sys2Proof.Machine
end

section
/-! PROOFS. Notices: a raise, READ NOTICES, ACK NOTICES and the end of a pulse (R175 to R177). -/

namespace Sys2Proof.Machine

/-! ## Joining (R175) -/

theorem PortState.join_of_held {pt : PortState} {k : Notice} (h : pt.holds k = true) : pt.join k = pt := by
  rw [PortState.join, if_pos h]

/-- A kind that was not held puts the line high, and starts a pulse in PULSE mode. -/
theorem PortState.join_line {pt : PortState} {k : Notice} (h : pt.holds k = false) :
    (pt.join k).attention = true ∧ (pt.join k).pulsing = (pt.pulsing || decide (pt.lineMode = .pulse)) := by
  have hbit : pt.pending ||| k.bit ≠ 0 := fun hz => by
    have hget : (pt.pending ||| k.bit).getLsbD k.index = true := by
      rw [BitVec.getLsbD_or, Notice.bit_getLsbD _ _ k.index_lt]
      simp
    rw [hz] at hget
    simp at hget
  rw [PortState.join, if_neg (by simp [h])]
  split
  next hm =>
    refine ⟨?_, by simp [PortState.withSet, hm]⟩
    simpa only [PortState.withSet, hm, bne_iff_ne] using hbit
  next hm => simp [hm]

theorem offer_flag_other {pt : PortState} {k : Notice} {i : Nat} (hi : i < 16) (hne : i ≠ k.index) :
    flag (pt.offer k).pending i = flag pt.pending i := by
  by_cases ht : Takes k pt
  · rw [pt.offer_of_takes k ht, pt.join_pending k i hi]
    simp [hne]
  · rw [pt.offer_of_not_takes k ht]

/-- Settles O11: each port is offered the kind, and nothing else moves. -/
theorem raisedKindJoins : Obligations.RaisedKindJoins := by
  refine fun k s => ⟨(raise_grows k s).portsKept, ⟨_, _, _, rfl⟩, fun p ht => raise_toldAll k s p ht, fun p ht => ?_,
    fun p i hi hne => ?_, fun p ht hf => ?_, fun p ht hf => ?_⟩
  · rw [raise_port, PortState.offer_of_not_takes _ _ ht]
  · rw [raise_port, offer_flag_other hi hne]
  · rw [raise_port, PortState.offer_of_takes _ _ ht, PortState.join_of_held hf]
  · rw [raise_port, PortState.offer_of_takes _ _ ht]
    exact PortState.join_line hf

/-! ## Reading and acknowledging (R176, R177) -/

/-- A set that is written moves the line in LEVEL mode, and no pulse. -/
theorem PortState.withSet_line (pt : PortState) (w : Word) :
    (pt.withSet w).pulsing = pt.pulsing
      ∧ (pt.withSet w).attention = (if pt.lineMode = .level then decide (w ≠ 0) else pt.attention) := by
  rw [PortState.withSet]
  split
  next hm => simp [hm, bne, Bool.beq_eq_decide_eq]
  next hm => simp [hm]

theorem exec_readNotices (len : Nat) {p : PortId} {s : State} (h : Ready p s) : exec (.readNotices ⟨p, len⟩) s =
    .next (match (s.port p).clearMode with
      | .readClears => answer p len .ok [(s.port p).pending] s (s.setPort p ((s.port p).withSet 0))
      | .ackClears => answer p len .ok [(s.port p).pending] s s) := by
  rw [exec, execReadNotices, request_any _ h]
  dsimp only
  cases (s.port p).clearMode <;> rfl

theorem exec_ackNotices (len : Nat) (w : Word) {p : PortId} {s : State} (h : Ready p s) :
    exec (.ackNotices ⟨p, len⟩ w) s =
      .next (match (s.port p).clearMode with
        | .ackClears => answer p len .ok [] s (s.setPort p ((s.port p).withSet ((s.port p).pending &&& ~~~ w)))
        | .readClears => answer p len .notPermitted [] s s) := by
  rw [exec, execAckNotices, request_any _ h]
  dsimp only
  cases (s.port p).clearMode <;> rfl

/-- Settles O10: each request as the set it writes, and the line that the set gives. -/
theorem noticesReadAndAcknowledged : Obligations.NoticesReadAndAcknowledged := by
  refine fun p len w s h => ⟨live_powered _ h.1, fun hc => ⟨?_,
    (s.port p).withSet ((s.port p).pending &&& ~~~ w), ?_, (s.port p).withSet_noticesOnly _,
    (PortState.withSet_line _ _).1, fun i hi => ?_, ?_⟩, fun hc => ⟨?_,
    (s.port p).withSet 0, ?_, (s.port p).withSet_noticesOnly _,
    PortState.withSet_pending _ _, (PortState.withSet_line _ _).1, ?_⟩⟩
  · rw [exec_readNotices len h, hc]
  · rw [exec_ackNotices len w h, hc]
  · rw [PortState.withSet_pending, flag, BitVec.getLsbD_and, BitVec.getLsbD_not]
    simp [hi, flag]
  · rw [PortState.withSet_pending]
    exact (PortState.withSet_line _ _).2
  · rw [exec_ackNotices len w h, hc]
  · rw [exec_readNotices len h, hc]
  · simpa using (PortState.withSet_line (s.port p) 0).2

end Sys2Proof.Machine
end

section
/-! PROOFS. Bit fields and flags of the words the part shows (R179, R180, Table 12-4): one rule per way of forming a word. -/

namespace Sys2Proof.Machine

/-! ## Fields -/

theorem field_or (a b : Word) (lo len : Nat) : field (a ||| b) lo len = field a lo len ||| field b lo len := by
  rw [field, field, field, BitVec.toNat_or, ← Nat.shiftRight_eq_div_pow, Nat.shiftRight_or_distrib, Nat.or_mod_two_pow,
    Nat.shiftRight_eq_div_pow, Nat.shiftRight_eq_div_pow]

theorem fieldAt_toNat {n i len : Nat} (hn : n < 2 ^ len) (hi : i + len ≤ 16) : (fieldAt n i).toNat = n * 2 ^ i := by
  rw [fieldAt, BitVec.toNat_ofNat, Nat.mod_eq_of_lt]
  calc n * 2 ^ i < 2 ^ len * 2 ^ i := Nat.mul_lt_mul_of_pos_right hn (Nat.two_pow_pos i)
    _ = 2 ^ (i + len) := by rw [Nat.add_comm, Nat.pow_add]
    _ ≤ 2 ^ 16 := Nat.pow_le_pow_right (by decide) hi

/-- A field read where it stands is the number. -/
theorem field_fieldAt {n i len : Nat} (hn : n < 2 ^ len) (hi : i + len ≤ 16) : field (fieldAt n i) i len = n := by
  rw [field, fieldAt_toNat hn hi, Nat.mul_div_cancel _ (Nat.two_pow_pos i), Nat.mod_eq_of_lt hn]

/-- Nothing of a field stands above it. -/
theorem field_fieldAt_above {n i len lo l : Nat} (hn : n < 2 ^ len) (hi : i + len ≤ 16) (h : i + len ≤ lo) :
    field (fieldAt n i) lo l = 0 := by
  have hlt : n * 2 ^ i < 2 ^ lo := by
    calc n * 2 ^ i < 2 ^ len * 2 ^ i := Nat.mul_lt_mul_of_pos_right hn (Nat.two_pow_pos i)
      _ = 2 ^ (i + len) := by rw [Nat.add_comm, Nat.pow_add]
      _ ≤ 2 ^ lo := Nat.pow_le_pow_right (by decide) h
  rw [field, fieldAt_toNat hn hi, Nat.div_eq_of_lt hlt, Nat.zero_mod]

/-- Nothing of a field stands below it. -/
theorem field_fieldAt_below {n i len lo l : Nat} (hn : n < 2 ^ len) (hi : i + len ≤ 16) (h : lo + l ≤ i) :
    field (fieldAt n i) lo l = 0 := by
  have hsplit : n * 2 ^ i = n * 2 ^ (i - (lo + l)) * 2 ^ l * 2 ^ lo := by
    rw [Nat.mul_assoc, Nat.mul_assoc, ← Nat.pow_add, ← Nat.pow_add]
    congr 2
    omega
  rw [field, fieldAt_toNat hn hi, hsplit, Nat.mul_div_cancel _ (Nat.two_pow_pos lo), Nat.mul_mod_left]

/-! ## Flags -/

theorem flag_or (a b : Word) (i : Nat) : flag (a ||| b) i = (flag a i || flag b i) := by
  simp [flag]

theorem flag_eq_field (w : Word) (i : Nat) : flag w i = decide (field w i 1 = 1) := by
  rw [flag, field, BitVec.getLsbD, Nat.testBit_eq_decide_div_mod_eq, Nat.pow_one]

theorem flagAt_eq_fieldAt (i : Nat) (b : Bool) : flagAt b i = fieldAt b.toNat i := by
  cases b
  · simp [flagAt, fieldAt]
  · rw [flagAt, if_pos rfl, fieldAt, ← BitVec.ofNat_eq_ofNat]
    apply BitVec.eq_of_toNat_eq
    simp [Nat.shiftLeft_eq]

theorem flag_flagAt {i j : Nat} (b : Bool) (hj : j < 16) : flag (flagAt b i) j = (b && decide (i = j)) := by
  cases b
  · simp [flag, flagAt]
  · simp only [flag, flagAt, if_true, BitVec.getLsbD_shiftLeft, Bool.true_and]
    by_cases h : i = j
    · simp [h, hj]
    · simp [h, hj]
      omega

/-- A flag beside a field. -/
theorem flag_fieldAt_above {n i len j : Nat} (hn : n < 2 ^ len) (hi : i + len ≤ 16) (h : i + len ≤ j) :
    flag (fieldAt n i) j = false := by
  rw [flag_eq_field, field_fieldAt_above hn hi h]
  rfl

theorem flag_fieldAt_below {n i len j : Nat} (hn : n < 2 ^ len) (hi : i + len ≤ 16) (h : j < i) :
    flag (fieldAt n i) j = false := by
  rw [flag_eq_field, field_fieldAt_below hn hi h]
  rfl

/-! ## Cut-out words -/

theorem extractLsb'_eq_field (w : Word) (lo len : Nat) : w.extractLsb' lo len = BitVec.ofNat len (field w lo len) := by
  apply BitVec.eq_of_toNat_eq
  rw [BitVec.extractLsb'_toNat, BitVec.toNat_ofNat, field, Nat.mod_mod, Nat.shiftRight_eq_div_pow]

end Sys2Proof.Machine
end

section
/-! PROOFS. Frames: what every request has in common, whatever it asks for (R161 to R163, R169). -/

namespace Sys2Proof.Machine

/-- The requests that return a data word (Table 12-1). -/
def returnsData : Instr → Prop
  | .readWord .. | .getPointer .. | .readNotices .. | .readRecordWord .. | .imageRead .. => True
  | _ => False

/-- What an owner returns with its answer: at most one word, and none where the request returns no data. -/
def DataOf (c : Instr) (data : List Word) : Prop := data = [] ∨ returnsData c ∧ ∃ w, data = [w]

/-- A request is its owner's answer, taken by the port and its roles; the frame's length has no part in it. -/
theorem exec_reframed {c : Instr} {p : PortId} (hp : requestPort c = some p) (hc : ∀ how, c ≠ .frameIncomplete p how) :
    ∃ body : State → Reply, (∀ n s, exec (reframed n c) s = request p n (requestRoles c) s body)
      ∧ ∀ s, DataOf c (body s).data := by
  cases c <;> simp only [requestPort, reduceCtorEq, Option.some.injEq] at hp <;> try subst hp
  case frameIncomplete p how => exact absurd rfl (hc how)
  case unknownCommand f code => exact ⟨_, fun _ _ => rfl, fun _ => .inl rfl⟩
  case noOperation f => exact ⟨_, fun _ _ => rfl, fun _ => .inl rfl⟩
  case setReadPointer f arg =>
    refine ⟨fun s => match argLocal arg with
      | none => refuse s .denied
      | some k => ⟨s.setPort f.port (takeSnapshot s f.port k { s.port f.port with
          pointer := k, direction := .read, sub := 0, staging := .zero, staged := 0 }),
        if (readable s f.port k).isSome then .ok else .outOfWindow, []⟩, fun _ _ => rfl, fun s => .inl ?_⟩
    grind [refuse]
  case setWritePointer f arg =>
    simp only [reframed, exec, execSetWritePointer]
    exact ⟨_, fun _ _ => rfl, fun s => .inl (by grind [refuse])⟩
  case readWord f =>
    simp only [reframed, exec, execReadWord]
    exact ⟨_, fun _ _ => rfl, fun s => by grind [DataOf, returnsData, refuse]⟩
  case writeWord f w =>
    simp only [reframed, exec, execWriteWord]
    exact ⟨_, fun _ _ => rfl, fun s => .inl (by grind [refuse])⟩
  case getPointer f =>
    simp only [reframed, exec, execGetPointer]
    exact ⟨_, fun _ _ => rfl, fun s => by grind [DataOf, returnsData]⟩
  case protectWindow f arg =>
    simp only [reframed, exec, execProtectWindow]
    exact ⟨_, fun _ _ => rfl, fun s => .inl (by grind [refuse])⟩
  case closeWindow f arg =>
    simp only [reframed, exec, execCloseWindow]
    exact ⟨_, fun _ _ => rfl, fun s => .inl (by grind [refuse])⟩
  case readNotices f =>
    simp only [reframed, exec, execReadNotices]
    exact ⟨_, fun _ _ => rfl, fun s => by grind [DataOf, returnsData, refuse]⟩
  case ackNotices f w =>
    simp only [reframed, exec, execAckNotices]
    exact ⟨_, fun _ _ => rfl, fun s => .inl (by grind [refuse])⟩
  case departureHold f =>
    simp only [reframed, exec, execDepartureHold]
    exact ⟨_, fun _ _ => rfl, fun s => .inl (by grind [refuse])⟩
  case releaseHold f =>
    simp only [reframed, exec, execReleaseHold]
    exact ⟨_, fun _ _ => rfl, fun s => .inl (by grind [refuse])⟩
  case clearLockout f =>
    simp only [reframed, exec, execClearLockout]
    exact ⟨_, fun _ _ => rfl, fun s => .inl (by grind [refuse])⟩
  case rest f w => exact ⟨_, fun _ _ => rfl, fun _ => .inl rfl⟩
  case endRest f =>
    simp only [reframed, exec, execEndRest]
    exact ⟨_, fun _ _ => rfl, fun s => .inl (by grind [refuse])⟩
  case clearZone f arg =>
    simp only [reframed, exec, execClearZone]
    exact ⟨_, fun _ _ => rfl, fun s => .inl (by grind [refuse])⟩
  case authorize f arg t0 t1 t2 t3 =>
    simp only [reframed, exec, execAuthorize]
    exact ⟨_, fun _ _ => rfl, fun s => .inl (by grind [refuse])⟩
  case endSession f =>
    simp only [reframed, exec, execEndSession]
    exact ⟨_, fun _ _ => rfl, fun s => .inl (by grind [refuse])⟩
  case setTime f hi lo => exact ⟨_, fun _ _ => rfl, fun _ => .inl rfl⟩
  case lockTariff f =>
    simp only [reframed, exec, execLockTariff]
    exact ⟨_, fun _ _ => rfl, fun s => .inl (by grind [refuse])⟩
  case unlockTariff f =>
    simp only [reframed, exec, execUnlockTariff]
    exact ⟨_, fun _ _ => rfl, fun s => .inl (by grind [refuse])⟩
  case collect f =>
    simp only [reframed, exec, execCollect]
    exact ⟨_, fun _ _ => rfl, fun s => .inl (by grind [refuse])⟩
  case readRecordWord f =>
    simp only [reframed, exec, execReadRecordWord]
    exact ⟨_, fun _ _ => rfl, fun s => by grind [DataOf, returnsData, refuse]⟩
  case release f hi lo =>
    simp only [reframed, exec, execRelease]
    exact ⟨_, fun _ _ => rfl, fun s => .inl (by grind [refuse])⟩
  case imageRead f arg =>
    simp only [reframed, exec, execImageRead]
    exact ⟨_, fun _ _ => rfl, fun s => by grind [DataOf, returnsData, refuse]⟩
  case imageWrite f arg w =>
    simp only [reframed, exec, execImageWrite]
    exact ⟨_, fun _ _ => rfl, fun s => .inl (by grind [refuse])⟩
  case imageStore f =>
    simp only [reframed, exec, execImageStore]
    exact ⟨_, fun _ _ => rfl, fun s => .inl (by grind [refuse])⟩

theorem reframed_self (c : Instr) : reframed (frameLength c) c = c := by
  cases c <;> rfl

theorem request_asserted {p : PortId} {len : Nat} {roles : List PortId} {s : State} (body : State → Reply)
    (h : (s.port p).resetAsserted = true) : request p len roles s body = .next s := by
  simp [request, live, h]

theorem request_not_admitted {p : PortId} {len : Nat} {roles : List PortId} {s : State} (body : State → Reply)
    (h : Ready p s) (hp : p ∉ roles) : request p len roles s body = .next (answer p len .notPermitted [] s s) := by
  rw [request_ready roles body h, if_neg (by simpa using hp)]

theorem exec_frameIncomplete {p : PortId} {how : FrameCut} {s : State} (h : s.powered = true) :
    exec (.frameIncomplete p how) s = .next (if (s.port p).resetAsserted then s
      else s.setPort p { s.port p with lastStatus := .sequence, returned := cutFrameWords (s.port p) how }) := by
  rw [exec, execFrameIncomplete, live_powered _ h]

/-! ## GET POINTER's word (R164, R180) -/

theorem Direction.code_lt (d : Direction) : d.code < 2 ^ 2 := by
  cases d <;> decide

theorem pointerWord_fields (pt : PortState) :
    field (pointerWord pt) 0 6 = pt.pointer.toNat ∧ field (pointerWord pt) 6 2 = 0
      ∧ field (pointerWord pt) 8 2 = pt.direction.code ∧ field (pointerWord pt) 10 2 = 0
      ∧ field (pointerWord pt) 12 2 = pt.sub.val ∧ field (pointerWord pt) 14 2 = 0 := by
  have hp : pt.pointer.toNat < 2 ^ 6 := pt.pointer.isLt
  have hd := pt.direction.code_lt
  have hs : pt.sub.val < 2 ^ 2 := by omega
  simp only [pointerWord, field_or]
  refine ⟨?_, ?_, ?_, ?_, ?_, ?_⟩
  · rw [field_fieldAt hp (by decide), field_fieldAt_below hd (by decide) (by decide), field_fieldAt_below hs (by decide) (by decide)]
    simp
  · rw [field_fieldAt_above hp (by decide) (by decide), field_fieldAt_below hd (by decide) (by decide),
      field_fieldAt_below hs (by decide) (by decide)]
    rfl
  · rw [field_fieldAt_above hp (by decide) (by decide), field_fieldAt hd (by decide), field_fieldAt_below hs (by decide) (by decide)]
    simp
  · rw [field_fieldAt_above hp (by decide) (by decide), field_fieldAt_above hd (by decide) (by decide),
      field_fieldAt_below hs (by decide) (by decide)]
    rfl
  · rw [field_fieldAt_above hp (by decide) (by decide), field_fieldAt_above hd (by decide) (by decide), field_fieldAt hs (by decide)]
    simp
  · rw [field_fieldAt_above hp (by decide) (by decide), field_fieldAt_above hd (by decide) (by decide),
      field_fieldAt_above hs (by decide) (by decide)]
    rfl

theorem exec_getPointer (len : Nat) {p : PortId} {s : State} (h : Ready p s) :
    exec (.getPointer ⟨p, len⟩) s = .next (answer p len .ok [pointerWord (s.port p)] s s) := by
  rw [exec, execGetPointer, request_any _ h]

/-- Settles O3: a port under its reset line takes no frame, a role refuses one, and these requests have no effect. -/
theorem framesWithoutEffect : Obligations.FramesWithoutEffect := by
  refine ⟨fun c p s hp hr => ?_, fun c p s hp hn h => ?_, fun p len s h => ⟨fun code _ => ?_, ?_,
    ⟨_, exec_getPointer len h, ?_⟩, fun how => ?_⟩⟩
  · by_cases hc : ∃ how, c = .frameIncomplete p how
    · obtain ⟨how, rfl⟩ := hc
      rw [exec, execFrameIncomplete, live]
      simp [hr]
    · obtain ⟨body, hbody, -⟩ := exec_reframed hp fun how he => hc ⟨how, he⟩
      rw [← reframed_self c, hbody, request_asserted body hr]
  · have hc : ∀ how, c ≠ .frameIncomplete p how := by
      rintro how rfl
      exact hn (by cases p <;> simp [requestRoles])
    obtain ⟨body, hbody, -⟩ := exec_reframed hp hc
    conv_lhs => rw [← reframed_self c]
    rw [hbody, request_not_admitted body h hn]
  · rw [exec, execUnknownCommand, request_any _ h]; rfl
  · rw [exec, execNoOperation, request_any _ h]
  · obtain ⟨h0, h6, h8, h10, h12, h14⟩ := pointerWord_fields (s.port p)
    rw [extractLsb'_eq_field, extractLsb'_eq_field, extractLsb'_eq_field, extractLsb'_eq_field, h0, h6, h8, h10, h12, h14]
    refine ⟨by simp, rfl, by cases (s.port p).direction <;> rfl, rfl, rfl, rfl⟩
  · rw [exec_frameIncomplete h.1, h.2]
    cases how <;> rfl

/-! ## The words returned (R161, R162) -/

/-- The words of a frame whose data are one word, or none. -/
theorem clocked_opening (n : Nat) (opening w : Word) {data : List Word} (h : data = [w] ∨ data = [] ∧ w = 0) :
    clocked n (opening :: data) = (List.range n).map fun i => [opening, w].getD i 0 := by
  refine List.ext_getElem? fun i => ?_
  rw [clocked_getElem?]
  by_cases hi : i < n
  · rw [if_pos hi, List.getElem?_map, List.getElem?_range hi]
    rcases h with rfl | ⟨rfl, rfl⟩
    · rfl
    · rcases i with _ | _ | i <;> rfl
  · rw [if_neg hi, List.getElem?_eq_none (by simpa using hi)]

/-- Settles O4: what the owner answers does not read the frame's length. -/
theorem framesReturnWords : Obligations.FramesReturnWords := by
  intro c p s hp hc h
  obtain ⟨body, hbody, hdata⟩ := exec_reframed hp hc
  generalize hr : (if (requestRoles c).contains p then body s else ⟨s, .notPermitted, []⟩ : Reply) = r
  have hrd : DataOf c r.data := by
    rw [← hr]
    split
    · exact hdata s
    · exact .inl rfl
  have hfin : ∀ n, exec (reframed n c) s = .next (finishFrame p n (statusWord (s.port p)) r) := by
    intro n
    rw [hbody, request, live, if_pos h.1, h.2, ← hr]
    rfl
  refine ⟨r.st.setPort p { r.st.port p with lastStatus := r.status }, r.data.headD 0, ?_, fun n => ?_⟩
  · rcases hrd with hnil | ⟨hret, -⟩
    · rw [hnil]
      split <;> trivial
    · cases c <;> trivial
  · have hwords : r.data = [r.data.headD 0] ∨ r.data = [] ∧ r.data.headD 0 = 0 := by
      rcases hrd with hnil | ⟨-, w, hw⟩
      · exact .inr ⟨hnil, by rw [hnil]; rfl⟩
      · exact .inl (by rw [hw]; rfl)
    rw [hfin, finishFrame, clocked_opening n _ _ hwords]
    simp

end Sys2Proof.Machine
end

section
/-! PROOFS. The frames of the ports spell the requests (Table 12-1, R161, R180). -/

namespace Sys2Proof

-- One proof after another: side by side they wait for each other in more threads than a small memory holds.
set_option Elab.async false

open Machine

/-! ## The command word (R180) -/

theorem codeOf_commandWord {code : Nat} (arg : BitVec 8) (h : code < 256) : codeOf (commandWord code arg) = code := by
  rw [codeOf, commandWord, BitVec.extractLsb'_append_eq_left]
  simpa using h

theorem argOf_commandWord (code : Nat) (arg : BitVec 8) : argOf (commandWord code arg) = arg := by
  rw [argOf, commandWord, BitVec.extractLsb'_append_eq_right]

/-! ## One equation for each code (Table 12-1) -/

section
variable (p : PortId) (commission : Bool) (arg : BitVec 8) (ops : List Word)

theorem frameCommand_noOperation : frameCommand p commission (commandWord 0x0 arg :: ops) =
    .noOperation ⟨p, ops.length + 1⟩ := by
  simp [frameCommand, codeOf_commandWord]

theorem frameCommand_setReadPointer : frameCommand p commission (commandWord 0x1 arg :: ops) =
    .setReadPointer ⟨p, ops.length + 1⟩ arg := by
  simp [frameCommand, codeOf_commandWord, argOf_commandWord]

theorem frameCommand_setWritePointer : frameCommand p commission (commandWord 0x2 arg :: ops) =
    .setWritePointer ⟨p, ops.length + 1⟩ arg := by
  simp [frameCommand, codeOf_commandWord, argOf_commandWord]

theorem frameCommand_readWord : frameCommand p commission (commandWord 0x3 arg :: ops) =
    .readWord ⟨p, ops.length + 1⟩ := by
  simp [frameCommand, codeOf_commandWord]

theorem frameCommand_getPointer : frameCommand p commission (commandWord 0x5 arg :: ops) =
    .getPointer ⟨p, ops.length + 1⟩ := by
  simp [frameCommand, codeOf_commandWord]

theorem frameCommand_protectWindow : frameCommand p commission (commandWord 0x6 arg :: ops) =
    .protectWindow ⟨p, ops.length + 1⟩ arg := by
  simp [frameCommand, codeOf_commandWord, argOf_commandWord]

theorem frameCommand_closeWindow : frameCommand p commission (commandWord 0x7 arg :: ops) =
    .closeWindow ⟨p, ops.length + 1⟩ arg := by
  simp [frameCommand, codeOf_commandWord, argOf_commandWord]

theorem frameCommand_readNotices : frameCommand p commission (commandWord 0x8 arg :: ops) =
    .readNotices ⟨p, ops.length + 1⟩ := by
  simp [frameCommand, codeOf_commandWord]

theorem frameCommand_departureHold : frameCommand p commission (commandWord 0x20 arg :: ops) =
    .departureHold ⟨p, ops.length + 1⟩ := by
  simp [frameCommand, codeOf_commandWord]

theorem frameCommand_releaseHold : frameCommand p commission (commandWord 0x21 arg :: ops) =
    .releaseHold ⟨p, ops.length + 1⟩ := by
  simp [frameCommand, codeOf_commandWord]

theorem frameCommand_clearLockout : frameCommand p commission (commandWord 0x22 arg :: ops) =
    .clearLockout ⟨p, ops.length + 1⟩ := by
  simp [frameCommand, codeOf_commandWord]

theorem frameCommand_endRest : frameCommand p commission (commandWord 0x31 arg :: ops) =
    .endRest ⟨p, ops.length + 1⟩ := by
  simp [frameCommand, codeOf_commandWord]

theorem frameCommand_clearZone : frameCommand p commission (commandWord 0x32 arg :: ops) =
    .clearZone ⟨p, ops.length + 1⟩ arg := by
  simp [frameCommand, codeOf_commandWord, argOf_commandWord]

theorem frameCommand_endSession : frameCommand p commission (commandWord 0x41 arg :: ops) =
    .endSession ⟨p, ops.length + 1⟩ := by
  simp [frameCommand, codeOf_commandWord]

theorem frameCommand_lockTariff : frameCommand p commission (commandWord 0x43 arg :: ops) =
    .lockTariff ⟨p, ops.length + 1⟩ := by
  simp [frameCommand, codeOf_commandWord]

theorem frameCommand_unlockTariff : frameCommand p commission (commandWord 0x44 arg :: ops) =
    .unlockTariff ⟨p, ops.length + 1⟩ := by
  simp [frameCommand, codeOf_commandWord]

theorem frameCommand_collect : frameCommand p commission (commandWord 0x45 arg :: ops) =
    .collect ⟨p, ops.length + 1⟩ := by
  simp [frameCommand, codeOf_commandWord]

theorem frameCommand_readRecordWord : frameCommand p commission (commandWord 0x46 arg :: ops) =
    .readRecordWord ⟨p, ops.length + 1⟩ := by
  simp [frameCommand, codeOf_commandWord]

theorem frameCommand_imageRead : frameCommand p commission (commandWord 0x60 arg :: ops) =
    .imageRead ⟨p, ops.length + 1⟩ arg := by
  simp [frameCommand, codeOf_commandWord, argOf_commandWord]

theorem frameCommand_imageStore : frameCommand p commission (commandWord 0x62 arg :: ops) =
    .imageStore ⟨p, ops.length + 1⟩ := by
  simp [frameCommand, codeOf_commandWord]

theorem frameCommand_writeWord : frameCommand p commission (commandWord 0x4 arg :: ops) =
    withOperands p true 1 ops (.writeWord ⟨p, ops.length + 1⟩ (ops.getD 0 0)) := by
  simp [frameCommand, codeOf_commandWord]

theorem frameCommand_ackNotices : frameCommand p commission (commandWord 0x9 arg :: ops) =
    withOperands p true 1 ops (.ackNotices ⟨p, ops.length + 1⟩ (ops.getD 0 0)) := by
  simp [frameCommand, codeOf_commandWord]

theorem frameCommand_rest : frameCommand p commission (commandWord 0x30 arg :: ops) =
    withOperands p (p == .P) 1 ops (.rest ⟨p, ops.length + 1⟩ (ops.getD 0 0)) := by
  simp [frameCommand, codeOf_commandWord]

theorem frameCommand_setTime : frameCommand p commission (commandWord 0x42 arg :: ops) =
    withOperands p (p == .F) 2 ops (.setTime ⟨p, ops.length + 1⟩ (ops.getD 0 0) (ops.getD 1 0)) := by
  simp [frameCommand, codeOf_commandWord]

theorem frameCommand_release : frameCommand p commission (commandWord 0x47 arg :: ops) =
    withOperands p (p == .F) 2 ops (.release ⟨p, ops.length + 1⟩ (ops.getD 0 0) (ops.getD 1 0)) := by
  simp [frameCommand, codeOf_commandWord]

theorem frameCommand_imageWrite : frameCommand p commission (commandWord 0x61 arg :: ops) =
    withOperands p (p == .F && commission) 1 ops (.imageWrite ⟨p, ops.length + 1⟩ arg (ops.getD 0 0)) := by
  simp [frameCommand, codeOf_commandWord, argOf_commandWord]

theorem frameCommand_authorize_tag : frameCommand p commission (commandWord 0x40 1 :: ops) =
    withOperands p (p == .F) 4 ops (.authorize ⟨p, ops.length + 1⟩ 1 (ops.getD 0 0) (ops.getD 1 0) (ops.getD 2 0)
      (ops.getD 3 0)) := by
  simp [frameCommand, codeOf_commandWord, argOf_commandWord]

variable {arg} in
theorem frameCommand_authorize (h : arg ≠ 1) : frameCommand p commission (commandWord 0x40 arg :: ops) =
    .authorize ⟨p, ops.length + 1⟩ arg 0 0 0 0 := by
  simp only [frameCommand, codeOf_commandWord arg (show 0x40 < 256 by decide), argOf_commandWord, if_neg h]

theorem frameCommand_unknownCommand {code : BitVec 8} (h : code.toNat ∉ definedCodes) :
    frameCommand p commission (commandWord code.toNat arg :: ops) = .unknownCommand ⟨p, ops.length + 1⟩ code := by
  have hcode : codeOf (commandWord code.toNat arg) = code.toNat := codeOf_commandWord arg code.isLt
  rw [frameCommand]
  dsimp only
  rw [hcode]
  split
  all_goals first
    | exact absurd (by rw [‹code.toNat = _›]; decide) h
    | simp

end

/-! ## What the words of a request make the field layer read -/

/-- The words that are the request c on port p: its command word cw, its operand words ops. `request` is the command read from the
words behind cw in a frame of a given length, and `admitted` says whether the port needs all the operands. -/
structure Spells (c : Instr) (p : PortId) (commission admitted : Bool) (cw : Word) (ops : List Word)
    (request : List Word → Nat → Instr) : Prop where
  whole : c = request ops (frameLength c)
  reads : ∀ words, frameCommand p commission (cw :: words) =
    withOperands p admitted ops.length words (request words (words.length + 1))
  operands : ∀ words words' len, (∀ i < ops.length, words.getD i 0 = words'.getD i 0) → request words len = request words' len
  inRole : p ∈ requestRoles c → (∀ len arg w, c = .imageWrite ⟨p, len⟩ arg w → commission = true) → admitted = true
  outOfRole : p ∉ requestRoles c → admitted = false

namespace Spells

variable {c : Instr} {p : PortId} {commission admitted : Bool} {cw : Word} {ops : List Word} {request : List Word → Nat → Instr}

theorem of_commandWord (made : Frame → Instr) (whole : c = made ⟨p, frameLength c⟩)
    (reads : ∀ words, frameCommand p commission (cw :: words) = made ⟨p, words.length + 1⟩) :
    ∃ admitted cw' ops request, [cw] = cw' :: ops ∧ Spells c p commission admitted cw' ops request :=
  ⟨decide (p ∈ requestRoles c), cw, [], fun _ len => made ⟨p, len⟩, rfl,
    { whole := whole
      reads := fun words => by simpa [withOperands] using reads words
      operands := fun _ _ _ _ => rfl
      inRole := fun h _ => by simpa using h
      outOfRole := fun h => by simpa using h }⟩

theorem frame_extended (h : Spells c p commission admitted cw ops request) (extra : List Word)
    (hlen : frameLength c = (cw :: ops).length + extra.length) : frameCommand p commission (cw :: ops ++ extra) = c := by
  have hwords : request (ops ++ extra) (frameLength c) = request ops (frameLength c) :=
    h.operands _ _ _ fun i hi => by rw [List.getD_append _ _ _ _ hi]
  rw [List.cons_append, h.reads, withOperands, if_neg (by simp), h.whole]
  rw [List.length_append, show ops.length + extra.length + 1 = frameLength c by simp at hlen; omega, hwords]

theorem frame_cut_admitted (h : Spells c p commission admitted cw ops request) {k : Nat} (hk : k < ops.length)
    (hadmitted : admitted = true) :
    frameCommand p commission (cw :: ops.take k) = .frameIncomplete p (.operands (k + 1)) := by
  rw [h.reads, withOperands, if_pos (by simp [hadmitted, hk]), List.length_take_of_le (by omega)]

theorem frame_cut_refused (h : Spells c p commission admitted cw ops request) {k : Nat} (hk : k < ops.length)
    (hadmitted : admitted = false) (hlen : frameLength c = k + 1) (hzero : ∀ w ∈ ops.drop k, w = 0) :
    frameCommand p commission (cw :: ops.take k) = c := by
  have hwords : request (ops.take k) (frameLength c) = request ops (frameLength c) := h.operands _ _ _ fun i hi => by
    by_cases hik : i < k
    · simp [List.getD_eq_getElem?_getD, List.getElem?_take_of_lt hik]
    · have hlast : ops[i] = 0 := hzero _ (List.mem_drop_iff_getElem.2 ⟨i - k, by omega, by congr 1; omega⟩)
      simp [List.getD_eq_getElem?_getD, List.getElem?_take_eq_none (by omega : k ≤ i), hi, hlast]
  rw [h.reads, withOperands, if_neg (by simp [hadmitted]), List.length_take_of_le (by omega), ← hlen, hwords]
  exact h.whole.symm

end Spells

/-! ## Every request's words spell it -/

theorem spells_of_wellFormed {c : Instr} {p : PortId} {ws : List Word} (commission : Bool) (hwf : wellFormed c = true)
    (hp : requestPort c = some p) (hws : frameWords c = some ws) :
    ∃ admitted cw ops request, ws = cw :: ops ∧ Spells c p commission admitted cw ops request := by
  cases c
  case noOperation f => cases hp; cases hws; exact Spells.of_commandWord .noOperation rfl (frameCommand_noOperation f.port commission 0)
  case readWord f => cases hp; cases hws; exact Spells.of_commandWord .readWord rfl (frameCommand_readWord f.port commission 0)
  case getPointer f => cases hp; cases hws; exact Spells.of_commandWord .getPointer rfl (frameCommand_getPointer f.port commission 0)
  case readNotices f => cases hp; cases hws; exact Spells.of_commandWord .readNotices rfl (frameCommand_readNotices f.port commission 0)
  case departureHold f => cases hp; cases hws; exact Spells.of_commandWord .departureHold rfl (frameCommand_departureHold f.port commission 0)
  case releaseHold f => cases hp; cases hws; exact Spells.of_commandWord .releaseHold rfl (frameCommand_releaseHold f.port commission 0)
  case clearLockout f => cases hp; cases hws; exact Spells.of_commandWord .clearLockout rfl (frameCommand_clearLockout f.port commission 0)
  case endRest f => cases hp; cases hws; exact Spells.of_commandWord .endRest rfl (frameCommand_endRest f.port commission 0)
  case endSession f => cases hp; cases hws; exact Spells.of_commandWord .endSession rfl (frameCommand_endSession f.port commission 0)
  case lockTariff f => cases hp; cases hws; exact Spells.of_commandWord .lockTariff rfl (frameCommand_lockTariff f.port commission 0)
  case unlockTariff f => cases hp; cases hws; exact Spells.of_commandWord .unlockTariff rfl (frameCommand_unlockTariff f.port commission 0)
  case collect f => cases hp; cases hws; exact Spells.of_commandWord .collect rfl (frameCommand_collect f.port commission 0)
  case readRecordWord f => cases hp; cases hws; exact Spells.of_commandWord .readRecordWord rfl (frameCommand_readRecordWord f.port commission 0)
  case imageStore f => cases hp; cases hws; exact Spells.of_commandWord .imageStore rfl (frameCommand_imageStore f.port commission 0)
  case setReadPointer f arg => cases hp; cases hws; exact Spells.of_commandWord (.setReadPointer · arg) rfl (frameCommand_setReadPointer f.port commission arg)
  case setWritePointer f arg => cases hp; cases hws; exact Spells.of_commandWord (.setWritePointer · arg) rfl (frameCommand_setWritePointer f.port commission arg)
  case protectWindow f arg => cases hp; cases hws; exact Spells.of_commandWord (.protectWindow · arg) rfl (frameCommand_protectWindow f.port commission arg)
  case closeWindow f arg => cases hp; cases hws; exact Spells.of_commandWord (.closeWindow · arg) rfl (frameCommand_closeWindow f.port commission arg)
  case clearZone f arg => cases hp; cases hws; exact Spells.of_commandWord (.clearZone · arg) rfl (frameCommand_clearZone f.port commission arg)
  case imageRead f arg => cases hp; cases hws; exact Spells.of_commandWord (.imageRead · arg) rfl (frameCommand_imageRead f.port commission arg)
  case writeWord f w =>
    cases hp; cases hws
    exact ⟨true, _, [w], fun ops len => .writeWord ⟨f.port, len⟩ (ops.getD 0 0), rfl, rfl, frameCommand_writeWord f.port commission 0,
      fun _ _ _ h => by rw [h 0 (by simp)], by simp [requestRoles], by cases f.port <;> simp [requestRoles]⟩
  case ackNotices f w =>
    cases hp; cases hws
    exact ⟨true, _, [w], fun ops len => .ackNotices ⟨f.port, len⟩ (ops.getD 0 0), rfl, rfl, frameCommand_ackNotices f.port commission 0,
      fun _ _ _ h => by rw [h 0 (by simp)], by simp [requestRoles], by cases f.port <;> simp [requestRoles]⟩
  case rest f w =>
    cases hp; cases hws
    exact ⟨f.port == .P, _, [w], fun ops len => .rest ⟨f.port, len⟩ (ops.getD 0 0), rfl, rfl, frameCommand_rest f.port commission 0,
      fun _ _ _ h => by rw [h 0 (by simp)], by simp [requestRoles], by simp [requestRoles]⟩
  case setTime f hi lo =>
    cases hp; cases hws
    exact ⟨f.port == .F, _, [hi, lo], fun ops len => .setTime ⟨f.port, len⟩ (ops.getD 0 0) (ops.getD 1 0), rfl, rfl,
      frameCommand_setTime f.port commission 0, fun _ _ _ h => by rw [h 0 (by simp), h 1 (by simp)],
      by simp [requestRoles], by simp [requestRoles]⟩
  case release f hi lo =>
    cases hp; cases hws
    exact ⟨f.port == .F, _, [hi, lo], fun ops len => .release ⟨f.port, len⟩ (ops.getD 0 0) (ops.getD 1 0), rfl, rfl,
      frameCommand_release f.port commission 0, fun _ _ _ h => by rw [h 0 (by simp), h 1 (by simp)],
      by simp [requestRoles], by simp [requestRoles]⟩
  case imageWrite f arg w =>
    cases hp; cases hws
    exact ⟨f.port == .F && commission, _, [w], fun ops len => .imageWrite ⟨f.port, len⟩ arg (ops.getD 0 0), rfl, rfl,
      frameCommand_imageWrite f.port commission arg, fun _ _ _ h => by rw [h 0 (by simp)],
      fun hrole hcom => by simp [hcom f.len arg w rfl, List.mem_singleton.1 hrole],
      fun hrole => by simp_all [requestRoles]⟩
  case authorize f arg t0 t1 t2 t3 =>
    cases hp; cases hws
    by_cases harg : arg = 1
    · subst harg
      exact ⟨f.port == .F, _, [t0, t1, t2, t3], fun ops len => .authorize ⟨f.port, len⟩ 1 (ops.getD 0 0) (ops.getD 1 0)
        (ops.getD 2 0) (ops.getD 3 0), rfl, rfl, frameCommand_authorize_tag f.port commission,
        fun _ _ _ h => by rw [h 0 (by simp), h 1 (by simp), h 2 (by simp), h 3 (by simp)],
        by simp [requestRoles], by simp [requestRoles]⟩
    · obtain ⟨rfl, rfl, rfl, rfl⟩ : t0 = 0 ∧ t1 = 0 ∧ t2 = 0 ∧ t3 = 0 := by
        have hzero : arg = 1 ∨ t0 = 0 ∧ t1 = 0 ∧ t2 = 0 ∧ t3 = 0 := by
          simpa [and_assoc] using (Bool.and_eq_true_iff.1 hwf).2
        exact hzero.resolve_left harg
      rw [if_neg harg]
      exact Spells.of_commandWord (.authorize · arg 0 0 0 0) rfl (frameCommand_authorize f.port commission · harg)
  case unknownCommand f code =>
    have hcode : code.toNat ∉ definedCodes := by simpa using (Bool.and_eq_true_iff.1 hwf).2
    cases hp
    rw [frameWords, if_neg hcode] at hws
    cases hws
    exact Spells.of_commandWord (.unknownCommand · code) rfl (fun ops => frameCommand_unknownCommand f.port commission 0 ops hcode)
  all_goals exact nomatch hws

/-- A cut frame that is well-formed is one of a port that is outside its role, with 0 for the words it has not clocked. -/
theorem missing_zero {c : Instr} {p : PortId} {ws : List Word} (hwf : wellFormed c = true) (hp : requestPort c = some p)
    (hws : frameWords c = some ws) (hcut : frameLength c < ws.length) : ∀ w ∈ ws.drop (frameLength c), w = 0 := by
  have hframed : framed c = true := (Bool.and_eq_true_iff.1 hwf).1
  rw [framed, hp, hws] at hframed
  have hrest : (1 ≤ frameLength c ∧ p ∉ requestRoles c) ∧ ∀ w ∈ ws.drop (frameLength c), w = 0 := by
    simpa [not_le.2 hcut] using hframed
  exact hrest.2

/-- Settles O2: every request's words are a command word and the operands that the command needs. -/
theorem framesSpellRequests : Obligations.FramesSpellRequests := by
  unfold Obligations.FramesSpellRequests
  refine ⟨fun c p ws extra commission hwf hp hws hlen => ?_, fun c p ws commission k hwf hp hws hpos hcut => ?_, fun p commission => rfl⟩
  · obtain ⟨admitted, cw, ops, request, rfl, hspells⟩ := spells_of_wellFormed commission hwf hp hws
    exact hspells.frame_extended extra hlen
  · obtain ⟨admitted, cw, ops, request, rfl, hspells⟩ := spells_of_wellFormed commission hwf hp hws
    obtain ⟨k, rfl⟩ := Nat.exists_eq_succ_of_ne_zero hpos.ne'
    have hk : k < ops.length := by simpa using hcut
    simp only [Nat.succ_eq_add_one, List.take_succ_cons]
    refine ⟨fun hrole hcom => hspells.frame_cut_admitted hk (hspells.inRole hrole hcom), fun hrole hlen => ?_⟩
    have hzero := missing_zero hwf hp hws (hlen ▸ hcut)
    rw [hlen] at hzero
    exact hspells.frame_cut_refused hk (hspells.outOfRole hrole) hlen (by simpa using hzero)

end Sys2Proof
end

section
/-! PROOFS. Single steps: the queue's front command, the ports' pointers and windows (R164, R168), the stage's lines and timers (R45,
R58 to R60), and the output holds (R63, R64, R69, R70). -/

namespace Sys2Proof.Machine

/-- Settles O1: each clause is a case of `step`. -/
theorem stepRunsFrontCommand : Obligations.StepRunsFrontCommand := by
  unfold Obligations.StepRunsFrontCommand
  refine ⟨fun c rest s => rfl, fun s h => ?_⟩
  simp [step, h]

/-! ## The answer of an admitted request -/

theorem request_replies {p : PortId} {len : Nat} {roles : List PortId} {s u : State} {body : State → Reply} {st : Status}
    {data : List Word} (h : Ready p s) (hp : p ∈ roles) (hb : body s = ⟨u, st, data⟩) :
    request p len roles s body = .next (answer p len st data s u) := by
  rw [request_admitted body h hp, hb]

theorem live_becomes {s t : State} {f : State → State} (h : s.powered = true) (ht : f s = t) : live s f = .next t := by
  rw [live_powered f h, ht]

theorem mem_anyPort (p : PortId) : p ∈ anyPort := by cases p <;> simp [anyPort]

/-! ## Arguments (R164, R168) -/

theorem argLocal_none {a : BitVec 8} (h : 63 < a.toNat) : argLocal a = none := by simp [argLocal, h]

theorem argLocal_some {a : BitVec 8} (h : a.toNat ≤ 63) : argLocal a = some (a.setWidth 6) := by simp [argLocal, h]

theorem argWindow_none {a : BitVec 8} (h : 3 < a.toNat) : argWindow a = none := by
  rw [argWindow, dif_neg (by omega)]

theorem argWindow_some {a : BitVec 8} {i : Fin 4} (h : a.toNat = i.val) : argWindow a = some i := by
  rw [argWindow, dif_pos (by omega)]
  simp [h]

/-! ## Pointers and windows -/

section
variable {p : PortId} {len : Nat} {arg : BitVec 8} {s : State}

theorem exec_setReadPointer_denied (hr : Ready p s) (h : 63 < arg.toNat) :
    exec (.setReadPointer ⟨p, len⟩ arg) s = .next (answer p len .denied [] s s) := by
  rw [exec]; exact request_replies hr (mem_anyPort p) (by simp [argLocal_none h, refuse])

theorem exec_setReadPointer (hr : Ready p s) (h : arg.toNat ≤ 63) :
    exec (.setReadPointer ⟨p, len⟩ arg) s = .next (answer p len
      (if (readable s p (arg.setWidth 6)).isSome then .ok else .outOfWindow) [] s
      (s.setPort p (takeSnapshot s p (arg.setWidth 6) { s.port p with
        pointer := arg.setWidth 6, direction := .read, sub := 0, staging := .zero, staged := 0 }))) := by
  rw [exec]; exact request_replies hr (mem_anyPort p) (by simp [argLocal_some h])

theorem takeSnapshot_mapped {k n : BitVec 6} (pt : PortState) (h : readable s p k = some n) :
    takeSnapshot s p k pt = { pt with holding := s.readEntry n, snapshot := .mapped } := by simp [takeSnapshot, h]

theorem takeSnapshot_unmapped {k : BitVec 6} (pt : PortState) (h : readable s p k = none) :
    takeSnapshot s p k pt = { pt with holding := .zero, snapshot := .unmapped } := by simp [takeSnapshot, h]

/-- Settles O5: a pointer's argument is a local number or refused, and a window's is one of the four or refused. -/
theorem pointersAndWindows : Obligations.PointersAndWindows := by
  unfold Obligations.PointersAndWindows
  refine ⟨fun p len arg s hr => ⟨fun h => ⟨exec_setReadPointer_denied hr h, ?_⟩, fun h => ⟨?_, fun hn => ?_, fun n hn => ?_⟩⟩,
    fun p len arg s hr => ⟨fun h => ⟨?_, ?_⟩, fun i h => ⟨?_, ?_⟩⟩⟩
  · rw [exec]; exact request_replies hr (mem_anyPort p) (by simp [argLocal_none h, refuse])
  · rw [exec]; exact request_replies hr (mem_anyPort p) (by simp [argLocal_some h, Entry.zero])
  · rw [exec_setReadPointer hr h, takeSnapshot_unmapped _ hn, hn]; rfl
  · rw [exec_setReadPointer hr h, takeSnapshot_mapped _ hn, hn]; rfl
  · rw [exec]; exact request_replies hr (mem_anyPort p) (by simp [argWindow_none h, refuse])
  · rw [exec]; exact request_replies hr (mem_anyPort p) (by simp [argWindow_none h, refuse])
  · rw [exec]; exact request_replies hr (mem_anyPort p) (by simp [argWindow_some h])
  · rw [exec]; exact request_replies hr (mem_anyPort p) (by simp [argWindow_some h])

end

/-! ## The stage's lines and timers -/

theorem readyChanged_true {s : State} (h : s.alc.stageReady = false) : readyChanged true s = { s with alc := { s.alc with
    stageReady := true, stage := if s.alc.stage = .notReady then .available else s.alc.stage } } := by
  rw [readyChanged, if_neg (by simp [h])]
  cases hstage : s.alc.stage <;> simp [State.setAlc, hstage]

theorem readyChanged_false {s : State} (h : s.alc.stageReady = true) : readyChanged false s =
    if s.alc.stage = .available then
      (if s.alc.record.mode = .off then { s with alc := { s.alc with stageReady := false, stage := .notReady } }
        else raise .stageFault { s with alc := { s.alc with stageReady := false, stage := .notReady, cause := .ready } })
    else { s with alc := { s.alc with stageReady := false } } := by
  rw [readyChanged, if_neg (by simp [h])]
  cases hstage : s.alc.stage <;> simp [State.setAlc, stageFaultWith]

theorem recovered_eq (s : State) : recovered s = if s.alc.recovery = .stopped then s else { s with alc := { s.alc with
    recovery := .stopped, stage := if s.alc.stageReady = true then .available else .notReady } } := by
  unfold recovered
  cases s.alc.recovery <;> simp [Timer.isRunning, State.setAlc]

/-- Settles O29: each event is one case of its block's function, on a line or timer of the state given. -/
theorem stageLinesAndTimers : Obligations.StageLinesAndTimers := by
  unfold Obligations.StageLinesAndTimers
  refine ⟨fun s hp => ⟨?_, fun h => ?_, fun h => ?_⟩, fun s hp => ⟨fun level h => ?_, fun h => ?_, fun h => ?_,
    fun level h => ?_, fun h => ?_, fun h => ?_, ?_⟩⟩ <;> rw [exec]
  · exact live_becomes hp rfl
  · exact live_becomes hp (by simp [acceptanceExpired, h, Timer.isRunning])
  · exact live_becomes hp (by rw [acceptanceExpired, if_pos ((Timer.isRunning_iff _).2 h)]; rfl)
  · exact live_becomes hp (by rw [readyChanged, if_pos h])
  · exact live_becomes hp (readyChanged_true h)
  · exact live_becomes hp (readyChanged_false h)
  · exact live_becomes hp (by rw [faultChanged, if_pos h])
  · exact live_becomes hp (by simp [faultChanged, h, stageFaultWith, State.setAlc])
  · exact live_becomes hp (by simp [faultChanged, h, State.setAlc, Config.recoveryMs])
  · exact live_becomes hp (recovered_eq s)

/-! ## The holds' requests and timers -/

theorem Grade.isProven_iff (g : Grade) : g.isProven = true ↔ g = .good ∨ g = .warning := by
  cases g <;> simp [Grade.isProven]

/-- The checks of DEPARTURE HOLD behind the hold's own (R63). -/
def HoldFits (s : State) : Prop :=
  (s.iso.grade = .good ∨ s.iso.grade = .warning) ∧ s.iso.lockout = false ∧ s.iso.age < overdueLimit s.iso

theorem holdStatus_busy {s : State} (h : s.alc.hold ≠ .none) : holdStatus s = .busy := by rw [holdStatus, if_pos h]

theorem holdStatus_ok {s : State} (h : s.alc.hold = .none) (hfit : HoldFits s) : holdStatus s = .ok := by
  obtain ⟨hgrade, hlock, hage⟩ := hfit
  simp [holdStatus, h, (Grade.isProven_iff _).2 hgrade, hlock, hage]

theorem holdStatus_denied {s : State} (h : s.alc.hold = .none) (hfit : ¬ HoldFits s) : holdStatus s = .denied := by
  rw [holdStatus, if_neg (by simp [h])]
  split
  next => rfl
  next hgrade => split
                 next => rfl
                 next hlock =>
                   have hage : overdueLimit s.iso ≤ s.iso.age := not_lt.1 fun hlt =>
                     hfit ⟨(Grade.isProven_iff _).1 (by simpa using hgrade), by simpa using hlock, hlt⟩
                   rw [if_pos hage]

theorem holdTimerExpiry_eq (s : State) : (if s.alc.holdTimer.isRunning then dropHoldWithNotice s else s) =
    if s.alc.holdTimer = .stopped ∨ s.alc.hold = .none then s
    else raise .holdChange { s with alc := { s.alc with hold := .none, holdTimer := .stopped } } := by
  by_cases ht : s.alc.holdTimer = .stopped <;> by_cases hh : s.alc.hold = .none <;>
    simp [Timer.isRunning_iff, ht, hh, dropHoldWithNotice, dropHold, State.setAlc]

theorem restTimerExpiry_eq (s : State) : (if s.alc.restTimer.isRunning then endRestWithNotice s else s) =
    if s.alc.restTimer = .stopped ∨ s.alc.resting = false then s
    else raise .holdChange { s with alc := { s.alc with resting := false, restTimer := .stopped } } := by
  by_cases ht : s.alc.restTimer = .stopped <;> by_cases hh : s.alc.resting = false <;>
    simp [Timer.isRunning_iff, ht, hh, endRestWithNotice, endRest, State.setAlc]

theorem restSeconds_eq (w : Word) :
    restSeconds w = if w.toNat < 1 then 1 else if 120 < w.toNat then 120 else w.toNat := by
  rw [restSeconds, clampTo]
  split
  next => omega
  next => split <;> omega

/-- Settles O30: the checks of R63 in their order, and each timer's expiry on a hold or rest that still stands. -/
theorem holdAndRestRequests : Obligations.HoldAndRestRequests := by
  unfold Obligations.HoldAndRestRequests
  refine ⟨fun len s hr => ⟨fun h => ?_, fun h hfit => ?_, fun h hfit => ?_, fun h => ?_, fun h => ?_, ?_⟩,
    fun len w s hr => ⟨?_, fun h => ?_, fun h => ?_, ?_⟩⟩ <;> rw [exec]
  · exact request_replies hr (by simp) (by simp [holdStatus_busy h, refuse])
  · exact request_replies hr (by simp) (by simp [holdStatus_denied h hfit, refuse])
  · exact request_replies hr (by simp) (by simp [holdStatus_ok h hfit, State.setAlc, Config.holdMs])
  · exact request_replies hr (by simp) (by simp [h, refuse])
  · exact request_replies hr (by simp) (by simp [h, dropHold, State.setAlc])
  · exact live_becomes hr.1 (holdTimerExpiry_eq s)
  · exact request_replies hr (by simp) (by simp only [restSeconds_eq]; rfl)
  · exact request_replies hr (by simp) (by simp [h, refuse])
  · exact request_replies hr (by simp) (by simp [h, endRest, State.setAlc])
  · exact live_becomes hr.1 (restTimerExpiry_eq s)

end Sys2Proof.Machine
end

section
/-! PROOFS. Port F's requests on the store: collection (R157 to R159) and the configuration image (R163, R173, R174). -/

namespace Sys2Proof.Machine

/-! ## The oldest record (R146, R157; log entry 33) -/

/-- The oldest record among the slots of l: none, or the first of those with the least number. -/
def OldestIn (slots : Vector Slot 64) (l : List (Fin 64)) : Option (Fin 64 × Word32) → Prop
  | none => ∀ j ∈ l, ∀ m, slots[j].mark ≠ .record m
  | some (i, n) => slots[i].mark = .record n ∧ ∀ j ∈ l, ∀ m, slots[j].mark = .record m → n ≤ m ∧ (n = m → i ≤ j)

/-- One slot looked at, behind the oldest so far. -/
def olderOf (slots : Vector Slot 64) (acc : Option (Fin 64 × Word32)) (i : Fin 64) : Option (Fin 64 × Word32) :=
  match slots[i].mark, acc with
  | .record n, some (j, m) => if n < m then some (i, n) else some (j, m)
  | .record n, none => some (i, n)
  | _, acc => acc

theorem oldest_eq (slots : Vector Slot 64) : oldest slots = (List.finRange 64).foldl (olderOf slots) none := rfl

theorem olderOf_first {slots : Vector Slot 64} {x : Fin 64} {n : Word32} (h : slots[x].mark = .record n) :
    olderOf slots none x = some (x, n) := by simp only [olderOf, h]

theorem olderOf_later {slots : Vector Slot 64} {x j : Fin 64} {n m : Word32} (h : slots[x].mark = .record n) :
    olderOf slots (some (j, m)) x = if n < m then some (x, n) else some (j, m) := by simp only [olderOf, h]

theorem olderOf_other {slots : Vector Slot 64} {x : Fin 64} (acc : Option (Fin 64 × Word32))
    (h : ∀ n, slots[x].mark ≠ .record n) : olderOf slots acc x = acc := by
  cases hm : slots[x].mark with
  | record n => exact absurd hm (h n)
  | free => simp only [olderOf, hm]
  | reserved n => simp only [olderOf, hm]

section
variable {slots : Vector Slot 64} {l : List (Fin 64)} {x : Fin 64} {n : Word32}

/-- A slot that holds no record changes nothing of what the oldest is. -/
theorem OldestIn.append_other {acc : Option (Fin 64 × Word32)} (h : OldestIn slots l acc)
    (hx : ∀ n, slots[x].mark ≠ .record n) : OldestIn slots (l ++ [x]) acc := by
  cases acc with
  | none => exact fun j hj => (List.mem_append.1 hj).elim (h j) fun hjx => List.mem_singleton.1 hjx ▸ hx
  | some r =>
    refine ⟨h.1, fun j hj m hm => (List.mem_append.1 hj).elim (fun hjl => h.2 j hjl m hm) fun hjx => ?_⟩
    rw [List.mem_singleton.1 hjx] at hm
    exact absurd hm (hx m)

theorem OldestIn.append_first (h : OldestIn slots l none) (hx : slots[x].mark = .record n) :
    OldestIn slots (l ++ [x]) (some (x, n)) := by
  refine ⟨hx, fun j hj m hm => (List.mem_append.1 hj).elim (fun hjl => absurd hm (h j hjl m)) fun hjx => ?_⟩
  rw [List.mem_singleton.1 hjx, hx] at hm
  exact ⟨Mark.record.inj hm ▸ BitVec.le_refl n, fun _ => (List.mem_singleton.1 hjx).ge⟩

theorem OldestIn.append_later {i : Fin 64} {k : Word32} (h : OldestIn slots l (some (i, k))) (hx : slots[x].mark = .record n)
    (hi : i ≤ x) : OldestIn slots (l ++ [x]) (if n < k then some (x, n) else some (i, k)) := by
  obtain ⟨hmark, hleast⟩ := h
  split
  next hlt =>
    refine ⟨hx, fun j hj m hm => (List.mem_append.1 hj).elim (fun hjl => ?_) fun hjx => ?_⟩
    · have hkm := (hleast j hjl m hm).1
      exact ⟨by bv_omega, fun hnm => by bv_omega⟩
    · rw [List.mem_singleton.1 hjx, hx] at hm
      exact ⟨Mark.record.inj hm ▸ BitVec.le_refl n, fun _ => (List.mem_singleton.1 hjx).ge⟩
  next hle =>
    refine ⟨hmark, fun j hj m hm => (List.mem_append.1 hj).elim (fun hjl => hleast j hjl m hm) fun hjx => ?_⟩
    rw [List.mem_singleton.1 hjx, hx] at hm
    exact ⟨Mark.record.inj hm ▸ BitVec.not_lt.1 hle, fun _ => (List.mem_singleton.1 hjx).symm ▸ hi⟩

end

/-- Over slots in rising order the walk finds the oldest. -/
theorem oldestIn_foldl (slots : Vector Slot 64) (l : List (Fin 64)) (hl : l.Pairwise (· < ·)) :
    OldestIn slots l (l.foldl (olderOf slots) none)
      ∧ ∀ i n, l.foldl (olderOf slots) none = some (i, n) → i ∈ l := by
  induction l using List.reverseRecOn with
  | nil => simp [OldestIn]
  | append_singleton l x ih =>
    obtain ⟨hsorted, -, hbelow⟩ := List.pairwise_append.1 hl
    obtain ⟨hold, hmem⟩ := ih hsorted
    rw [List.foldl_concat]
    by_cases hx : ∃ n, slots[x].mark = .record n
    · obtain ⟨n, hx⟩ := hx
      cases hacc : l.foldl (olderOf slots) none with
      | none =>
        rw [hacc] at hold
        rw [olderOf_first hx]
        exact ⟨hold.append_first hx, fun i m h => by cases h; simp⟩
      | some r =>
        obtain ⟨i, k⟩ := r
        have hi : i ∈ l := hmem i k hacc
        rw [hacc] at hold
        rw [olderOf_later hx]
        refine ⟨hold.append_later hx (hbelow i hi x (by simp)).le, fun j m h => ?_⟩
        split at h <;> cases h <;> simp [hi]
    · push Not at hx
      rw [olderOf_other _ hx]
      exact ⟨hold.append_other hx, fun i n h => List.mem_append_left _ (hmem i n h)⟩

theorem oldest_spec (slots : Vector Slot 64) : OldestIn slots (List.finRange 64) (oldest slots) := by
  rw [oldest_eq]
  exact (oldestIn_foldl slots _ (List.pairwise_lt_finRange 64)).1

theorem oldest_none {slots : Vector Slot 64} (h : ∀ (i : Fin 64) n, slots[i].mark ≠ .record n) : oldest slots = none := by
  have hspec := oldest_spec slots
  cases hold : oldest slots with
  | none => rfl
  | some r =>
    rw [hold] at hspec
    exact absurd hspec.1 (h r.1 r.2)

theorem oldest_some {slots : Vector Slot 64} {i : Fin 64} {n : Word32} (h : slots[i].mark = .record n)
    (hleast : ∀ (j : Fin 64) m, slots[j].mark = .record m → n ≤ m ∧ (n = m → i ≤ j)) : oldest slots = some (i, n) := by
  have hspec := oldest_spec slots
  cases hold : oldest slots with
  | none =>
    rw [hold] at hspec
    exact absurd h (hspec i (List.mem_finRange i) n)
  | some r =>
    obtain ⟨j, m⟩ := r
    rw [hold] at hspec
    obtain ⟨hj, hother⟩ := hspec
    obtain ⟨hmn, hji⟩ := hother i (List.mem_finRange i) n h
    obtain ⟨hnm, hij⟩ := hleast j m hj
    have hn : n = m := BitVec.le_antisymm hnm hmn
    rw [hn, le_antisymm (hij hn) (hji hn.symm)]

/-! ## Collection -/

theorem bufferWithout_eq (n : Word32) (b : Option RecordCopy) :
    bufferWithout n b = match b with
      | some c => if c.number = n then none else some c
      | none => none := by
  cases b with
  | none => rfl
  | some c => by_cases h : c.number = n <;> simp [bufferWithout, h]

/-- Settles O54: COLLECT and RELEASE are about the oldest record, READ RECORD WORD about the buffer. -/
theorem recordsCollected : Obligations.RecordsCollected := by
  unfold Obligations.RecordsCollected
  refine fun len hi lo s hr => ⟨fun w h => ⟨?_, ?_⟩, fun i n hmark hleast => ⟨?_, fun hne => ?_, fun heq => ?_⟩, fun h => ?_,
    fun b hb => ⟨fun h => ?_, fun h => ?_⟩⟩ <;> rw [exec]
  · exact request_replies hr (by simp) (by simp only [oldest_none h]; rfl)
  · exact request_replies hr (by simp) (by simp only [oldest_none h]; rfl)
  · exact request_replies hr (by simp) (by simp only [oldest_some hmark hleast]; rfl)
  · exact request_replies hr (by simp) (by simp only [oldest_some hmark hleast, join32]; exact if_neg hne)
  · exact request_replies hr (by simp)
      (by simp only [oldest_some hmark hleast, join32, bufferWithout_eq, markSlot, setSlot]; exact if_pos heq)
  · exact request_replies hr (by simp) (by simp only [h])
  · exact request_replies hr (by simp) (by simp only [hb, List.getElem?_eq_none h])
  · exact request_replies hr (by simp) (by simp only [hb, List.getElem?_eq_getElem h]; rfl)

/-! ## The image requests -/

theorem argImage_none {a : BitVec 8} (h : 199 < a.toNat) : argImage a = none := by
  rw [argImage, dif_neg (by omega)]

theorem argImage_some {a : BitVec 8} {i : Fin 200} (h : a.toNat = i.val) : argImage a = some i := by
  rw [argImage, dif_pos (by omega)]
  simp [h]

theorem queueImage_eq (v : Vector Word 200) (s : State) : queueImage v s = { s with
    rst := if s.rst.writer = .idle then { s.rst with writer := .image v } else { s.rst with waitImage := some v } } := by
  cases h : s.rst.writer <;> simp [queueImage, h, State.setRst]

/-- Settles O55: the checks of the image requests in their order, on a buffer that port F holds. -/
theorem imageRequests : Obligations.ImageRequests := by
  unfold Obligations.ImageRequests
  refine fun len arg w s hr => ⟨fun hcom => ⟨?_, ?_, ?_⟩, fun hcom hbusy => ⟨?_, ?_, ?_⟩,
    fun hcom hbusy v hv => ⟨fun harg => ⟨?_, ?_⟩, fun i harg => ⟨?_, ?_⟩, ?_⟩⟩ <;> rw [exec]
  · exact request_replies hr (by simp) (by simp [hcom, refuse])
  · exact request_replies hr (by simp) (by simp [hcom, refuse])
  · exact request_replies hr (by simp) (by simp [hcom, refuse])
  · exact request_replies hr (by simp) (by simp [hcom, hbusy])
  · exact request_replies hr (by simp) (by simp [hcom, hbusy, refuse])
  · exact request_replies hr (by simp) (by simp [hcom, hbusy, refuse])
  · exact request_replies hr (by simp) (by simp [hcom, hbusy, argImage_none harg])
  · exact request_replies hr (by simp) (by simp [hcom, hbusy, argImage_none harg, refuse])
  · exact request_replies hr (by simp) (by simp [hcom, hbusy, argImage_some harg, theImageBuffer, hv])
  · exact request_replies hr (by simp)
      (by simp [hcom, hbusy, argImage_some harg, theImageBuffer, hv, State.setImageBuffer])
  · exact request_replies hr (by simp) (by
      simp [hcom, hbusy, theImageBuffer, hv, queueImage_eq, State.setImageBuffer, sealImage, imageCrc])

end Sys2Proof.Machine
end

section
/-! PROOFS. The field ranges of the entry classes in numbers (R2, R4 to R14, R181). -/

namespace Sys2Proof.Machine

/-! ## Masks and fields -/

theorem field_and (a b : Word) (lo len : Nat) : field (a &&& b) lo len = field a lo len &&& field b lo len := by
  rw [field, field, field, BitVec.toNat_and, ← Nat.shiftRight_eq_div_pow, Nat.shiftRight_and_distrib, Nat.and_mod_two_pow,
    Nat.shiftRight_eq_div_pow, Nat.shiftRight_eq_div_pow]

/-- A mask of ones over a field keeps it. -/
theorem field_and_ones {w m : Word} {lo len : Nat} (h : field m lo len = 2 ^ len - 1) :
    field (w &&& m) lo len = field w lo len := by
  rw [field_and, h, Nat.and_two_pow_sub_one_eq_mod, field, Nat.mod_mod]

theorem field_and_zeros {w m : Word} {lo len : Nat} (h : field m lo len = 0) : field (w &&& m) lo len = 0 := by
  rw [field_and, h, Nat.and_zero]

theorem flag_and (a b : Word) (i : Nat) : flag (a &&& b) i = (flag a i && flag b i) := by simp [flag]

/-! ## The word of a heating mode (R11) -/

theorem burstOf_len (n : Nat) : (burstOf n).len = if n < 2 then 1 else if n < 4 then 2 else if n < 8 then 4 else 8 := by
  rw [burstOf]
  split
  next => rfl
  next => split
          next => rfl
          next => split <;> rfl

theorem burstOf_len_lt (n : Nat) : (burstOf n).len < 2 ^ 4 := by cases burstOf n <;> decide

/-- The fields of a clamped mode word: L, the order and sweep bits, the start zone and the dwell. -/
theorem clampMode_fields (w : Word) :
    field (clampMode w) 0 4 = (burstOf (field w 0 4)).len ∧ flag (clampMode w) 4 = flag w 4 ∧ flag (clampMode w) 5 = flag w 5
      ∧ field (clampMode w) 6 2 = 0 ∧ field (clampMode w) 8 4 = field w 8 4 % 8
      ∧ field (clampMode w) 12 3 = min 3 (field w 12 3) ∧ flag (clampMode w) 15 = false := by
  have hl : (burstOf (field w 0 4)).len < 2 ^ 4 := burstOf_len_lt _
  have hstart : field w 8 4 % 8 < 2 ^ 4 := by omega
  have hdwell : min 3 (field w 12 3) < 2 ^ 3 := by omega
  refine ⟨?_, ?_, ?_, ?_, ?_, ?_, ?_⟩ <;> simp only [clampMode, field_or, flag_or, flag_and]
  · rw [field_fieldAt hl (by decide), field_fieldAt_below hstart (by decide) (by decide),
      field_fieldAt_below hdwell (by decide) (by decide), field_and_zeros (by decide)]
    simp
  · rw [flag_fieldAt_above hl (by decide) (by decide), flag_fieldAt_below hstart (by decide) (by decide),
      flag_fieldAt_below hdwell (by decide) (by decide), show flag 0x0030 4 = true by decide]
    simp
  · rw [flag_fieldAt_above hl (by decide) (by decide), flag_fieldAt_below hstart (by decide) (by decide),
      flag_fieldAt_below hdwell (by decide) (by decide), show flag 0x0030 5 = true by decide]
    simp
  · rw [field_fieldAt_above hl (by decide) (by decide), field_fieldAt_below hstart (by decide) (by decide),
      field_fieldAt_below hdwell (by decide) (by decide), field_and_zeros (by decide)]
    simp
  · rw [field_fieldAt_above hl (by decide) (by decide), field_fieldAt hstart (by decide),
      field_fieldAt_below hdwell (by decide) (by decide), field_and_zeros (by decide)]
    simp
  · rw [field_fieldAt_above hl (by decide) (by decide), field_fieldAt_above hstart (by decide) (by decide),
      field_fieldAt hdwell (by decide), field_and_zeros (by decide)]
    simp
  · rw [flag_fieldAt_above hl (by decide) (by decide), flag_fieldAt_above hstart (by decide) (by decide),
      flag_fieldAt_above hdwell (by decide) (by decide), show flag 0x0030 15 = false by decide]
    simp

/-- The bits that a heating mode drops hold no field of it. -/
theorem modeWord_kept (w : Word) :
    field (w &&& 0x7F3F) 0 4 = field w 0 4 ∧ flag (w &&& 0x7F3F) 4 = flag w 4 ∧ flag (w &&& 0x7F3F) 5 = flag w 5
      ∧ field (w &&& 0x7F3F) 8 4 = field w 8 4 ∧ field (w &&& 0x7F3F) 12 3 = field w 12 3 :=
  ⟨field_and_ones (by decide), by rw [flag_and, show flag 0x7F3F 4 = true by decide, Bool.and_true],
    by rw [flag_and, show flag 0x7F3F 5 = true by decide, Bool.and_true], field_and_ones (by decide), field_and_ones (by decide)⟩

/-! ## The other words -/

theorem clampTarget_toInt (w : Word) : (clampTarget w).toInt = max (-200) (min 450 w.toInt) := by
  rw [clampTarget, BitVec.toInt_ofInt]
  simp [Int.bmod]
  omega

theorem clampWord_zero (hi : Nat) (w : Word) (h : hi < 65536) : (clampWord 0 hi w).toNat = min hi w.toNat := by
  rw [clampWord_toNat 0 hi w (Nat.zero_le _) h, Nat.zero_max]

/-- Settles O9: class by class, each word of the entry as the clamp of that class leaves it. -/
theorem fieldRanges : Obligations.FieldRanges := by
  unfold Obligations.FieldRanges
  refine fun threePhases n e => ⟨rfl, rangeStep_inRange _ n e (pHw_lt threePhases), rfl, fun h => ?_, fun h => ?_, fun h => ?_,
    fun h => ?_, fun h => ?_, fun h => ?_, fun h => ?_, fun h h' => ?_, fun h h' => ?_, fun h => ?_⟩
  · have hc : classOf n = .policy := by simp [classOf, h]
    simp only [rangeStep, hc, dropUnused, clampFields]
    exact ⟨trivial, clampWord_toNat 1 3 _ (by decide) (by decide), clampWord_zero _ _ (by decide), clampWord_zero _ _ (by decide)⟩
  · have hc : classOf n = .supply := by simp [classOf, h]
    simp only [rangeStep, hc, dropUnused, clampFields]
    exact ⟨trivial, clampWord_zero _ _ (pHw_lt threePhases), clampWord_toNat _ _ _ (by decide) (by decide),
      clampWord_toNat _ _ _ (by decide) (by decide)⟩
  · have hc : classOf n = .vehicle := by simp [classOf, h]
    simp only [rangeStep, hc, dropUnused, clampFields]
    exact ⟨trivial, clampWord_zero _ _ (by decide), trivial, trivial⟩
  · have hc : classOf n = .acceptance := by simp [classOf, h]
    simp only [rangeStep, hc, dropUnused, clampFields]
    exact ⟨trivial, clampWord_zero _ _ (by decide), clampWord_zero _ _ (by decide), trivial⟩
  · have hc : classOf n = .packHeating := by simp [classOf, h]
    simp only [rangeStep, hc, dropUnused, clampFields]
    exact ⟨trivial, clampWord_zero _ _ (by decide), clampWord_toNat _ _ _ (by decide) (by decide), trivial⟩
  · have hc : classOf n = .isolation := by simp [classOf, h]
    simp only [rangeStep, hc, dropUnused, clampFields]
    have hw : (word (clampTo 100 5000 e.w0.toNat)).toNat = max 100 (min 5000 e.w0.toNat) :=
      clampWord_toNat 100 5000 _ (by decide) (by decide)
    refine ⟨trivial, hw, ?_, clampWord_toNat _ _ _ (by decide) (by decide)⟩
    rw [hw]
    exact clampWord_toNat 50 _ _ (by simp only [clampTo]; omega) (by simp only [clampTo]; omega)
  · have hc : classOf n = .heatingMode := by simp [classOf, h]
    simp only [rangeStep, hc, dropUnused, clampFields]
    obtain ⟨hl, horder, hsweep, hgap, hstart, hdwell, htop⟩ := clampMode_fields (e.w0 &&& 0x7F3F)
    obtain ⟨kl, korder, ksweep, kstart, kdwell⟩ := modeWord_kept e.w0
    rw [kl, burstOf_len] at hl
    rw [korder] at horder
    rw [ksweep] at hsweep
    rw [kstart] at hstart
    rw [kdwell] at hdwell
    exact ⟨trivial, hl, horder, hsweep, hgap, hstart, hdwell, htop, trivial, trivial⟩
  · have hc : classOf n = .zone := by
      rw [classOf, if_neg (by omega), if_neg (by omega), if_neg (by omega), if_neg (by omega), if_neg (by omega),
        if_neg (by omega), if_neg (by omega), if_pos h']
    simp only [rangeStep, hc, dropUnused, clampFields]
    exact ⟨trivial, clampTarget_toInt _, clampWord_toNat _ _ _ (by decide) (by decide), clampWord_zero _ _ (by decide)⟩
  · have hc : classOf n = .schedule := by
      rw [classOf, if_neg (by omega), if_neg (by omega), if_neg (by omega), if_neg (by omega), if_neg (by omega),
        if_neg (by omega), if_neg (by omega), if_neg (by omega), if_pos h']
    simp only [rangeStep, hc, dropUnused, clampFields]
    exact ⟨trivial, clampWord_zero _ _ (by decide), clampWord_zero _ _ (by decide), trivial⟩
  · have hc : classOf n = .price := by
      rw [classOf, if_neg (by omega), if_neg (by omega), if_neg (by omega), if_neg (by omega), if_neg (by omega),
        if_neg (by omega), if_neg (by omega), if_neg (by omega), if_neg (by omega)]
    simp only [rangeStep, hc, dropUnused, clampFields]
    exact ⟨trivial, trivial⟩

end Sys2Proof.Machine
end

section
/-! PROOFS. READ WORD, WRITE WORD and the commit of a plan entry (R1, R2, R165, R166). -/

namespace Sys2Proof.Machine

/-! ## READ WORD -/

section
variable {p : PortId} {len : Nat} {w : Word} {s : State}

theorem advanceRead_within (h : (s.port p).sub ≠ 2) : advanceRead s p = { s.port p with sub := (s.port p).sub + 1 } := by
  simp [advanceRead, h, nextSub]

theorem advanceRead_past (h : (s.port p).sub = 2) : advanceRead s p = takeSnapshot s p ((s.port p).pointer + 1)
    { s.port p with sub := 0, pointer := (s.port p).pointer + 1 } := by
  simp [advanceRead, h]

theorem exec_readWord_sequence (hr : Ready p s) (h : (s.port p).direction ≠ .read ∨ (s.port p).snapshot = .none) :
    exec (.readWord ⟨p, len⟩) s = .next (answer p len .sequence [0] s s) := by
  rw [exec]
  refine request_replies hr (mem_anyPort p) ?_
  dsimp only
  split
  next hd hs => exact absurd hd (h.resolve_right (by simp [hs]))
  next hd hs => exact absurd hd (h.resolve_right (by simp [hs]))
  next => rfl

theorem exec_readWord (hr : Ready p s) (hd : (s.port p).direction = .read) (hs : (s.port p).snapshot ≠ .none) :
    exec (.readWord ⟨p, len⟩) s = .next (answer p len (if (s.port p).snapshot = .mapped then .ok else .outOfWindow)
      [if (s.port p).snapshot = .mapped then (s.port p).holding.word (s.port p).sub else 0] s
      (s.setPort p (advanceRead s p))) := by
  rw [exec]
  refine request_replies hr (mem_anyPort p) ?_
  cases hsnap : (s.port p).snapshot with
  | none => exact absurd hsnap hs
  | mapped => simp [hd, hsnap]
  | unmapped => simp [hd, hsnap]

/-! ## WRITE WORD -/

theorem exec_writeWord_sequence (hr : Ready p s) (h : (s.port p).direction ≠ .write) :
    exec (.writeWord ⟨p, len⟩ w) s = .next (answer p len .sequence [] s s) := by
  rw [exec]
  refine request_replies hr (mem_anyPort p) ?_
  dsimp only
  split
  next hd => exact absurd hd h
  next => rfl

theorem exec_writeWord_staged (hr : Ready p s) (hd : (s.port p).direction = .write) (hsub : (s.port p).sub ≠ 2) :
    exec (.writeWord ⟨p, len⟩ w) s = .next (answer p len .ok [] s (s.setPort p { s.port p with
      staging := (s.port p).staging.setWord (s.port p).sub w
      staged := (s.port p).staged + 1
      sub := (s.port p).sub + 1 })) := by
  rw [exec]
  exact request_replies hr (mem_anyPort p) (by simp [hd, hsub, nextSub])

theorem exec_writeWord_third (hr : Ready p s) (hd : (s.port p).direction = .write) (hsub : (s.port p).sub = 2)
    {t : State} {st : Status} (ht : present p ((s.port p).staging.setWord 2 w) s = (t, st)) :
    exec (.writeWord ⟨p, len⟩ w) s = .next (answer p len st [] s (t.setPort p (t.port p).nextEntry)) := by
  rw [exec]
  exact request_replies hr (mem_anyPort p) (by simp [hd, hsub, ht])

end

/-! ## The staged entry presented for commit (R2, R166) -/

theorem mirrorsOnly_iff (s : State) (p : PortId) : mirrorsOnly s p = true ↔ s.commission = true ∧ p ≠ .F := by
  simp [mirrorsOnly]

theorem holdsLock_iff (s : State) (p : PortId) : holdsLock s p = true ↔ p = .F ∧ s.mtr.lockHeld = true := by
  simp [holdsLock]

section
variable {p : PortId} {s : State} {e : Entry} {win : Window}

theorem present_unmapped (h : mapWindow (s.port p) (s.port p).pointer = none) : present p e s = (s, .outOfWindow) := by
  cases hm : mirrorsOnly s p <;> simp [present, hm, h]

theorem present_mirrorsOnly (h : s.commission = true ∧ p ≠ .F) : present p e s = (s, .outOfWindow) := by
  simp [present, (mirrorsOnly_iff s p).2 h]

theorem present_readOnly (hmap : mapWindow (s.port p) (s.port p).pointer = some win)
    (hall : ¬ (s.commission = true ∧ p ≠ .F)) (h : win.protect = true ∨ 53 ≤ (win.entryOf (s.port p).pointer).toNat) :
    present p e s = (s, .readOnly) := by
  have hm : mirrorsOnly s p = false := by simpa [← mirrorsOnly_iff] using hall
  rw [present, hm]
  simp only [Bool.false_eq_true, if_false, hmap]
  split
  next hlt => rw [if_pos (h.resolve_right (by omega))]
  next => rfl

theorem present_commit {n : Fin 53} (hmap : mapWindow (s.port p) (s.port p).pointer = some win)
    (hall : ¬ (s.commission = true ∧ p ≠ .F)) (hprotect : win.protect = false)
    (hn : (win.entryOf (s.port p).pointer).toNat = n.val) : present p e s = commit p n e s := by
  have hm : mirrorsOnly s p = false := by simpa [← mirrorsOnly_iff] using hall
  rw [present, hm]
  simp only [Bool.false_eq_true, if_false, hmap]
  rw [dif_pos (by omega), if_neg (by simp [hprotect])]
  simp [hn]

theorem commit_refused {n : Fin 53} (h : 17 ≤ n.val) (hlock : ¬ (p = .F ∧ s.mtr.lockHeld = true)) :
    commit p n e s = (s, .lockRequired) := by
  have hl : holdsLock s p = false := by simpa [← holdsLock_iff] using hlock
  rw [commit, if_pos (by simp [isTariff, h, hl])]

theorem commit_stored {n : Fin 53} (h : 17 ≤ n.val → p = .F ∧ s.mtr.lockHeld = true) :
    commit p n e s = (afterCommit n (storeEntry n e s), rangeStatus (Config.pHw s.threePhases) n e) := by
  rw [commit, if_neg]
  by_cases hn : 17 ≤ n.val
  · simp [isTariff, hn, (holdsLock_iff s p).2 (h hn)]
  · simp [isTariff, hn]

end

/-- Settles O7: a snapshot word is returned as held, a staged word as sent, and the refusals of a third word are those of `present`. -/
theorem wordsReadAndStaged : Obligations.WordsReadAndStaged := by
  unfold Obligations.WordsReadAndStaged
  refine ⟨fun p len s hr => ⟨exec_readWord_sequence hr, fun hd hs => ⟨advanceRead s p, exec_readWord hr hd hs,
    advanceRead_within, fun hsub => ?_⟩⟩, fun p len w s hr => ⟨exec_writeWord_sequence hr, exec_writeWord_staged hr⟩,
    fun p len w s hr hd hsub st hst => exec_writeWord_third (t := s) hr hd hsub ?_⟩
  · rw [advanceRead_past hsub]
    split
    next n hn => rw [takeSnapshot_mapped _ hn]
    next hn => rw [takeSnapshot_unmapped _ hn]; rfl
  · split at hst
    next hmap => rw [present_unmapped hmap, hst]
    next win hmap =>
      split at hst
      next hall => rw [present_mirrorsOnly hall, hst]
      next hall =>
        split at hst
        next hro => rw [present_readOnly hmap hall hro, hst]
        next hro =>
          obtain ⟨htariff, hlock, rfl⟩ := hst
          push Not at hro
          obtain ⟨hprotect, hn⟩ := hro
          rw [present_commit (n := ⟨_, hn⟩) hmap hall (by simpa using hprotect) rfl, commit_refused htariff hlock]

end Sys2Proof.Machine
end

section
/-! PROOFS. What a stored commit sets going (R8, R11, R27, R95). -/

namespace Sys2Proof.Machine

/-! ## The heating mode (R11, R95) -/

/-- The heater with a heating mode waiting. -/
def Htr.awaiting (h : Htr) (m : HeatingMode) : Htr := { h with pendingMode := some m }

theorem commitHeatingMode_eq (s : State) :
    commitHeatingMode s = evalDemand (applyPending (s.setHtr (s.htr.awaiting (heatingModeOf (s.entry 8))))) := by
  have hsame : switchMap s.htr = switchMap (s.setHtr (s.htr.awaiting (heatingModeOf (s.entry 8)))).htr := rfl
  exact congrArg (fun t => evalDemand (applyPending t)) (if_pos hsame)

theorem applyPending_hot {s : State} (h : anyHot s.htr = true) : applyPending s = s := by
  rw [applyPending]
  split
  next => rfl
  next => rw [if_pos h]

theorem applyPending_awaiting (m : HeatingMode) {s : State} (h : anyHot s.htr = false) :
    applyPending (s.setHtr (s.htr.awaiting m)) =
      raise .planApplied (s.setHtr { s.htr with mode := m, pendingMode := none, p := 0, s := m.start }) := by
  have hcold : ¬ anyHot (s.setHtr (s.htr.awaiting m)).htr = true := ne_true_of_eq_false h
  exact if_neg hcold

theorem commitHeatingMode_kept (s : State) : (commitHeatingMode s).alc = s.alc ∧ (commitHeatingMode s).iso = s.iso := by
  rw [commitHeatingMode_eq]
  simp

theorem commitHeatingMode_hot {s : State} (h : anyHot s.htr = true) :
    (commitHeatingMode s).htr = s.htr.awaiting (heatingModeOf (s.entry 8)) := by
  have hhot : anyHot (s.setHtr (s.htr.awaiting (heatingModeOf (s.entry 8)))).htr = true := h
  rw [commitHeatingMode_eq, applyPending_hot hhot]
  simp

theorem commitHeatingMode_cold {s : State} (h : anyHot s.htr = false) :
    (commitHeatingMode s).htr = { s.htr with
      mode := heatingModeOf (s.entry 8), pendingMode := none, p := 0, s := (heatingModeOf (s.entry 8)).start }
      ∧ ToldAll .planApplied s (commitHeatingMode s) := by
  rw [commitHeatingMode_eq, applyPending_awaiting _ h]
  refine ⟨by simp, fun p hp => ?_⟩
  simpa using raise_toldAll .planApplied (s.setHtr { s.htr with
    mode := heatingModeOf (s.entry 8), pendingMode := none, p := 0, s := (heatingModeOf (s.entry 8)).start }) p (by simpa using hp)

/-! ## The entries that set nothing going, or only a block's timer -/

theorem afterCommit_heatingMode (s : State) : afterCommit 8 s = commitHeatingMode s := by
  simp [afterCommit]

theorem afterCommit_quiet {n : Fin 53} (s : State) (h4 : n.val ≠ 4) (h8 : n.val ≠ 8) :
    (afterCommit n s).sup = s.sup ∧ (afterCommit n s).htr = s.htr ∧ ∀ q, (afterCommit n s).port q = s.port q := by
  rw [afterCommit, if_neg fun h => h4 (by rw [h]; rfl)]
  split
  next => unfold renewAcceptance; split <;> simp
  next => simp [show n ≠ 8 from fun h => h8 (by rw [h]; rfl)]

theorem afterCommit_supply (s : State) : afterCommit 4 s = evalDemand s := by simp [afterCommit]

theorem afterCommit_alc (n : Fin 53) (s : State) : (afterCommit n s).alc =
    if n.val = 5 ∧ s.alc.record.mode = .charge then { s.alc with fresh := true, freshTimer := .running 2000 } else s.alc := by
  by_cases h5 : n = 5
  · subst h5
    by_cases hm : s.alc.record.mode = .charge <;> simp [afterCommit, renewAcceptance, hm, Config.freshnessMs]
  · rw [if_neg fun h => h5 (Fin.ext h.1), afterCommit, if_neg h5]
    split
    next => simp
    next => split
            next => exact (commitHeatingMode_kept s).1
            next => rfl

theorem afterCommit_iso (n : Fin 53) (s : State) : (afterCommit n s).iso = s.iso := by
  unfold afterCommit renewAcceptance
  split
  next => simp
  next => split
          next => split <;> simp
          next => split
                  next => exact (commitHeatingMode_kept s).2
                  next => rfl

/-- Settles O8: what the plan, the port and the blocks hold behind a third word that is stored. -/
theorem commitStoresEntry : Obligations.CommitStoresEntry := by
  unfold Obligations.CommitStoresEntry
  intro p len w s win n hr hd hsub hmap hprotect hn hcom hlock e stored
  have hall : ¬ (s.commission = true ∧ p ≠ .F) := fun h => h.2 (hcom h.1)
  have hpresent : present p e s = (afterCommit n (storeEntry n e s), rangeStatus (Config.pHw s.threePhases) n e) :=
    (present_commit hmap hall hprotect hn).trans (commit_stored hlock)
  have hgrows : Grows s (afterCommit n (storeEntry n e s)) :=
    (Grows.of_eq fun q => (by simp : (storeEntry n e s).port q = s.port q)).trans (afterCommit_grows n _)
  have hport : ((afterCommit n (storeEntry n e s)).port p).pointer = (s.port p).pointer := by rw [(hgrows p).1]
  have hentry : (storeEntry n e s).plan = s.plan.set n stored := rfl
  refine ⟨_, exec_writeWord_third hr hd hsub hpresent, by simp [hentry], by simp [rangeStatus, stored, e],
    by simp [PortState.nextEntry, hport], by simp [PortState.nextEntry], by simp [PortState.nextEntry],
    by simp [PortState.nextEntry, Entry.zero], by simp, by simp, by simp, by simp, by simp [RestKept],
    fun h8 => ?_, by simp [afterCommit_iso], fun h4 h8 => ?_, fun h4 => ?_, ?_, fun h8 => ?_⟩
  · by_cases h4 : n.val = 4
    · obtain rfl : n = 4 := Fin.ext h4
      rw [afterCommit_supply]
      exact ⟨by simp, fun q hq => by rw [answer_port_other hq, State.setPort_port_ne _ _ hq]; simp⟩
    · obtain ⟨-, hhtr, hports⟩ := afterCommit_quiet (storeEntry n e s) h4 h8
      exact ⟨by simp [hhtr], fun q hq => by rw [answer_port_other hq, State.setPort_port_ne _ _ hq, hports]; simp⟩
  · simp [(afterCommit_quiet (storeEntry n e s) h4 h8).1]
  · obtain rfl : n = 4 := Fin.ext h4
    rw [afterCommit_supply]
    simp [storeEntry, stored]
  · simp [afterCommit_alc]
  · obtain rfl : n = 8 := Fin.ext h8
    have hmode : (storeEntry 8 e s).entry 8 = stored := by simp [storeEntry, State.entry, stored, e]
    rw [afterCommit_heatingMode] at hgrows ⊢
    refine ⟨by simp, by simp, ?_⟩
    cases hhot : anyHot s.htr with
    | true => simp [commitHeatingMode_hot (s := storeEntry 8 e s) (by simpa using hhot), hmode, Htr.awaiting]
    | false =>
      obtain ⟨hhtr, htold⟩ := commitHeatingMode_cold (s := storeEntry 8 e s) (by simpa using hhot)
      refine .inr ⟨rfl, by simp [hhtr], by simp [hhtr, hmode], by simp [hhtr], by simp [hhtr, hmode], fun q hq => ?_⟩
      have hraised : Told .planApplied ((commitHeatingMode (storeEntry 8 e s)).port q) := htold q (by simpa using hq)
      rw [answer_told]
      by_cases hqp : q = p
      · subst hqp
        simpa [Told, PortState.holds, PortState.nextEntry] using hraised
      · rwa [State.setPort_port_ne _ _ hqp]

end Sys2Proof.Machine
end

section
/-! PROOFS. What a local number reads as: windows (R167, R170), plan entries and mirrors (R15, Table 12-4). -/

namespace Sys2Proof.Machine

/-! ## Windows -/

theorem Window.contains_iff (w : Window) (k : BitVec 6) :
    w.contains k = true ↔ w.enable = true ∧ w.start.toNat ≤ k.toNat ∧ k.toNat ≤ w.stop.toNat := by
  simp [Window.contains, BitVec.le_def, and_assoc]

theorem mapWindow_eq_some (pt : PortState) (k : BitVec 6) (w : Window) :
    mapWindow pt k = some w ↔ ∃ i : Fin 4, pt.windows[i] = w ∧ w.contains k = true
      ∧ ∀ j : Fin 4, j < i → ¬ pt.windows[j].contains k = true := by
  rw [mapWindow, List.find?_eq_some_iff_getElem]
  constructor
  · rintro ⟨hw, i, hi, hget, hfirst⟩
    have hi4 : i < 4 := by simpa using hi
    exact ⟨⟨i, hi4⟩, by simpa using hget, hw, fun j hj => by simpa using hfirst j hj⟩
  · rintro ⟨i, hget, hw, hfirst⟩
    refine ⟨hw, i.val, by simp, by simpa using hget, fun j hj => ?_⟩
    have hj4 : j < 4 := by omega
    simpa using hfirst ⟨j, hj4⟩ hj

theorem Window.entryOf_toNat (w : Window) (k : BitVec 6) : (w.entryOf k).toNat = (k.toNat + w.offset.toNat) % 64 := by
  rw [Window.entryOf, BitVec.toNat_add]

theorem readable_eq_some (s : State) (p : PortId) (k n : BitVec 6) :
    readable s p k = some n ↔ ∃ w, mapWindow (s.port p) k = some w ∧ n = w.entryOf k
      ∧ (s.commission = true ∧ p ≠ .F → 53 ≤ n.toNat) := by
  rw [readable]
  split
  next hm => simp [hm]
  next w hm =>
    simp only [hm, Option.some.injEq, exists_eq_left', Bool.and_eq_true, mirrorsOnly_iff, decide_eq_true_eq]
    split
    next hcut => exact ⟨nofun, fun ⟨hn, hall⟩ => absurd (hall hcut.1) (by rw [hn]; omega)⟩
    next hcut =>
      rw [Option.some.injEq]
      exact ⟨fun hn => ⟨hn.symm, fun hall => hn ▸ not_lt.1 fun hlt => hcut ⟨hall, hlt⟩⟩, fun ⟨hn, _⟩ => hn.symm⟩

theorem readable_iff (s : State) (p : PortId) (k n : BitVec 6) : readable s p k = some n ↔
    ∃ i : Fin 4, (s.port p).windows[i].contains k = true ∧ (∀ j : Fin 4, j < i → ¬ (s.port p).windows[j].contains k = true)
      ∧ n.toNat = (k.toNat + (s.port p).windows[i].offset.toNat) % 64 ∧ (s.commission = true ∧ p ≠ .F → 53 ≤ n.toNat) := by
  rw [readable_eq_some]
  constructor
  · rintro ⟨w, hw, hn, hall⟩
    obtain ⟨i, rfl, hc, hfirst⟩ := (mapWindow_eq_some _ _ _).1 hw
    exact ⟨i, hc, hfirst, by rw [hn, Window.entryOf_toNat], hall⟩
  · rintro ⟨i, hc, hfirst, hn, hall⟩
    exact ⟨_, (mapWindow_eq_some _ _ _).2 ⟨i, rfl, hc, hfirst⟩,
      BitVec.eq_of_toNat_eq (by rw [hn, Window.entryOf_toNat]), hall⟩

/-! ## Words and fields -/

theorem word_toNat {n : Nat} (h : n ≤ 65535) : (word n).toNat = n := by
  rw [word, BitVec.toNat_ofNat, Nat.mod_eq_of_lt (by omega)]

theorem word_eq_fieldAt (n : Nat) : word n = fieldAt n 0 := by simp [word, fieldAt]

/-- Nothing of a number stands below its field, however large it is. -/
theorem field_fieldAt_under (n : Nat) {i lo l : Nat} (hi : i ≤ 16) (h : lo + l ≤ i) : field (fieldAt n i) lo l = 0 := by
  have hwrap : fieldAt n i = fieldAt (n % 2 ^ (16 - i)) i := by
    apply BitVec.eq_of_toNat_eq
    have hpow : (2 : Nat) ^ 16 = 2 ^ (16 - i) * 2 ^ i := by rw [← Nat.pow_add]; congr 1; omega
    rw [fieldAt, fieldAt, BitVec.toNat_ofNat, BitVec.toNat_ofNat, hpow, Nat.mul_mod_mul_right, Nat.mul_mod_mul_right, Nat.mod_mod]
  rw [hwrap]
  exact field_fieldAt_below (len := 16 - i) (Nat.mod_lt _ (Nat.two_pow_pos _)) (by omega) h

theorem field_flagAt_other {b : Bool} {i lo l : Nat} (hi : i < 16) (h : lo + l ≤ i ∨ i + 1 ≤ lo) :
    field (flagAt b i) lo l = 0 := by
  have hb : b.toNat < 2 ^ 1 := by cases b <;> decide
  rw [flagAt_eq_fieldAt]
  exact h.elim (field_fieldAt_below hb (by omega)) (field_fieldAt_above hb (by omega))

theorem field_loWord (n : Word32) : field (loWord n) 0 16 = n.toNat % 65536 := by
  simp [field, loWord]

/-! ## Codes -/

theorem Pilot.code_lt (x : Pilot) : x.code < 2 ^ 2 := by cases x <;> decide
theorem Grade.code_lt (x : Grade) : x.code < 2 ^ 2 := by cases x <;> decide
theorem Localization.code_lt (x : Localization) : x.code < 2 ^ 3 := by cases x <;> simp [Localization.code]
theorem Plug.code_lt (x : Plug) : x.code < 2 ^ 2 := by cases x <;> decide
theorem SessionState.code_lt (x : SessionState) : x.code < 2 ^ 2 := by cases x <;> decide

theorem Localization.zoneCode_lt (x : Localization) : x.zoneCode < 2 ^ 3 := by
  cases x <;> simp [Localization.zoneCode]

theorem ZoneState.code_lt (x : ZoneState) : x.code < 2 ^ 4 := by
  cases x with
  | faulted k => cases k <;> decide
  | _ => simp [ZoneState.code]

/-! ## The mirrors' words -/

theorem readEntry_stored (s : State) (n : Fin 53) : s.readEntry (BitVec.ofNat 6 n.val) = s.plan[n] := by
  have hn : (BitVec.ofNat 6 n.val).toNat = n.val := by simp; omega
  rw [State.readEntry, dif_pos (by omega)]
  simp [State.entry, hn]

theorem readEntry_mirror (s : State) {n k : Nat} (hk : k ≤ 10) (hn : n = 53 + k) :
    s.readEntry (BitVec.ofNat 6 n) = mirror s k := by
  have hnat : (BitVec.ofNat 6 n).toNat = n := by simp; omega
  rw [State.readEntry, dif_neg (by omega), hnat, hn, Nat.add_sub_cancel_left]

theorem flag_energized (l : List (Fin 8)) (w : Word) (z : Fin 8) :
    flag (l.foldl (fun w z => w ||| (1#16 <<< z.val)) w) z.val = (flag w z.val || decide (z ∈ l)) := by
  induction l generalizing w with
  | nil => simp
  | cons y l ih =>
    have hbit : flag (1#16 <<< y.val) z.val = decide (z = y) := by
      have h := flag_flagAt (i := y.val) (j := z.val) true (by omega)
      rw [flagAt, if_pos rfl] at h
      rw [h]
      simp [Fin.ext_iff, eq_comm]
    rw [List.foldl_cons, ih, flag_or, hbit, Bool.or_assoc]
    simp [List.mem_cons]

/-- The four zone states of a word, each in its four bits. -/
theorem zoneNibbles_field (s : State) (a b c d : Fin 8) :
    field (zoneNibbles s a b c d) 0 4 = (s.zone a).state.code ∧ field (zoneNibbles s a b c d) 4 4 = (s.zone b).state.code
      ∧ field (zoneNibbles s a b c d) 8 4 = (s.zone c).state.code
      ∧ field (zoneNibbles s a b c d) 12 4 = (s.zone d).state.code := by
  have ha := (s.zone a).state.code_lt
  have hb := (s.zone b).state.code_lt
  have hc := (s.zone c).state.code_lt
  have hd := (s.zone d).state.code_lt
  refine ⟨?_, ?_, ?_, ?_⟩ <;> simp only [zoneNibbles, field_or]
  · rw [field_fieldAt ha (by decide), field_fieldAt_below hb (by decide) (by decide),
      field_fieldAt_below hc (by decide) (by decide), field_fieldAt_below hd (by decide) (by decide)]
    simp
  · rw [field_fieldAt_above ha (by decide) (by decide), field_fieldAt hb (by decide),
      field_fieldAt_below hc (by decide) (by decide), field_fieldAt_below hd (by decide) (by decide)]
    simp
  · rw [field_fieldAt_above ha (by decide) (by decide), field_fieldAt_above hb (by decide) (by decide),
      field_fieldAt hc (by decide), field_fieldAt_below hd (by decide) (by decide)]
    simp
  · rw [field_fieldAt_above ha (by decide) (by decide), field_fieldAt_above hb (by decide) (by decide),
      field_fieldAt_above hc (by decide) (by decide), field_fieldAt hd (by decide)]
    simp

theorem mirror53_fields (s : State) :
    (mirror s 0).w0 = word s.sup.iPil ∧ (mirror s 0).w2 = word s.sup.uMin ∧ field (mirror s 0).w1 0 2 = s.sup.pilot.code
      ∧ (s.sup.nPh ≤ 3 → field (mirror s 0).w1 4 2 = s.sup.nPh) := by
  have hp := s.sup.pilot.code_lt
  refine ⟨rfl, rfl, ?_, fun h => ?_⟩ <;> simp only [mirror, field_or]
  · rw [field_fieldAt hp (by decide), field_fieldAt_under _ (by decide) (by decide), Nat.or_zero]
  · rw [field_fieldAt_above hp (by decide) (by decide), field_fieldAt (by omega) (by decide), Nat.zero_or]

theorem mirror57_fields (s : State) :
    (mirror s 4).w0 = (match s.iso.latest with | none => 0 | some r => word r.perVolt)
      ∧ field (mirror s 4).w1 0 2 = s.iso.grade.code ∧ flag (mirror s 4).w1 2 = s.iso.lockout
      ∧ field (mirror s 4).w1 4 3 = s.iso.localization.code ∧ field (mirror s 4).w1 8 3 = s.iso.localization.zoneCode
      ∧ (s.iso.age ≤ 6553500 → (mirror s 4).w2.toNat = s.iso.age / 100) := by
  have hg := s.iso.grade.code_lt
  have hl := s.iso.localization.code_lt
  have hz := s.iso.localization.zoneCode_lt
  refine ⟨?_, ?_, ?_, ?_, ?_, fun h => word_toNat (by rw [ageSeconds]; omega)⟩ <;> simp only [mirror, field_or, flag_or]
  · cases s.iso.latest <;> rfl
  · rw [field_fieldAt hg (by decide), field_flagAt_other (by decide) (by decide),
      field_fieldAt_below hl (by decide) (by decide), field_fieldAt_below hz (by decide) (by decide)]
    simp
  · rw [flag_fieldAt_above hg (by decide) (by decide), flag_flagAt _ (by decide),
      flag_fieldAt_below hl (by decide) (by decide), flag_fieldAt_below hz (by decide) (by decide)]
    simp
  · rw [field_fieldAt_above hg (by decide) (by decide), field_flagAt_other (by decide) (by decide),
      field_fieldAt hl (by decide), field_fieldAt_below hz (by decide) (by decide)]
    simp
  · rw [field_fieldAt_above hg (by decide) (by decide), field_flagAt_other (by decide) (by decide),
      field_fieldAt_above hl (by decide) (by decide), field_fieldAt hz (by decide)]
    simp

theorem tempWord_eq (t : Option Int) : tempWord t = match t with | none => 0x8000 | some v => BitVec.ofInt 16 v := by
  cases t <;> rfl

theorem ZoneState.code_eq (x : ZoneState) : x.code = match x with
    | .unchecked => 0 | .checking => 1 | .off => 2 | .energized => 3 | .dwell _ => 4 | .probed _ => 5
    | .faulted .open => 8 | .faulted .short => 9 | .faulted .unstable => 10 | .faulted .overtemp => 11
    | .faulted .leak => 12 := by
  cases x with
  | faulted k => cases k <;> rfl
  | _ => rfl

/-- The nine words of mirrors 58 to 60 hold the zones' temperatures in the zones' order. -/
theorem zoneTemps (s : State) (z : Fin 8) : (match z.val % 3 with
    | 0 => (s.readEntry (BitVec.ofNat 6 (58 + z.val / 3))).w0
    | 1 => (s.readEntry (BitVec.ofNat 6 (58 + z.val / 3))).w1
    | _ => (s.readEntry (BitVec.ofNat 6 (58 + z.val / 3))).w2) =
    match (s.zone z).temp with | none => 0x8000 | some v => BitVec.ofInt 16 v := by
  have e58 : s.readEntry (BitVec.ofNat 6 58) = mirror s 5 := readEntry_mirror s (by decide) rfl
  have e59 : s.readEntry (BitVec.ofNat 6 59) = mirror s 6 := readEntry_mirror s (by decide) rfl
  have e60 : s.readEntry (BitVec.ofNat 6 60) = mirror s 7 := readEntry_mirror s (by decide) rfl
  rw [← tempWord_eq]
  fin_cases z
  · exact congrArg Entry.w0 e58
  · exact congrArg Entry.w1 e58
  · exact congrArg Entry.w2 e58
  · exact congrArg Entry.w0 e59
  · exact congrArg Entry.w1 e59
  · exact congrArg Entry.w2 e59
  · exact congrArg Entry.w0 e60
  · exact congrArg Entry.w1 e60

theorem zoneStates (s : State) (z : Fin 8) :
    field (if z.val < 4 then (mirror s 8).w0 else (mirror s 8).w1) (4 * (z.val % 4)) 4 = (s.zone z).state.code := by
  obtain ⟨h0, h1, h2, h3⟩ := zoneNibbles_field s 0 1 2 3
  obtain ⟨h4, h5, h6, h7⟩ := zoneNibbles_field s 4 5 6 7
  fin_cases z
  · exact h0
  · exact h1
  · exact h2
  · exact h3
  · exact h4
  · exact h5
  · exact h6
  · exact h7

theorem uncollected_eq (slots : Vector Slot 64) :
    uncollected slots = (List.finRange 64).countP fun i => match slots[i].mark with | .record _ => true | _ => false := by
  have hlist : slots.toList = (List.finRange 64).map fun i => slots[i] := by
    apply List.ext_getElem <;> simp
  rw [uncollected, hlist, List.countP_map]
  refine List.countP_congr fun i _ => ?_
  rw [Function.comp_apply]
  cases slots[i].mark <;> rfl

theorem uncollected_le (slots : Vector Slot 64) : uncollected slots ≤ 64 := by
  have h := List.countP_le_length (p := fun x : Slot => x.mark.isRecord) (l := slots.toList)
  simpa [uncollected] using h

theorem mirror62_fields (s : State) :
    field (mirror s 9).w1 0 16 = s.ses.number.toNat % 65536 ∧ field (mirror s 9).w0 0 2 = s.ses.plug.code
      ∧ field (mirror s 9).w0 4 2 = s.ses.session.code ∧ flag (mirror s 9).w0 15 = s.ses.imageFault
      ∧ (mirror s 9).w2.toNat = uncollected s.nv.slots := by
  have hp := s.ses.plug.code_lt
  have hs := s.ses.session.code_lt
  refine ⟨field_loWord _, ?_, ?_, ?_, word_toNat (le_trans (uncollected_le _) (by decide))⟩ <;>
    simp only [mirror, field_or, flag_or]
  · rw [field_fieldAt hp (by decide), field_fieldAt_below hs (by decide) (by decide), field_flagAt_other (by decide) (by decide)]
    simp
  · rw [field_fieldAt_above hp (by decide) (by decide), field_fieldAt hs (by decide), field_flagAt_other (by decide) (by decide)]
    simp
  · rw [flag_fieldAt_above hp (by decide) (by decide), flag_fieldAt_above hs (by decide) (by decide), flag_flagAt _ (by decide)]
    simp

theorem sessionEnergy_eq (s : State) : sessionEnergy s = if s.ses.session = .opened ∨ s.ses.session = .closing
    then min 65535 (accountWh s.mtr / 10) else 0 := by
  cases h : s.ses.session <;> simp [sessionEnergy, h, accountWh]

theorem mirror63_fields (s : State) :
    (mirror s 10).w0.toNat = (if s.ses.session = .opened ∨ s.ses.session = .closing
        then min 65535 (accountWh s.mtr / 10) else 0)
      ∧ field (mirror s 10).w1 0 7 = (match s.mtr.clock with | none => 0 | some sec => sec.toNat % 86400 / 900)
      ∧ field (mirror s 10).w1 8 2 = s.mtr.band.val
      ∧ (s.mtr.unassigned.wh ≤ 32767 →
        field (mirror s 10).w2 0 15 = s.mtr.unassigned.wh ∧ flag (mirror s 10).w2 15 = s.mtr.clock.isSome) := by
  have hslot : currentSlot s.mtr < 2 ^ 7 := by
    rw [currentSlot]
    split
    next => decide
    next sec _ => rw [slotOf]; omega
  have hband : s.mtr.band.val < 2 ^ 2 := s.mtr.band.isLt
  refine ⟨?_, ?_, ?_, fun h => ⟨?_, ?_⟩⟩ <;> simp only [mirror, field_or, flag_or, word_eq_fieldAt]
  · rw [← word_eq_fieldAt, word_toNat, sessionEnergy_eq]
    rw [sessionEnergy_eq]
    split <;> omega
  · rw [field_fieldAt hslot (by decide), field_fieldAt_below hband (by decide) (by decide), Nat.or_zero, currentSlot]
    cases s.mtr.clock <;> rfl
  · rw [field_fieldAt_above hslot (by decide) (by decide), field_fieldAt hband (by decide), Nat.zero_or]
  · rw [field_fieldAt (by omega) (by decide), field_flagAt_other (by decide) (by decide), Nat.or_zero]
  · rw [flag_fieldAt_above (len := 15) (by omega) (by decide) (by decide), flag_flagAt _ (by decide)]
    simp

/-- Settles O6: the window that maps a local number is the first that contains it, and each mirror's fields are its owner's codes. -/
theorem readableEntry : Obligations.ReadableEntry := by
  unfold Obligations.ReadableEntry
  refine ⟨fun s p k n => ?_, fun s => ?_⟩
  · simp only [readable_iff, Window.contains_iff, and_assoc]
  · obtain ⟨h530, h532, h53p, h53n⟩ := mirror53_fields s
    obtain ⟨h570, h57g, h57o, h57l, h57z, h57a⟩ := mirror57_fields s
    obtain ⟨h62n, h62p, h62s, h62f, h62u⟩ := mirror62_fields s
    obtain ⟨h63e, h63s, h63b, h63u⟩ := mirror63_fields s
    intro e
    have e53 : e 53 = mirror s 0 := readEntry_mirror s (k := 0) (by decide) rfl
    have e57 : e 57 = mirror s 4 := readEntry_mirror s (k := 4) (by decide) rfl
    have e60 : e 60 = mirror s 7 := readEntry_mirror s (k := 7) (by decide) rfl
    have e61 : e 61 = mirror s 8 := readEntry_mirror s (k := 8) (by decide) rfl
    have e62 : e 62 = mirror s 9 := readEntry_mirror s (k := 9) (by decide) rfl
    have e63 : e 63 = mirror s 10 := readEntry_mirror s (k := 10) (by decide) rfl
    rw [e53, e57, e60, e61, e62, e63]
    refine ⟨fun n => readEntry_stored s n, ⟨h530, h532, h53p, h53n⟩,
      ⟨readEntry_mirror s (k := 1) (by decide) rfl, readEntry_mirror s (k := 2) (by decide) rfl,
        readEntry_mirror s (k := 3) (by decide) rfl⟩,
      ⟨h570, h57g, h57o, h57l, h57z, h57a⟩, ?_, fun z => ?_, ?_, word_toNat (by omega),
      ⟨h62n, h62p, h62s, h62f, h62u.trans (uncollected_eq _)⟩, ⟨h63e, h63s, h63b, h63u⟩⟩
    · exact zoneTemps s
    · rw [show (mirror s 7).w2 = energizedBits s.htr from rfl, energizedBits, flag_energized]
      simp [flag]
    · exact fun z => (zoneStates s z).trans (ZoneState.code_eq _)

end Sys2Proof.Machine
end

section
/-! PROOFS. The plug contacts, the plug state and what it does to the session (R19 to R22, R30, R33, R35), and AUTHORIZE (R31, R32). -/

namespace Sys2Proof.Machine

/-! ## The contacts (R19) -/

theorem contactChange_A (level : Bool) (s : State) : contactChange .A level s = if s.ses.rawA = level then s
    else { s with ses := { s.ses with
      rawA := level, timerA := if s.ses.debA = some level then .stopped else .running 100 } } := rfl

theorem contactChange_B (level : Bool) (s : State) : contactChange .B level s = if s.ses.rawB = level then s
    else { s with ses := { s.ses with
      rawB := level, timerB := if s.ses.debB = some level then .stopped else .running 100 } } := rfl

theorem debounced_A (x : Ses) (a b : Bool) :
    (debounced x a b).debA = if a = true ∧ x.timerA ≠ .stopped then some x.rawA else x.debA := by
  by_cases h : a = true ∧ x.timerA ≠ .stopped
  · rw [if_pos h, debounced]
    simp [h.1, (Timer.isRunning_iff _).2 h.2]
  · rw [if_neg h, debounced]
    simp only [Bool.and_eq_true, Timer.isRunning_iff, if_neg h]

theorem debounced_B (x : Ses) (a b : Bool) :
    (debounced x a b).debB = if b = true ∧ x.timerB ≠ .stopped then some x.rawB else x.debB := by
  by_cases h : b = true ∧ x.timerB ≠ .stopped
  · rw [if_pos h, debounced]
    simp [h.1, (Timer.isRunning_iff _).2 h.2]
  · rw [if_neg h, debounced]
    simp only [Bool.and_eq_true, Timer.isRunning_iff, if_neg h]

/-! ## The plug state derived (R20) -/

theorem plugTable_eq (a b : Bool) : plugOf a b = plugTable a b := by cases a <;> cases b <;> rfl

theorem derivePlug_put {s : State} {a b : Bool} (ha : s.ses.debA = some a) (hb : s.ses.debB = some b) :
    derivePlug s = putPlug (plugTable a b) s := by
  rw [derivePlug, ha, hb, ← plugTable_eq]

theorem derivePlug_undecided {s : State} (h : s.ses.debA = none ∨ s.ses.debB = none) : derivePlug s = s := by
  rw [derivePlug]
  split
  next ha hb => simp [ha, hb] at h
  next => rfl

theorem putPlug_same {s : State} {new : Plug} (h : new = s.ses.plug) : putPlug new s = s := by rw [putPlug, if_pos h]

theorem putPlug_plug (new : Plug) (s : State) : (putPlug new s).ses.plug = new := by
  unfold putPlug
  split
  next h => exact h.symm
  next => dsimp only
          split
          next => simp
          next => split <;> simp

theorem setSes_grows (s : State) (x : Ses) : Grows s (s.setSes x) := .of_eq (by simp)

/-- The state in which a new plug state has been told of (R20). -/
def plugTold (new : Plug) (s : State) : State := raise .plugChange (s.setSes { s.ses with plug := new })

theorem plugTold_grows (new : Plug) (s : State) : Grows s (plugTold new s) := raise_grows_of_eq _ (by simp)

theorem putPlug_entering {s : State} (h : s.ses.plug ≠ .plugged) :
    putPlug .plugged s = plugEnters (plugTold .plugged s) := by
  rw [putPlug, if_neg (Ne.symm h)]
  dsimp only
  rw [if_neg h, if_pos rfl]
  rfl

theorem putPlug_leaving {s : State} {new : Plug} (h : s.ses.plug = .plugged) (hnew : new ≠ .plugged) :
    putPlug new s = plugLeaves (plugTold new s) := by
  rw [putPlug, if_neg (by rw [h]; exact hnew)]
  dsimp only
  rw [if_pos h]
  rfl

theorem exec_debounceExpiry (a b : Bool) {s : State} (hp : s.powered = true) :
    exec (.debounceExpiry a b) s = .next (derivePlug (s.setSes (debounced s.ses a b))) := by
  rw [exec]
  exact live_becomes hp rfl

/-- Settles O15: a contact's own timer, and the plug state of two contacts that both have a state. -/
theorem contactsDebounced : Obligations.ContactsDebounced := by
  unfold Obligations.ContactsDebounced
  refine ⟨fun level s hp => ⟨?_, ?_⟩, fun a b s hp => ⟨debounced_A s.ses a b, debounced_B s.ses a b, _,
    exec_debounceExpiry a b hp, fun la lb ha hb => ?_, fun h => ?_, fun la lb ha hb hne => ?_⟩⟩
  · rw [exec]; exact live_becomes hp (contactChange_A level s)
  · rw [exec]; exact live_becomes hp (contactChange_B level s)
  · rw [derivePlug_put (s := s.setSes (debounced s.ses a b)) ha hb, putPlug_plug]
  · rcases h with h | h | ⟨la, lb, ha, hb, hsame⟩
    · exact derivePlug_undecided (.inl h)
    · exact derivePlug_undecided (.inr h)
    · rw [derivePlug_put (s := s.setSes (debounced s.ses a b)) ha hb]
      exact putPlug_same hsame
  · rw [derivePlug_put (s := s.setSes (debounced s.ses a b)) ha hb]
    exact (putPlug_told _ _ (by exact hne)).after (.of_eq (by simp))

/-! ## AUTHORIZE's checks (R31) -/

theorem canReserve_iff (nv : Nv) : canReserve nv = true ↔ (∃ i : Fin 64, nv.slots[i].mark = .free) ∧ nv.counter ≠ 0 := by
  rw [canReserve, Bool.and_eq_true, bne_iff_ne, Option.isSome_iff_ne_none, Ne, freeSlot_none]
  simp

theorem authorizeStatus_unplugged {s : State} (tag : Option Tag) (h : s.ses.session = .none) :
    authorizeStatus s tag = .denied := by rw [authorizeStatus, h]

theorem authorizeStatus_busy {s : State} (tag : Option Tag) (h : s.ses.session = .opened ∨ s.ses.session = .closing) :
    authorizeStatus s tag = .busy := by rcases h with h | h <;> rw [authorizeStatus, h]

theorem authorizeStatus_plugged {s : State} (tag : Option Tag) (h : s.ses.session = .plugged) :
    authorizeStatus s tag = if tag.isNone = true ∧ s.ses.defaultAccount = false then .denied
      else if s.mtr.lockHeld = true then .busy else if canReserve s.nv = true then .ok else .storeFull := by
  rw [authorizeStatus, h]
  simp

theorem authorizeSession_refused {tag : Option Tag} {s : State} (h : authorizeStatus s tag ≠ .ok) :
    authorizeSession tag s = s := if_neg h

theorem authorizeSession_ok {tag : Option Tag} {s : State} (h : authorizeStatus s tag = .ok) :
    authorizeSession tag s = openSession tag s := if_pos h

/-! ## The plug's entering PLUGGED (R30, R33) -/

@[simp] theorem enterSession_ses (st : SessionState) (s : State) :
    (enterSession st s).ses = { s.ses with session := st } := by simp [enterSession]

theorem reserve_counter {nv : Nv} (h : canReserve nv = true) : (reserve nv).counter = nv.counter + 1 := by
  obtain ⟨i, hi⟩ := Option.isSome_iff_exists.1 (Bool.and_eq_true_iff.1 h).1
  rw [reserve_eq nv i hi]

/-- The session PLUGGED from NONE, opened at once under auto-open where nothing stands against it (R33). -/
theorem autoOpen_spec {s : State} (h : s.ses.session = .plugged) :
    if s.ses.autoOpen = true ∧ s.ses.defaultAccount = true ∧ s.mtr.lockHeld = false ∧ canReserve s.nv = true
    then autoOpen s = openSession none s else autoOpen s = s := by
  have hstatus := authorizeStatus_plugged none h
  split
  next hopen =>
    obtain ⟨hauto, hdefault, hlock, hroom⟩ := hopen
    rw [autoOpen, if_pos hauto, authorizeSession_ok (by rw [hstatus]; simp [hdefault, hlock, hroom])]
  next hnot =>
    rw [autoOpen]
    split
    next hauto =>
      refine authorizeSession_refused fun hok => hnot ?_
      rw [hstatus] at hok
      by_cases hd : s.ses.defaultAccount = true <;> by_cases hl : s.mtr.lockHeld = true <;>
        by_cases hc : canReserve s.nv = true <;> simp [hd, hl, hc] at hok
      exact ⟨hauto, hd, by simpa using hl, hc⟩
    next => rfl

/-- Settles O17: the session of a van plugged in, by what it was. -/
theorem plugInMovesSession : Obligations.PlugInMovesSession := by
  unfold Obligations.PlugInMovesSession
  intro a b s hp hplug ha hb
  have hd := setSes_grows s (debounced s.ses a b)
  refine ⟨_, exec_debounceExpiry a b hp, ?_⟩
  rw [derivePlug_put (s := s.setSes (debounced s.ses a b)) ha hb]
  have hgrows := hd.trans (putPlug_grows .plugged _)
  have htold := (putPlug_told .plugged (s.setSes (debounced s.ses a b)) (Ne.symm hplug)).after hd
  refine ⟨putPlug_plug _ _, htold, ?_⟩
  rw [show plugTable true true = .plugged from rfl, putPlug_entering (by exact hplug)]
  rw [putPlug_entering (by exact hplug)] at hgrows
  refine ⟨fun h => ?_, fun h => ⟨?_, ?_⟩, by simp [plugTold], by simp [plugTold], by simp [plugTold], by simp [plugTold],
    hgrows.portsKept, by simp [RestKept, plugTold]⟩
  · rw [plugEnters, if_neg (by simpa [plugTold, debounced] using h)]
    simp [plugTold, debounced]
  · rw [plugEnters, if_pos (by simpa [plugTold, debounced] using h)]
    exact ((enterSession_told .plugged _).grow (autoOpen_grows _)).after (hd.trans (plugTold_grows .plugged _))
  · have hnone : (plugTold .plugged (s.setSes (debounced s.ses a b))).ses.session = .none := by simpa [plugTold, debounced] using h
    have hopen := autoOpen_spec (s := enterSession .plugged (plugTold .plugged (s.setSes (debounced s.ses a b)))) (by simp)
    rw [plugEnters, if_pos hnone]
    have hfields : ((enterSession .plugged (plugTold .plugged (s.setSes (debounced s.ses a b)))).ses.autoOpen = true
        ∧ (enterSession .plugged (plugTold .plugged (s.setSes (debounced s.ses a b)))).ses.defaultAccount = true
        ∧ (enterSession .plugged (plugTold .plugged (s.setSes (debounced s.ses a b)))).mtr.lockHeld = false
        ∧ canReserve (enterSession .plugged (plugTold .plugged (s.setSes (debounced s.ses a b)))).nv = true)
        ↔ (s.ses.autoOpen = true ∧ s.ses.defaultAccount = true ∧ s.mtr.lockHeld = false ∧ canReserve s.nv = true) := by
      simp [plugTold, debounced]
    split
    next hall =>
      rw [if_pos (hfields.2 hall)] at hopen
      obtain ⟨-, -, -, hroom⟩ := hall
      rw [hopen, openSession_ses, openSession_nv]
      simpa [Ses.opening, plugTold] using reserve_counter hroom
    next hnot =>
      rw [if_neg fun hall => hnot (hfields.1 hall)] at hopen
      rw [hopen]
      simp [plugTold]

/-! ## AUTHORIZE (R31, R32) -/

theorem exec_authorize {len : Nat} {arg : BitVec 8} {t0 t1 t2 t3 : Word} {s : State} (hr : Ready .F s) (h : arg = 0 ∨ arg = 1) :
    exec (.authorize ⟨.F, len⟩ arg t0 t1 t2 t3) s = .next (answer .F len (authorizeStatus s (tagOperand arg t0 t1 t2 t3)) [] s
      (authorizeSession (tagOperand arg t0 t1 t2 t3) s)) := by
  rw [exec]
  exact request_replies hr (by simp) (if_pos h)

theorem exec_authorize_refused {len : Nat} {arg : BitVec 8} {t0 t1 t2 t3 : Word} {s : State} {st : Status} (hr : Ready .F s)
    (h : arg = 0 ∨ arg = 1) (hst : authorizeStatus s (tagOperand arg t0 t1 t2 t3) = st) (hne : st ≠ .ok) :
    exec (.authorize ⟨.F, len⟩ arg t0 t1 t2 t3) s = .next (answer .F len st [] s s) := by
  rw [exec_authorize hr h, hst, authorizeSession_refused (by rw [hst]; exact hne)]

theorem tagOperand_isNone {arg : BitVec 8} (t0 t1 t2 t3 : Word) (h : arg = 0 ∨ arg = 1) :
    (tagOperand arg t0 t1 t2 t3).isNone = decide (arg = 0) := by
  rcases h with rfl | rfl <;> simp [tagOperand]

theorem canReserve_eq_false (nv : Nv) :
    canReserve nv = false ↔ (∀ i : Fin 64, nv.slots[i].mark ≠ .free) ∨ nv.counter = 0 := by
  rw [← Bool.not_eq_true, canReserve_iff, not_and_or, not_exists, not_not]

/-- Settles O18: the refusals in the order of R31, and the opening by the facts of its parts. -/
theorem authorizeRefusedOrOpens : Obligations.AuthorizeRefusedOrOpens := by
  unfold Obligations.AuthorizeRefusedOrOpens
  refine ⟨fun len arg t0 t1 t2 t3 s hr => ⟨fun h => ?_, fun h => ?_⟩, fun len arg t0 t1 t2 t3 s i hr hplugged harg hlock hfree
    hlowest hcounter => ?_⟩
  · rw [exec]
    exact request_replies hr (by simp) (if_neg (not_or.2 h))
  · split
    next hbusy => exact exec_authorize_refused hr h (authorizeStatus_busy _ hbusy) (by simp)
    next hbusy =>
      split
      next hnone => exact exec_authorize_refused hr h (authorizeStatus_unplugged _ hnone) (by simp)
      next hnone =>
        have hplugged : s.ses.session = .plugged := by
          cases hs : s.ses.session <;> simp_all
        have hstatus := authorizeStatus_plugged (tagOperand arg t0 t1 t2 t3) hplugged
        simp only [tagOperand_isNone _ _ _ _ h, decide_eq_true_eq] at hstatus
        split
        next hno => exact exec_authorize_refused hr h (hstatus.trans (if_pos hno)) (by simp)
        next hno =>
          rw [if_neg hno] at hstatus
          split
          next hheld => exact exec_authorize_refused hr h (hstatus.trans (if_pos hheld)) (by simp)
          next hheld =>
            rw [if_neg hheld] at hstatus
            intro hfull
            rw [if_neg (by rw [(canReserve_eq_false _).2 hfull]; simp)] at hstatus
            exact exec_authorize_refused hr h hstatus (by simp)
  · have h01 : arg = 0 ∨ arg = 1 := harg.elim .inr fun h => .inl h.1
    have hok : authorizeStatus s (tagOperand arg t0 t1 t2 t3) = .ok := by
      rw [authorizeStatus_plugged _ hplugged, if_neg, if_neg (by simp [hlock]), if_pos ((canReserve_iff _).2 ⟨⟨i, hfree⟩, hcounter⟩)]
      rw [tagOperand_isNone _ _ _ _ h01, decide_eq_true_eq]
      rcases harg with rfl | ⟨rfl, hd⟩
      · simp
      · simp [hd]
    refine ⟨_, exec_authorize hr h01, ?_⟩
    rw [authorizeSession_ok hok, hok]
    refine ⟨by simp [answer], ?_, ?_, ?_, ?_, fun p hp => ?_, by simp, by simp, by simp, by simp, by simp [RestKept]⟩
    · rw [(answer_keeps ..).2.2.2.2.2.2.2.1, openSession_ses]
      rfl
    · simp only [answer_keeps, openSession_nv]
      exact reserve_eq _ i (freeSlot_lowest hfree hlowest)
    · simp only [answer_keeps, openSession_mtr]
    · simp only [answer_keeps, openSession_rst]
    · exact (answer_told p).2 (openSession_told _ s p hp)

/-! ## The plug's leaving PLUGGED (R21, R22, R35, R56) -/

/-- With the plug out, the session's part leaves an idle demand line as it is. -/
theorem sessionUnplugged_sup {s : State} (hplug : s.ses.plug ≠ .plugged) (hd : s.sup.demand = .idle)
    (hw : s.sup.withdrawal = .none) : (sessionUnplugged s).sup = s.sup := by
  have hidle : { s.sup with demand := .idle, withdrawal := .none } = s.sup := by rw [← hd, ← hw]
  rw [sessionUnplugged]
  split
  next h => rw [closeSession_sup _ _ h, if_neg hplug, hidle]
  next h =>
    rw [enterSession, evalDemand_unplugged _ (by simpa using hplug)]
    simpa using hidle
  next => rfl

/-- The session's part: an OPEN session goes to CLOSING with its data, a PLUGGED one to NONE, another stays (R30, R35). -/
theorem sessionUnplugged_spec (s : State) :
    (sessionUnplugged s).ses.session = (match s.ses.session with | .opened => .closing | .closing => .closing | _ => .none)
      ∧ (s.ses.session = .opened → (sessionUnplugged s).ses.closeReason = some .unplug
        ∧ finalPending (sessionUnplugged s).rst = true ∧ (sessionUnplugged s).ses.endTime = s.mtr.clock.getD 0
        ∧ (sessionUnplugged s).mtr = { s.mtr with checkpointTimer := .stopped })
      ∧ (s.ses.session ≠ .opened → (sessionUnplugged s).ses.closeReason = s.ses.closeReason
        ∧ (sessionUnplugged s).rst = s.rst ∧ (sessionUnplugged s).mtr = s.mtr)
      ∧ (s.ses.session = .opened ∨ s.ses.session = .plugged → ToldAll .sessionChange s (sessionUnplugged s)) := by
  cases h : s.ses.session with
  | opened =>
    obtain ⟨hses, hmtr, hfinal⟩ := closeSession_spec .unplug s h
    have hclose : sessionUnplugged s = closeSession .unplug s := by rw [sessionUnplugged, h]
    rw [hclose, hses, hmtr]
    exact ⟨rfl, fun _ => ⟨rfl, hfinal, rfl, rfl⟩, nofun, fun _ => closeSession_told _ _ h⟩
  | plugged =>
    have henter : sessionUnplugged s = enterSession .none s := by rw [sessionUnplugged, h]
    rw [henter]
    exact ⟨by simp, nofun, fun _ => by simp, fun _ => enterSession_told _ _⟩
  | none =>
    have hsame : sessionUnplugged s = s := by rw [sessionUnplugged, h]
    rw [hsame]
    exact ⟨h, nofun, fun _ => ⟨rfl, rfl, rfl⟩, nofun⟩
  | closing =>
    have hsame : sessionUnplugged s = s := by rw [sessionUnplugged, h]
    rw [hsame]
    exact ⟨h, nofun, fun _ => ⟨rfl, rfl, rfl⟩, nofun⟩

theorem immediateOff_alc (s : State) :
    (immediateOff s).alc.record = { s.alc.record with mode := .off, s := 0, iSet := 0 } ∧ (immediateOff s).alc.link = .off
      ∧ (immediateOff s).alc.fresh = true ∧ (immediateOff s).alc.freshTimer = .stopped
      ∧ (immediateOff s).alc.changeover = (if s.alc.record.mode = .off then s.alc.changeover else .running 500)
      ∧ (immediateOff s).alc.mirror56.w0 = 0 := ⟨rfl, rfl, rfl, rfl, rfl, rfl⟩

theorem restoreDefaults_plan (s : State) (n : Fin 53) :
    (restoreDefaults s).plan[n] = if h : n.val < 4 then s.planDefaults[n.val] else s.plan[n] := by
  obtain ⟨n, hn53⟩ := n
  simp only [restoreDefaults, State.setPlan_plan, Fin.getElem_fin]
  split
  next hn => interval_cases n <;> simp
  next hn =>
    have h0 : (0 : Nat) ≠ n := by omega
    have h1 : (1 : Nat) ≠ n := by omega
    have h2 : (2 : Nat) ≠ n := by omega
    have h3 : (3 : Nat) ≠ n := by omega
    simp [h0, h1, h2, h3]

theorem scopedRestore_plan (s : State) (n : Fin 53) : (scopedRestore s).plan[n] =
    if h : n.val < 4 then (if s.ses.scopedReset = true then s.planDefaults[n.val] else s.plan[n]) else s.plan[n] := by
  by_cases hs : s.ses.scopedReset = true
  · have hrestore : scopedRestore s = restoreDefaults s := if_pos hs
    simp only [hrestore, restoreDefaults_plan, if_pos hs]
  · have hrestore : scopedRestore s = s := if_neg hs
    simp [hrestore, hs]

section
variable {u : State}

theorem plugLeaves_sup (h : u.ses.plug ≠ .plugged) :
    (plugLeaves u).sup = { u.sup with demand := .idle, withdrawal := .none } := by
  have hidle := evalDemand_unplugged u h
  have hsup := sessionUnplugged_sup (s := immediateOff (evalDemand u)) (by simpa using h) (by simp [hidle]) (by simp [hidle])
  rw [plugLeaves, (scopedRestore_keeps _).2.2.2.2.2.2.2.1, hsup, hidle]
  simp

/-- The charger is OFF at once (R56). -/
theorem plugLeaves_alc (u : State) : (plugLeaves u).alc.record = { u.alc.record with mode := .off, s := 0, iSet := 0 }
    ∧ (plugLeaves u).alc.link = .off ∧ (plugLeaves u).alc.fresh = true ∧ (plugLeaves u).alc.freshTimer = .stopped
    ∧ (plugLeaves u).alc.changeover = (if u.alc.record.mode = .off then u.alc.changeover else .running 500)
    ∧ (plugLeaves u).alc.mirror56.w0 = 0 := by
  have hoff := immediateOff_alc (evalDemand u)
  simpa [plugLeaves] using hoff

theorem plugLeaves_session (u : State) :
    (plugLeaves u).ses.session = (match u.ses.session with | .opened => .closing | .closing => .closing | _ => .none)
      ∧ (u.ses.session = .opened → (plugLeaves u).ses.closeReason = some .unplug
        ∧ finalPending (plugLeaves u).rst = true ∧ (plugLeaves u).ses.endTime = u.mtr.clock.getD 0
        ∧ (plugLeaves u).mtr = { u.mtr with checkpointTimer := .stopped })
      ∧ (u.ses.session ≠ .opened → (plugLeaves u).ses.closeReason = u.ses.closeReason
        ∧ (plugLeaves u).rst = u.rst ∧ (plugLeaves u).mtr = u.mtr) := by
  obtain ⟨hsession, hopened, hother, -⟩ := sessionUnplugged_spec (immediateOff (evalDemand u))
  simp only [immediateOff_keeps, evalDemand_keeps] at hsession hopened hother
  simp only [plugLeaves, scopedRestore_keeps]
  exact ⟨hsession, hopened, hother⟩

theorem plugLeaves_told (h : u.ses.session = .opened ∨ u.ses.session = .plugged) :
    ToldAll .sessionChange u (plugLeaves u) := by
  obtain ⟨-, -, -, htold⟩ := sessionUnplugged_spec (immediateOff (evalDemand u))
  exact ((htold (by simpa using h)).grow (scopedRestore_grows _)).after
    ((evalDemand_grows u).trans (immediateOff_grows _))

theorem plugLeaves_plan (u : State) (n : Fin 53) : (plugLeaves u).plan[n] =
    if h : n.val < 4 then (if u.ses.scopedReset = true then u.planDefaults[n.val] else u.plan[n]) else u.plan[n] := by
  rw [plugLeaves]
  simpa using scopedRestore_plan (sessionUnplugged (immediateOff (evalDemand u))) n

end

/-- Settles O16: the demand line, the charger, the session and the plan of a van unplugged. -/
theorem unplugTurnsOff : Obligations.UnplugTurnsOff := by
  unfold Obligations.UnplugTurnsOff
  intro a b la lb s hp hplug ha hb hout
  have hnew : plugTable la lb ≠ .plugged := by cases la <;> cases lb <;> simp_all [plugTable]
  have hd := setSes_grows s (debounced s.ses a b)
  have htold := (putPlug_told (plugTable la lb) (s.setSes (debounced s.ses a b))
    (by show _ ≠ s.ses.plug; rw [hplug]; exact hnew)).after hd
  refine ⟨_, exec_debounceExpiry a b hp, ?_⟩
  rw [derivePlug_put (s := s.setSes (debounced s.ses a b)) ha hb, putPlug_leaving (by exact hplug) hnew]
  rw [putPlug_leaving (by exact hplug) hnew] at htold
  have hses : (plugTold (plugTable la lb) (s.setSes (debounced s.ses a b))).ses
      = { debounced s.ses a b with plug := plugTable la lb } := by simp [plugTold]
  have hkept : ∃ x y z, plugTold (plugTable la lb) (s.setSes (debounced s.ses a b)) = { s with
      ses := { debounced s.ses a b with plug := plugTable la lb }, portV := x, portP := y, portF := z } := ⟨_, _, _, rfl⟩
  have hgrows := hd.trans (plugTold_grows (plugTable la lb) (s.setSes (debounced s.ses a b)))
  obtain ⟨x, y, z, hu⟩ := hkept
  rw [hu] at htold hgrows ⊢
  generalize huv : ({ s with ses := { debounced s.ses a b with plug := plugTable la lb }, portV := x, portP := y, portF := z } : State) = u at *
  obtain ⟨hsession, hopened, hother⟩ := plugLeaves_session u
  obtain ⟨hrecord, hlink, hfresh, htimer, hgap, hmirror⟩ := plugLeaves_alc u
  have htoldSes := plugLeaves_told (u := u)
  have hmtr : (plugLeaves u).mtr = { u.mtr with checkpointTimer := (plugLeaves u).mtr.checkpointTimer } := by
    by_cases h : u.ses.session = .opened
    · rw [(hopened h).2.2.2]
    · rw [(hother h).2.2]
  subst huv
  refine ⟨plugLeaves_sup (by exact hnew), hrecord, hlink, hfresh, htimer, hgap, hmirror, by simp, by simp, by simp, by simp,
    by simp, by simp, hsession, fun h => ?_, fun h => hother h, ?_, ?_, by simp, plugLeaves_plan _, by simp, by simp,
    (hgrows.trans (plugLeaves_grows _)).portsKept, by simp [RestKept], htold, fun h => (htoldSes h).after hgrows⟩
  · obtain ⟨hreason, hfinal, hend, hstop⟩ := hopened h
    exact ⟨hreason, hfinal, hend, by rw [hstop]⟩
  · rw [hmtr]; rfl
  · rw [hmtr]

end Sys2Proof.Machine
end

section
/-! PROOFS. A session leaves OPEN for CLOSING alone, and CLOSING at the final write's completion alone (R30, R34 to R36). -/

namespace Sys2Proof.Machine

/-- The session keeps its account, number, prices and start, and its state but for an OPEN one that closes. -/
def OnlyCloses (s t : State) : Prop :=
  (t.ses.session = s.ses.session ∨ s.ses.session = .opened ∧ t.ses.session = .closing)
    ∧ t.ses.tag = s.ses.tag ∧ t.ses.number = s.ses.number ∧ t.ses.prices = s.ses.prices ∧ t.ses.startTime = s.ses.startTime

namespace OnlyCloses

variable {s t u : State}

theorem refl (s : State) : OnlyCloses s s := ⟨.inl rfl, rfl, rfl, rfl, rfl⟩

theorem trans (h : OnlyCloses s t) (g : OnlyCloses t u) : OnlyCloses s u := by
  obtain ⟨hs, htag, hnumber, hprices, hstart⟩ := h
  obtain ⟨gs, gtag, gnumber, gprices, gstart⟩ := g
  refine ⟨?_, gtag.trans htag, gnumber.trans hnumber, gprices.trans hprices, gstart.trans hstart⟩
  rcases gs with gs | ⟨gopen, gclose⟩
  · rw [gs]; exact hs
  · rcases hs with hs | ⟨hopen, hclose⟩
    · exact .inr ⟨hs ▸ gopen, gclose⟩
    · rw [hclose] at gopen
      exact absurd gopen (by decide)

theorem of_ses (h : t.ses = s.ses) : OnlyCloses s t := by
  rw [OnlyCloses, h]
  exact ⟨.inl rfl, rfl, rfl, rfl, rfl⟩

theorem of_fields (h : t.ses.session = s.ses.session ∧ t.ses.tag = s.ses.tag ∧ t.ses.number = s.ses.number
    ∧ t.ses.prices = s.ses.prices ∧ t.ses.startTime = s.ses.startTime) : OnlyCloses s t := ⟨.inl h.1, h.2⟩

theorem after_same (h : OnlyCloses t u) (ht : t.ses = s.ses) : OnlyCloses s u := (of_ses ht).trans h

end OnlyCloses

theorem evalDemand_onlyCloses (s : State) : OnlyCloses s (evalDemand s) := .of_ses (by simp)
theorem restartRun_onlyCloses (s : State) : OnlyCloses s (restartRun s) := .of_ses (by simp)

/-! ## Operations that may close the session, or flag it -/

theorem closeSession_onlyCloses (r : CloseReason) (s : State) : OnlyCloses s (closeSession r s) := by
  by_cases h : s.ses.session = .opened
  · obtain ⟨hses, -, -⟩ := closeSession_spec r s h
    rw [OnlyCloses, hses]
    exact ⟨.inr ⟨h, rfl⟩, rfl, rfl, rfl, rfl⟩
  · rw [closeSession, if_neg h]
    exact .refl s

theorem endHoldByGrade_onlyCloses (s : State) : OnlyCloses s (endHoldByGrade s) := .of_fields (by simp)

theorem setLockout_onlyCloses (s : State) : OnlyCloses s (setLockout s) := .of_ses (by simp)

theorem gradeLost_onlyCloses (old new : Grade) (s : State) : OnlyCloses s (gradeLost old new s) := by
  have ha : OnlyCloses s (if old.isProven && !new.isProven then endHoldByGrade s else s) := by
    split
    · exact endHoldByGrade_onlyCloses s
    · exact .refl s
  have hb : OnlyCloses s (if new = .fault then
      closeSession .isolation (setLockout (if old.isProven && !new.isProven then endHoldByGrade s else s))
      else (if old.isProven && !new.isProven then endHoldByGrade s else s)) := by
    split
    · exact ha.trans ((setLockout_onlyCloses _).trans (closeSession_onlyCloses _ _))
    · exact ha
  rw [gradeLost]
  split
  · exact hb.trans (.of_ses (by simp))
  · exact hb

theorem changeGrade_onlyCloses (g : Grade) (s : State) : OnlyCloses s (changeGrade g s) := by
  by_cases h : g = s.iso.grade
  · rw [changeGrade, if_pos h]
    exact .refl s
  · rw [changeGrade_eq g s h]
    exact ((gradeLost_onlyCloses _ _ _).after_same (by simp)).trans (evalDemand_onlyCloses _)

theorem decideGrade_onlyCloses (r : ResultClass) (s : State) : OnlyCloses s (decideGrade r s) := by
  unfold decideGrade
  (repeat' split) <;> first | exact changeGrade_onlyCloses _ s | exact .of_ses (by simp)

theorem endRun_onlyCloses (s : State) : OnlyCloses s (endRun s) := by
  unfold endRun
  split
  · exact .of_ses (by simp)
  · dsimp only
    split
    · exact ((changeGrade_onlyCloses _ _).after_same (by simp)).trans (evalDemand_onlyCloses _)
    · exact .of_ses (by simp)

theorem localizationStep_onlyCloses (s : State) : OnlyCloses s (localizationStep s) := by
  unfold localizationStep
  split
  · split
    · exact .of_ses (by simp)
    · exact .of_ses (by simp)
    · split
      · exact .of_ses (by simp)
      · exact endRun_onlyCloses s
    · exact .refl s
  · exact .refl s

theorem longDeadEnergization_onlyCloses (s : State) : OnlyCloses s (longDeadEnergization s) := by
  have h : OnlyCloses s (restartRun (changeGrade .unknown (s.setIso { s.iso with longDead := false }))) :=
    ((changeGrade_onlyCloses _ _).after_same (by rfl)).trans (restartRun_onlyCloses _)
  unfold longDeadEnergization
  dsimp only
  split
  · exact h.trans (.of_ses (by simp))
  · exact h

theorem raiseAge_onlyCloses (s : State) : OnlyCloses s (raiseAge s) := .of_fields (by simp)

theorem busConverted_onlyCloses (up un : Nat) (s : State) : OnlyCloses s (busConverted up un s) := by
  have hage : OnlyCloses s (raiseAge ((s.setIso { s.iso with uBus := up + un }).setIso
      { s.iso with uBus := up + un, deadTimer := .stopped, energizedLast := true })) :=
    (raiseAge_onlyCloses _).after_same (by rfl)
  unfold busConverted
  dsimp only
  split
  · unfold energizedConversion
    dsimp only
    split
    · exact hage.trans ((longDeadEnergization_onlyCloses _).trans (localizationStep_onlyCloses _))
    · exact hage.trans (localizationStep_onlyCloses _)
  · exact .of_ses (by simp)

theorem useResult_onlyCloses (c : ResultClass) (s : State) : OnlyCloses s (useResult c s) := by
  unfold useResult
  split <;> first | exact decideGrade_onlyCloses c s | exact .of_ses (by simp)

theorem validResult_onlyCloses (r : IsoResult) (s : State) : OnlyCloses s (validResult r s) := by
  unfold validResult
  dsimp only
  have hbefore : OnlyCloses s (updateSummary r ((monitorIdle s).setIso { (monitorIdle s).iso with latest := some r })) :=
    .of_ses (by simp)
  have hafter (t : State) : OnlyCloses t (endProbeAfter s.iso.purpose s.iso.localization r.cls
      (releaseWindow (completeMeasurement t))) := .of_fields (by simp)
  exact hbefore.trans ((useResult_onlyCloses _ _).trans (hafter _))

theorem phaseEnded_onlyCloses (s : State) : OnlyCloses s (phaseEnded s) := by
  unfold phaseEnded
  split
  · exact .of_ses rfl
  · exact .of_ses rfl
  · exact .of_ses rfl
  · unfold finishMeasurement
    dsimp only
    split
    · exact (validResult_onlyCloses _ _).after_same (by rfl)
    · exact .of_ses (by simp)
  · exact .refl s
  · exact .refl s

/-! ## A session that is OPEN or CLOSING -/

/-- The session has been opened and is not written yet. -/
def Ongoing (s : State) : Prop := s.ses.session = .opened ∨ s.ses.session = .closing

theorem OnlyCloses.ongoing {s t : State} (h : OnlyCloses s t) (hs : Ongoing s) : Ongoing t := by
  obtain ⟨hses, -⟩ := h
  rcases hses with hses | ⟨-, hclose⟩
  · rwa [Ongoing, hses]
  · exact .inr hclose

theorem authorizeSession_ongoing {tag : Option Tag} {s : State} (h : Ongoing s) : authorizeSession tag s = s :=
  authorizeSession_refused (by rw [authorizeStatus_busy tag h]; decide)

theorem sessionUnplugged_ongoing {s : State} (h : Ongoing s) : OnlyCloses s (sessionUnplugged s) := by
  rw [sessionUnplugged]
  split
  next => exact closeSession_onlyCloses _ s
  next hp => exact absurd h (by rw [Ongoing, hp]; decide)
  next => exact .refl s

theorem plugLeaves_ongoing {s : State} (h : Ongoing s) : OnlyCloses s (plugLeaves s) := by
  have hbefore : OnlyCloses s (immediateOff (evalDemand s)) := .of_ses (by simp)
  refine (hbefore.trans (sessionUnplugged_ongoing (hbefore.ongoing h))).trans ?_
  exact .of_ses (by simp [plugLeaves])

theorem plugEnters_ongoing {s : State} (h : Ongoing s) : OnlyCloses s (plugEnters s) := by
  rw [plugEnters, if_neg fun hn => absurd h (by rw [Ongoing, hn]; decide)]
  exact evalDemand_onlyCloses s

theorem putPlug_ongoing (new : Plug) {s : State} (h : Ongoing s) : OnlyCloses s (putPlug new s) := by
  have htold : OnlyCloses s (plugTold new s) := .of_fields (by simp [plugTold])
  unfold putPlug
  split
  · exact .refl s
  · dsimp only
    split
    · exact htold.trans (plugLeaves_ongoing (htold.ongoing h))
    · split
      · exact htold.trans (plugEnters_ongoing (htold.ongoing h))
      · exact htold.trans (evalDemand_onlyCloses _)

theorem derivePlug_ongoing {s : State} (h : Ongoing s) : OnlyCloses s (derivePlug s) := by
  unfold derivePlug
  split
  · exact putPlug_ongoing _ h
  · exact .refl s

theorem debounced_onlyCloses (a b : Bool) (s : State) : OnlyCloses s (s.setSes (debounced s.ses a b)) :=
  .of_fields ⟨rfl, rfl, rfl, rfl, rfl⟩

/-- From a session that is OPEN or CLOSING every command but a power-on reset and the final write's completion leads at most to
CLOSING. -/
theorem preservedBy_onlyCloses {c : Instr} {s₀ : State} (h₀ : Ongoing s₀) (hon : ∀ pins cut, c ≠ .powerOnReset pins cut)
    (hfinal : c ≠ .finalWriteComplete) : PreservedBy c (OnlyCloses s₀) where
  port s p x h := h.trans (.of_ses (by simp))
  queue s q h := h.trans (.of_ses rfl)
  powerOn pins cut hc := absurd hc (hon pins cut)
  losePower cut _ s h := h.trans (.of_ses rfl)
  releaseOwned p _ s h := h.trans (.of_fields (by simp))
  commit f w _ n e s h := h.trans (.of_ses (by simp))
  departureHold f _ s _ h := h.trans (.of_ses rfl)
  dropHold f _ s h := h.trans (.of_ses rfl)
  dropHoldWithNotice _ s h := h.trans (.of_ses (by simp))
  clearLockout f _ s _ h := h.trans (.of_ses (by simp))
  rest f w _ ms s h := h.trans (.of_ses rfl)
  endRest f _ s h := h.trans (.of_ses rfl)
  endRestWithNotice _ s h := h.trans (.of_ses (by simp))
  clearZone f arg _ z s _ h := h.trans (.of_ses (by simp))
  authorize f arg t0 t1 t2 t3 _ tag s h := by rwa [authorizeSession_ongoing (h.ongoing h₀)]
  endSession f _ s _ h := h.trans (closeSession_onlyCloses _ s)
  setTime f hi lo _ sec s h := h.trans (.of_fields (by simp [setClock]))
  lockTariff f _ s h := h.trans (.of_ses rfl)
  unlockTariff f _ s h := h.trans (.of_fields (by simp [freeLock]))
  breakLock _ s h := h.trans (.of_fields (by simp))
  recordBuffer b s h := h.trans (.of_ses rfl)
  release f hi lo _ i n s _ h := h.trans (.of_ses rfl)
  imageBuffer b s h := h.trans (.of_ses rfl)
  imageStore f _ v s h := h.trans (.of_ses (by simp))
  contactChange k raw _ s h := h.trans (.of_fields (by simp))
  debounce a b _ s h :=
    (h.trans (debounced_onlyCloses a b s)).trans (derivePlug_ongoing ((h.trans (debounced_onlyCloses a b s)).ongoing h₀))
  pilotPeriod period high _ s h := h.trans (.of_ses (by simp))
  pilotSilent _ s h := h.trans (.of_ses (by simp))
  pilotLost _ s h := h.trans (.of_ses (by simp))
  pilotEdge _ s h := h.trans (.of_ses rfl)
  phaseWindow u1 u2 u3 _ s h := h.trans (.of_ses (by simp))
  allocate _ s h := h.trans (.of_ses (by simp))
  changeover _ s h := h.trans (.of_ses rfl)
  acceptance _ s h := h.trans (.of_ses (by simp))
  stageReady b _ s h := h.trans (.of_ses (by simp))
  stageFault b _ s h := h.trans (.of_ses (by simp))
  recovered _ s h := h.trans (.of_ses (by simp))
  applyNext _ s h := h.trans (.of_ses (by simp))
  pulseDue _ s h := h.trans (.of_ses (by simp))
  pulseEnded n _ s h := h.trans (.of_ses (by simp))
  conversion readings _ s h := h.trans (.of_ses (by simp))
  slotExpired _ s h := h.trans (.of_ses (by simp))
  busConverted up un _ s h := h.trans (busConverted_onlyCloses up un s)
  deadBus _ s h := h.trans (.of_ses rfl)
  periodExpired _ s h := h.trans (.of_fields (by simp))
  phaseEnded _ s h := h.trans (phaseEnded_onlyCloses s)
  sampled up un _ s h := h.trans (.of_ses (by simp))
  meterTick p1 p2 p3 _ s h := h.trans (.of_fields (by simp))
  checkpointTimer _ s _ h := h.trans (.of_ses (by simp))
  checkpointDone _ s h := h.trans (.of_ses (by simp))
  finalDone hc := absurd hc hfinal
  imageDone _ s h := h.trans (.of_ses (by simp))

theorem finalDone_opened {s : State} (h : s.ses.session = .opened) : (finalDone s).ses = s.ses := by
  unfold finalDone
  split
  · dsimp only
    rw [leaveClosing, if_neg (by simp [h])]
    simp
  · rfl

theorem exec_onlyCloses {c : Instr} {s t : State} (h : Ongoing s) (he : exec c s = .next t)
    (hon : ∀ pins cut, c ≠ .powerOnReset pins cut) (hfinal : c ≠ .finalWriteComplete) : OnlyCloses s t :=
  (preservedBy_onlyCloses h hon hfinal).exec (.refl s) he

theorem exec_onlyCloses_of_opened {c : Instr} {s t : State} (h : s.ses.session = .opened) (he : exec c s = .next t)
    (hon : ∀ pins cut, c ≠ .powerOnReset pins cut) : OnlyCloses s t := by
  by_cases hfinal : c = .finalWriteComplete
  · subst hfinal
    exact live_next he (.refl s) fun _ => .of_ses (finalDone_opened h)
  · exact exec_onlyCloses (.inl h) he hon hfinal

/-- Settles O20: every command at most closes an OPEN session, and the final write's completion alone ends a CLOSING one. -/
theorem sessionLeavesInOrder : Obligations.SessionLeavesInOrder := by
  unfold Obligations.SessionLeavesInOrder
  refine fun c s t he hon => ⟨fun h => ?_, fun h => ?_, fun h => (exec_onlyCloses_of_opened h he hon).2⟩
  · exact (exec_onlyCloses_of_opened h he hon).ongoing (.inl h)
  · by_cases hfinal : c = .finalWriteComplete
    · exact .inr hfinal
    · obtain ⟨hses | ⟨hopen, -⟩, -⟩ := exec_onlyCloses (.inr h) he hon hfinal
      · exact .inl (hses.trans h)
      · rw [h] at hopen
        exact absurd hopen (by decide)

end Sys2Proof.Machine
end

section
/-! PROOFS. The charger's modes never meet, and each fall to OFF opens a gap (R45, R46). -/

namespace Sys2Proof.Machine

/-! ## The mode that an interval chooses (Table 3-3) -/

theorem offChoice_mode (s : State) : (offChoice s).mode = .off := by
  rw [offChoice]
  split <;> rfl

/-- A mode other than OFF needs no contradiction, no changeover, and the bus live flag of its own. -/
theorem choose_mode (s : State) (h : (choose s).mode ≠ .off) : contradiction s = false ∧ s.alc.changeover = .stopped
    ∧ ((choose s).mode = .charge ∧ busLive s = true ∨ (choose s).mode = .busSupply ∧ busLive s = false) := by
  unfold choose at h ⊢
  split at h
  next => exact absurd (offChoice_mode s) h
  next hcon =>
    rw [if_neg hcon]
    split at h
    next => exact absurd (offChoice_mode s) h
    next hgap =>
      rw [if_neg hgap]
      have hstopped : s.alc.changeover = .stopped := by
        simpa [Timer.isRunning_iff] using hgap
      refine ⟨by simpa using hcon, hstopped, ?_⟩
      split at h
      next hlive => rw [if_pos hlive]; exact .inl ⟨rfl, hlive.2⟩
      next hlive =>
        rw [if_neg hlive]
        split at h
        next hdead => rw [if_pos hdead]; exact .inr ⟨rfl, hdead.2.1⟩
        next => exact absurd (offChoice_mode s) h

theorem not_contradiction_charge {s : State} (h : contradiction s = false) (hm : s.alc.record.mode = .charge) :
    busLive s = true := by simpa [contradiction, hm] using h

theorem not_contradiction_busSupply {s : State} (h : contradiction s = false) (hm : s.alc.record.mode = .busSupply) :
    busLive s = false := by simpa [contradiction, hm] using h

/-! ## A change of mode -/

/-- The mode of t behind that of s: the same, or OFF with the gap running. -/
def FallsAtMost (s t : State) : Prop :=
  t.alc.record.mode = s.alc.record.mode ∨ t.alc.record.mode = .off ∧ t.alc.changeover = .running 500

namespace FallsAtMost

variable {s t u : State}

theorem same (h : FallsAtMost s t) (hm : u.alc.record.mode = t.alc.record.mode) (hc : u.alc.changeover = t.alc.changeover) :
    FallsAtMost s u := by
  rw [FallsAtMost, hm, hc]
  exact h

theorem of_alc (h : FallsAtMost s t) (hu : u.alc = t.alc) : FallsAtMost s u := h.same (by rw [hu]) (by rw [hu])

end FallsAtMost

theorem plugLeaves_falls {s₀ s : State} (h : FallsAtMost s₀ s) : FallsAtMost s₀ (plugLeaves s) := by
  obtain ⟨hrecord, -, -, -, hgap, -⟩ := plugLeaves_alc s
  have hoff : (plugLeaves s).alc.record.mode = .off := by rw [hrecord]
  by_cases hm : s.alc.record.mode = .off
  · exact h.same (hoff.trans hm.symm) (by rw [hgap, if_pos hm])
  · exact .inr ⟨hoff, by rw [hgap, if_neg hm]⟩

theorem derivePlug_falls {s₀ s : State} (h : FallsAtMost s₀ s) : FallsAtMost s₀ (derivePlug s) := by
  unfold derivePlug putPlug
  split
  · split
    · exact h
    · dsimp only
      split
      · exact plugLeaves_falls (h.of_alc (by simp))
      · split <;> exact h.of_alc (by simp)
  · exact h

theorem windowed_record (s : State) : (contradictionStep (windowStep s)).alc.record = s.alc.record
    ∧ (contradictionStep (windowStep s)).alc.changeover = s.alc.changeover := by
  rw [contradictionStep_alc, windowStep_alc]
  exact ⟨rfl, rfl⟩

/-- A record of a mode other than OFF keeps the mode in force, or follows an OFF whose gap is over. -/
theorem allocate_mode (s : State) (h : (allocate s).alc.record.mode ≠ .off) :
    s.alc.changeover = .stopped ∧ (s.alc.record.mode = .off ∨ (allocate s).alc.record.mode = s.alc.record.mode) := by
  obtain ⟨hrecord, -⟩ := allocate_record s
  obtain ⟨hr, hc⟩ := windowed_record s
  rw [hrecord] at h ⊢
  change (choose _).mode ≠ _ at h
  change _ ∧ (_ ∨ (choose _).mode = _)
  obtain ⟨hcon, hstopped, hmode⟩ := choose_mode _ h
  refine ⟨hc ▸ hstopped, ?_⟩
  cases hold : s.alc.record.mode with
  | off => exact .inl rfl
  | charge =>
    have hlive := not_contradiction_charge hcon (by rw [hr, hold])
    rcases hmode with ⟨hm, -⟩ | ⟨-, hdead⟩
    · exact .inr hm
    · exact absurd (hlive.symm.trans hdead) (by decide)
  | busSupply =>
    have hdead := not_contradiction_busSupply hcon (by rw [hr, hold])
    rcases hmode with ⟨-, hlive⟩ | ⟨hm, -⟩
    · exact absurd (hlive.symm.trans hdead) (by decide)
    · exact .inr hm

theorem allocate_gap (s : State) (hoff : (allocate s).alc.record.mode = .off) (hon : s.alc.record.mode ≠ .off) :
    (allocate s).alc.changeover = .running 500 := by
  obtain ⟨hrecord, hgap⟩ := allocate_record s
  rw [hgap, ← hrecord, changeoverAfter, if_pos ⟨hoff, hon⟩]
  rfl

/-- Every command but a reset, an interval and the gap's own end keeps the mode, or puts it OFF with the gap running. -/
theorem preservedBy_falls {c : Instr} {s₀ : State} (hon : ∀ pins cut, c ≠ .powerOnReset pins cut)
    (hinterval : c ≠ .allocationInterval) (hgap : c ≠ .changeoverExpiry) : PreservedBy c (FallsAtMost s₀) where
  port s p x h := h.of_alc (by simp)
  queue s q h := h
  powerOn pins cut hc := absurd hc (hon pins cut)
  losePower cut _ s h := h
  releaseOwned p _ s h := h.same (by simp) (by simp)
  commit f w _ n e s h := h.same (by simp) (by simp)
  departureHold f _ s _ h := h
  dropHold f _ s h := h
  dropHoldWithNotice _ s h := h.same (by simp) (by simp)
  clearLockout f _ s _ h := h.same (by simp) (by simp)
  rest f w _ ms s h := h
  endRest f _ s h := h
  endRestWithNotice _ s h := h.same (by simp) (by simp)
  clearZone f arg _ z s _ h := h.same (by simp) (by simp)
  authorize f arg t0 t1 t2 t3 _ tag s h := h.of_alc (by simp)
  endSession f _ s _ h := h.of_alc (by simp)
  setTime f hi lo _ sec s h := h.of_alc (by simp [setClock])
  lockTariff f _ s h := h
  unlockTariff f _ s h := h.of_alc (by simp [freeLock])
  breakLock _ s h := h.of_alc (by simp)
  recordBuffer b s h := h
  release f hi lo _ i n s _ h := h
  imageBuffer b s h := h
  imageStore f _ v s h := h.of_alc (by simp)
  contactChange k raw _ s h := h.of_alc (by simp)
  debounce a b _ s h := derivePlug_falls (h.of_alc rfl)
  pilotPeriod period high _ s h := h.of_alc (by simp)
  pilotSilent _ s h := h.of_alc (by simp)
  pilotLost _ s h := h.of_alc (by simp)
  pilotEdge _ s h := h
  phaseWindow u1 u2 u3 _ s h := h.of_alc (by simp)
  allocate hc := absurd hc hinterval
  changeover hc := absurd hc hgap
  acceptance _ s h := h.same (by simp) (by simp)
  stageReady b _ s h := h.same (by simp) (by simp)
  stageFault b _ s h := h.same (by simp) (by simp)
  recovered _ s h := h.same (by simp) (by simp)
  applyNext _ s h := h.same (by simp) (by simp)
  pulseDue _ s h := h.same (by simp) (by simp)
  pulseEnded n _ s h := h.same (by simp) (by simp)
  conversion readings _ s h := h.same (by simp) (by simp)
  slotExpired _ s h := h.of_alc (by simp)
  busConverted up un _ s h := h.same (by simp) (by simp)
  deadBus _ s h := h
  periodExpired _ s h := h.same (by simp) (by simp)
  phaseEnded _ s h := h.same (by simp) (by simp)
  sampled up un _ s h := h.of_alc (by simp)
  meterTick p1 p2 p3 _ s h := h.of_alc (by simp)
  checkpointTimer _ s _ h := h.of_alc (by simp)
  checkpointDone _ s h := h.of_alc (by simp)
  finalDone _ s h := h.of_alc (by simp)
  imageDone _ s h := h.of_alc (by simp)

theorem powerOn_mode (pins : Pins) (cut : WriteCut) (s : State) : (powerOn pins cut s).alc.record.mode = .off :=
  powerOn_of_startState (P := fun t => t.alc.record.mode = .off) pins cut s (fun _ _ _ => rfl) (fun _ h => by simpa using h)

/-- What a command may do to the mode in force, but for a power-on reset. -/
theorem exec_mode {c : Instr} {s t : State} (he : exec c s = .next t) (hon : ∀ pins cut, c ≠ .powerOnReset pins cut) :
    (t.alc.record.mode = s.alc.record.mode ∨ t.alc.record.mode = .off
      ∨ s.alc.record.mode = .off ∧ c = .allocationInterval ∧ s.alc.changeover = .stopped)
    ∧ (t.alc.record.mode = .off → s.alc.record.mode ≠ .off → t.alc.changeover = .running 500) := by
  by_cases hgap : c = .changeoverExpiry
  · subst hgap
    rw [exec] at he
    have hmode : t.alc.record.mode = s.alc.record.mode :=
      live_next (P := fun t => t.alc.record.mode = s.alc.record.mode) he rfl fun _ => rfl
    exact ⟨.inl hmode, fun ht hs => absurd (hmode ▸ ht) hs⟩
  by_cases hinterval : c = .allocationInterval
  · subst hinterval
    refine live_next (P := fun t => (t.alc.record.mode = s.alc.record.mode ∨ t.alc.record.mode = .off
      ∨ s.alc.record.mode = .off ∧ _ ∧ s.alc.changeover = .stopped)
      ∧ (t.alc.record.mode = .off → s.alc.record.mode ≠ .off → t.alc.changeover = .running 500)) he
      ⟨.inl rfl, fun ht hs => absurd ht hs⟩ fun _ => ⟨?_, allocate_gap s⟩
    by_cases hoff : (allocate s).alc.record.mode = .off
    · exact .inr (.inl hoff)
    · obtain ⟨hstopped, hwas | hsame⟩ := allocate_mode s hoff
      · exact .inr (.inr ⟨hwas, rfl, hstopped⟩)
      · exact .inl hsame
  rcases (preservedBy_falls (s₀ := s) hon hinterval hgap).exec (.inl rfl) he with hsame | ⟨hoff, hrun⟩
  · exact ⟨.inl hsame, fun ht hs => absurd (hsame ▸ ht) hs⟩
  · exact ⟨.inr (.inl hoff), fun _ _ => hrun⟩

/-- Settles O28: a mode in force is kept or falls to OFF, and only an interval leaves OFF. -/
theorem modesNeverMeet : Obligations.ModesNeverMeet := by
  unfold Obligations.ModesNeverMeet
  intro c s t he
  by_cases hon : ∃ pins cut, c = .powerOnReset pins cut
  · obtain ⟨pins, cut, rfl⟩ := hon
    cases he
    have hoff := powerOn_mode pins cut s
    exact ⟨fun h => by rw [hoff] at h; exact absurd h.2 (by decide), fun h => by rw [hoff] at h; exact absurd h.2 (by decide),
      fun _ h => absurd hoff h, fun _ _ => .inr ⟨pins, cut, rfl⟩⟩
  · push Not at hon
    obtain ⟨hmode, hrun⟩ := exec_mode he hon
    refine ⟨fun h => ?_, fun h => ?_, fun hs ht => ?_, fun ht hs => .inl (hrun ht hs)⟩
    · rw [h.1, h.2] at hmode
      simp at hmode
    · rw [h.1, h.2] at hmode
      simp at hmode
    · rcases hmode with hsame | hoff | ⟨-, hc, hstopped⟩
      · exact absurd (hsame.trans hs) ht
      · exact absurd hoff ht
      · exact ⟨hc, hstopped⟩

end Sys2Proof.Machine
end

section
/-! PROOFS. The demand line that an evaluation sets, and the withdrawal of READY (R27 to R29). -/

namespace Sys2Proof.Machine

/-! ## The line of a plugged van -/

section
variable {s : State}

theorem evalDemand_sup (s : State) : (evalDemand s).sup =
    { s.sup with demand := (demandLine s).1, withdrawal := (demandLine s).2 } := by simp [evalDemand]

theorem demandLine_unplugged (h : s.ses.plug ≠ .plugged) : demandLine s = (.idle, .none) := by simp [demandLine, h]

theorem demandLine_refused (hp : s.ses.plug = .plugged) (h : s.commission = true ∨ permission s = false) :
    demandLine s = (.present, .none) := by
  rcases h with h | h
  · simp [demandLine, hp, h]
  · by_cases hc : s.commission = true <;> simp [demandLine, hp, h, hc]

theorem demandLine_wanted (hp : s.ses.plug = .plugged) (hc : s.commission = false) (hperm : permission s = true)
    (hw : wantsPower s = true) : demandLine s = (.ready, .none) := by simp [demandLine, hp, hc, hperm, hw]

/-- A fit van that wants nothing keeps READY, with its withdrawal begun, and otherwise shows PRESENT (R29). -/
theorem demandLine_unwanted (hp : s.ses.plug = .plugged) (hc : s.commission = false) (hperm : permission s = true)
    (hw : wantsPower s = false) : demandLine s = if s.sup.demand = .ready
      then (.ready, if s.sup.withdrawal = .none then .waiting else s.sup.withdrawal) else (.present, .none) := by
  cases hd : s.sup.demand <;> cases hwd : s.sup.withdrawal <;> simp [demandLine, hp, hc, hperm, hw, hd, hwd]

end

/-! ## The record that an interval publishes -/

/-- What SUP takes at an interval: the state in which the record is in force. -/
def published (s : State) : State :=
  windowAtPublication (s.alc.window == .waiting)
    (publish (computeRecord (contradictionStep (windowStep s))) (contradictionStep (windowStep s)))

theorem allocate_eq (s : State) : allocate s = watchRecord (published s) := rfl

theorem published_sup (s : State) : (published s).sup = s.sup := by simp [published]

theorem published_permission (s : State) : permission (published s) = permission s := by
  simp [permission, insulationOk, published]

theorem published_wantsPower (s : State) : wantsPower (published s) = wantsPower s := by
  have hzones : demandsHeat (published s) = demandsHeat s := funext fun z => by
    simp only [demandsHeat, inMask, State.zone, published, windowAtPublication_keeps, publish_within, contradictionStep_keeps,
      windowStep_keeps] <;> rfl
  rw [wantsPower, heatDemand, hzones]
  simp only [wantsPower, chargeEnable, auxRequest, heatDemand, published, windowAtPublication_keeps, publish_keeps,
    contradictionStep_keeps, windowStep_keeps] <;> rfl

theorem allocate_alc_record (s : State) : (allocate s).alc.record = (published s).alc.record := by
  rw [allocate_eq, (watchRecord_keeps _).2.2.2.2.2.2.2.2.1]

/-- The line that SUP finds at an interval of a fit, plugged van. -/
theorem published_demandLine {s : State} (hp : s.ses.plug = .plugged) (hc : s.commission = false) (hperm : permission s = true)
    (hd : s.sup.demand = .ready) : demandLine (published s) = if wantsPower s = true then (.ready, .none)
      else (.ready, if s.sup.withdrawal = .none then .waiting else s.sup.withdrawal) := by
  have hp' : (published s).ses.plug = .plugged := by simpa [published] using hp
  have hc' : (published s).commission = false := by simpa [published] using hc
  have hperm' := (published_permission s).trans hperm
  have hsup := published_sup s
  split
  next hw => exact demandLine_wanted hp' hc' hperm' ((published_wantsPower s).trans hw)
  next hw =>
    rw [demandLine_unwanted hp' hc' hperm' ((published_wantsPower s).trans (by simpa using hw)), hsup, if_pos hd]

/-! ## The source of a record under a withdrawal -/

theorem choose_source (s : State) (h : (choose s).source = .grid) : 0 < bGrid s := by
  have hoff : (offChoice s).source ≠ .grid := by rw [offChoice]; split <;> simp
  unfold choose at h
  split at h
  next => exact absurd h hoff
  next => split at h
          next => exact absurd h hoff
          next => split at h
                  next hg => exact hg.1
                  next => split at h
                          next hg => exact hg.1
                          next => exact absurd h hoff

theorem bGrid_pos (s : State) (h : 0 < bGrid s) : inputAllowed s = true := by
  by_contra hno
  simp [bGrid, pIn, hno] at h

theorem allocate_source {s : State} (h : s.sup.withdrawal ≠ .none) : (allocate s).alc.record.source ≠ .grid := by
  rw [(allocate_record s).1]
  intro hgrid
  have hin := bGrid_pos _ (choose_source _ hgrid)
  simp only [inputAllowed, Bool.and_eq_true, beq_iff_eq] at hin
  obtain ⟨⟨-, hw⟩, -⟩ := hin
  exact h (by simpa using hw)

/-- Settles O22: the demand line by the plug, the permission and the wants, and the three ends of a withdrawal. -/
theorem demandLineEvaluated : Obligations.DemandLineEvaluated := by
  unfold Obligations.DemandLineEvaluated
  refine ⟨fun s => ?_, fun s hpow hp hc hperm hd => ⟨_, by rw [exec]; exact live_becomes hpow rfl, fun hwd hw => ?_, fun hwd hw => ?_,
    fun hw => ?_, allocate_source⟩⟩
  · intro t permits wants
    have hpermits : permission s = true ↔ permits := permission_iff s
    have hwants : wantsPower s = true ↔ wants := wantsPower_iff s
    have hsup : t.sup = _ := evalDemand_sup s
    refine ⟨rfl, by rw [hsup], fun h => ?_, fun h hno => ?_, fun h hc hperm hw => ?_, fun h hc hperm hw => ?_⟩
    · rw [hsup, demandLine_unplugged h]
      exact ⟨rfl, rfl⟩
    · rw [hsup, demandLine_refused h (hno.imp_right fun hn => by simpa [← hpermits] using hn)]
      exact ⟨rfl, rfl⟩
    · rw [hsup, demandLine_wanted h hc (hpermits.2 hperm) (hwants.2 hw)]
      exact ⟨rfl, rfl⟩
    · rw [hsup, demandLine_unwanted h hc (hpermits.2 hperm) (by simpa [← hwants] using hw)]
      split <;> exact ⟨rfl, rfl⟩
  all_goals
    have hline := published_demandLine hp hc hperm hd
    have hsup := evalDemand_sup (published s)
    have hkept := published_sup s
    rw [hline] at hsup
  · rw [hw, if_neg (by decide), hwd, if_neg (by decide)] at hsup
    rw [allocate_alc_record, allocate_eq, watchRecord_waiting _ (by rw [hkept, hwd]; decide) (by rw [hsup])]
    split
    next hoff => simp [hsup]
    next hon => simp [hsup]
  · rw [hw, if_neg (by decide), hwd, if_neg (by decide)] at hsup
    rw [allocate_eq, watchRecord_marked _ (by rw [hkept, hwd]; decide) (by rw [hsup])]
    simp
  · rw [hw, if_pos rfl] at hsup
    rw [allocate_eq]
    by_cases hwd : s.sup.withdrawal = .none
    · rw [watchRecord, if_pos (by rw [hkept, hwd]), hkept]
      exact ⟨hd, hwd⟩
    · rw [watchRecord_none _ (by rw [hkept]; exact hwd) (by rw [hsup]), hsup]
      exact ⟨rfl, rfl⟩

end Sys2Proof.Machine
end

section
/-! PROOFS. The pilot's periods, silence, edges and hold (R23 to R25), and the end of a phase window (R26). -/

namespace Sys2Proof.Machine

/-! ## The hold and its edges (R25) -/

theorem noteEdge_eq (x : Sup) : noteEdge x = { x with edgeSeen := if x.holdTimer = .stopped then x.edgeSeen else true } := by
  cases h : x.holdTimer <;> simp [noteEdge, h, Timer.isRunning]
  rw [← h]

theorem startHold_eq (x : Sup) : startHold x = { x with
    holdTimer := if x.holdTimer = .stopped ∧ x.decoded = true then .running 200 else x.holdTimer
    edgeSeen := if x.holdTimer = .stopped ∧ x.decoded = true then false else x.edgeSeen } := by
  by_cases h : x.holdTimer = .stopped ∧ x.decoded = true
  · obtain ⟨ht, hd⟩ := h
    simp [startHold, ht, hd, Timer.isRunning, Config.pilotHoldMs]
  · rw [if_neg h, if_neg h, startHold]
    split
    next => rfl
    next hstopped =>
      split
      next hd => exact absurd ⟨by simpa [Timer.isRunning_iff] using hstopped, hd⟩ h
      next => rfl

/-! ## A pilot state put in force (R24, R25) -/

section
variable {s : State} {pilot : Pilot} {i : Nat}

theorem putPilot_sup (pilot : Pilot) (i : Nat) (s : State) :
    (putPilot pilot i s).sup = { s.sup with pilot := pilot, iPil := i } := by simp [putPilot]

theorem putPilot_rest (pilot : Pilot) (i : Nat) (s : State) : putPilot pilot i s = { s with
    sup := (putPilot pilot i s).sup, portV := (putPilot pilot i s).portV, portP := (putPilot pilot i s).portP,
    portF := (putPilot pilot i s).portF } := by
  rw [putPilot, raiseIf]
  split <;> rfl

theorem putPilot_same (h : pilot = s.sup.pilot) : (putPilot pilot i s).portV = s.portV
    ∧ (putPilot pilot i s).portP = s.portP ∧ (putPilot pilot i s).portF = s.portF := by
  rw [putPilot, raiseIf, if_neg (by simpa using h)]
  exact ⟨rfl, rfl, rfl⟩

theorem putPilot_told (h : pilot ≠ s.sup.pilot) : ToldAll .pilotChange s (putPilot pilot i s) := by
  rw [putPilot, raiseIf, if_pos (by simpa using h)]
  exact raise_toldAll_of_grows _ (.of_eq (by simp))

end

/-! ## Periods (R23, R24) -/

theorem pilotOf_eq (d : Nat) : pilotOf d =
    if d < 80 then .fault else if d ≤ 99 then .pause else if d ≤ 960 then .offer else .fault := by
  simp only [pilotOf, show d < 100 ↔ d ≤ 99 by omega]

theorem currentOf_eq (d : Nat) : currentOf d = if pilotOf d = .offer then min 640 ((d - 100) * 4 / 5) else 0 := by
  by_cases hlow : d < 80
  · simp [currentOf, pilotOf, hlow, show ¬ 100 ≤ d by omega]
  · by_cases hpause : d < 100
    · simp [currentOf, pilotOf, hlow, hpause, show ¬ 100 ≤ d by omega]
    · by_cases hhigh : d ≤ 960 <;> simp [currentOf, pilotOf, hlow, hpause, hhigh, show 100 ≤ d by omega]

theorem addDuty_length (h : List Nat) (d : Nat) : (addDuty h d).length = min 8 (h.length + 1) := by
  rw [addDuty, List.length_drop, List.length_append, List.length_singleton]
  omega

/-- The state in which a valid period's duty stands in the history. -/
def dutyAdded (period high : Nat) (s : State) : State := { s with sup := { s.sup with
  history := addDuty s.sup.history (dutyOf period high), silenceTimer := .running 200,
  edgeSeen := if s.sup.holdTimer = .stopped then s.sup.edgeSeen else true } }

theorem pilotPeriodDone_invalid {period : Nat} (high : Nat) (s : State)
    (h : ¬ (450 * period ≤ 1000000000 ∧ 1000000000 ≤ 550 * period)) :
    pilotPeriodDone period high s = s.setSup (startHold { noteEdge s.sup with history := [] }) := by
  rw [pilotPeriodDone, validPeriod, if_neg (by simpa using h)]

theorem pilotPeriodDone_valid {period : Nat} (high : Nat) (s : State)
    (h : 450 * period ≤ 1000000000 ∧ 1000000000 ≤ 550 * period) :
    pilotPeriodDone period high s = if 7 ≤ s.sup.history.length then decodePilot (dutyAdded period high s)
      else dutyAdded period high s := by
  have hlen : (addDuty s.sup.history (dutyOf period high)).length = 8 ↔ 7 ≤ s.sup.history.length := by
    rw [addDuty_length]
    omega
  rw [pilotPeriodDone, validPeriod, if_pos (by simpa using h), noteEdge_eq]
  exact if_congr hlen rfl rfl

theorem pilotLost_running {s : State} (h : s.sup.holdTimer ≠ .stopped) : pilotLost s =
    putPilot (if s.sup.edgeSeen then .fault else .absent) 0
      (s.setSup { s.sup with holdTimer := .stopped, decoded := false, edgeSeen := false }) :=
  if_pos ((Timer.isRunning_iff _).2 h)

/-! ## Phase voltages (R26) -/

theorem lowest_spec (l : List Nat) (h : l ≠ []) : lowest l ∈ l ∧ ∀ u ∈ l, lowest l ≤ u := by
  induction l with
  | nil => exact absurd rfl h
  | cons u l ih =>
    cases l with
    | nil => simp [lowest]
    | cons v l =>
      obtain ⟨hmem, hle⟩ := ih (by simp)
      rw [lowest]
      · refine ⟨?_, fun w hw => ?_⟩
        · rcases min_choice u (lowest (v :: l)) with hm | hm <;> rw [hm]
          · exact List.mem_cons_self
          · exact List.mem_cons_of_mem _ hmem
        · rcases List.mem_cons.1 hw with rfl | hw
          · exact Nat.min_le_left _ _
          · exact le_trans (Nat.min_le_right _ _) (hle w hw)
      · simp

/-- Settles O23: periods by their validity and the history's length, the hold by its timer, a window by its present phases. -/
theorem pilotAndPhases : Obligations.PilotAndPhases := by
  unfold Obligations.PilotAndPhases
  refine ⟨fun period high s hp => ⟨fun hv => ?_, fun hv hlen => ?_, fun hv hlen => ?_⟩,
    fun s hp => ⟨?_, ?_, fun h => ?_, fun h => ?_⟩, fun u1 u2 u3 s hp => ?_⟩
  · rw [exec]
    refine live_becomes hp ?_
    rw [pilotPeriodDone_invalid _ _ hv, startHold_eq, noteEdge_eq]
    rfl
  · rw [exec]
    refine live_becomes hp ?_
    rw [pilotPeriodDone_valid _ _ hv, if_neg (by omega)]
    rfl
  · have hdone : pilotPeriodDone period high s = decodePilot (dutyAdded period high s) := by
      rw [pilotPeriodDone_valid _ _ hv, if_pos hlen]
    have hlength : (addDuty s.sup.history (dutyOf period high)).length = 8 := by
      rw [addDuty_length]
      omega
    intro d pilot
    have hpilot : pilotOf ((dutyAdded period high s).sup.history.sum / 8) = pilot := pilotOf_eq d
    refine ⟨_, by rw [exec]; exact live_becomes hp hdone, ?_⟩
    rw [decodePilot, hpilot, currentOf_eq, hpilot]
    refine ⟨putPilot_rest _ _ _, putPilot_sup _ _ _, hlength, fun h => putPilot_same (by exact h), fun h => ?_, ?_⟩
    · exact (putPilot_told (by exact h)).after (.of_eq fun p => by cases p <;> rfl)
    · exact ((Grows.of_eq fun p => by cases p <;> rfl).trans (putPilot_grows _ _ _)).portsKept
  · rw [exec]
    refine live_becomes hp ?_
    rw [pilotSilent, startHold_eq]
    simp only [Timer.isRunning_iff, ne_eq, ite_not]
    rfl
  · rw [exec]
    refine live_becomes hp ?_
    rw [noteEdge_eq]
    rfl
  · rw [exec]
    exact live_becomes hp (by simp [pilotLost, h, Timer.isRunning])
  · intro pilot
    refine ⟨_, by rw [exec]; exact live_becomes hp (pilotLost_running h), ?_⟩
    refine ⟨putPilot_rest _ _ _, putPilot_sup _ _ _, fun h => putPilot_same (by exact h), fun h => ?_, ?_⟩
    · exact (putPilot_told (by exact h)).after (.of_eq (by simp))
    · exact ((Grows.of_eq (by simp)).trans (putPilot_grows _ _ _)).portsKept
  · refine ⟨_, by rw [exec]; exact live_becomes hp rfl, rfl, fun h => ?_, fun h => lowest_spec _ h⟩
    exact congrArg lowest h

end Sys2Proof.Machine
end

section
/-! PROOFS. The grid budget (R40 to R42), and the mode and source of a record (R43, R44, R46, Table 3-3). -/

namespace Sys2Proof.Machine

/-! ## The budget -/

/-- What P_in needs (R41). -/
def InputAllowed (s : State) : Prop :=
  s.ses.session = .opened ∧ (s.iso.grade = .good ∨ s.iso.grade = .warning) ∧ s.iso.lockout = false
    ∧ s.alc.stage = .available ∧ s.sup.demand = .ready ∧ s.sup.withdrawal = .none ∧ s.commission = false

theorem insulationOk_iff (s : State) :
    insulationOk s = true ↔ (s.iso.grade = .good ∨ s.iso.grade = .warning) ∧ s.iso.lockout = false := by
  simp [insulationOk, Grade.isProven_iff]

theorem inputAllowed_iff (s : State) : inputAllowed s = true ↔ InputAllowed s := by
  simp [inputAllowed, InputAllowed, insulationOk_iff, and_assoc]

theorem bGrid_allowed {s : State} (h : InputAllowed s) : bGrid s =
    min (pSup s) (min (s.entry 3).w0.toNat (if s.threePhases = true then 22000 else 7400)) * (s.entry 3).w1.toNat / 1000 := by
  rw [bGrid, pIn, if_pos ((inputAllowed_iff s).2 h)]
  rfl

theorem bGrid_refused {s : State} (h : ¬ InputAllowed s) : bGrid s = 0 := by
  rw [bGrid, pIn, if_neg (by rwa [inputAllowed_iff])]
  simp

/-! ## The choice -/

/-- The bus live flag against the mode in force (R46). -/
def Clashes (s : State) : Prop :=
  s.alc.record.mode = .charge ∧ busLive s = false ∨ s.alc.record.mode = .busSupply ∧ busLive s = true

theorem contradiction_iff (s : State) : contradiction s = true ↔ Clashes s := by
  cases h : s.alc.record.mode <;> simp [contradiction, Clashes, h]

/-- What R44 asks of the source PACK. -/
def PackFits (s : State) : Prop :=
  busLive s = true ∧ heatingPermitted s = true ∧ heatingAllowed s = true ∧ (s.iso.grade = .good ∨ s.iso.grade = .warning)
    ∧ s.iso.lockout = false ∧ s.commission = false

theorem packApplies_iff (s : State) : packApplies s = true ↔ PackFits s := by
  simp [packApplies, PackFits, insulationOk_iff, and_assoc]

theorem offChoice_spec (s : State) : (offChoice s).mode = .off ∧ (PackFits s → (offChoice s).source = .pack)
    ∧ (¬ PackFits s → (offChoice s).source = .none) := by
  by_cases h : PackFits s
  · rw [offChoice, if_pos ((packApplies_iff s).2 h)]
    exact ⟨rfl, fun _ => rfl, fun hno => absurd h hno⟩
  · rw [offChoice, if_neg (by rwa [packApplies_iff])]
    exact ⟨rfl, fun hyes => absurd hyes h, fun _ => rfl⟩

section
variable {s : State}

/-- Without a contradiction and outside the gap the grid budget and the bus decide. -/
theorem choose_free (hcon : ¬ Clashes s) (hgap : s.alc.changeover = .stopped) : choose s =
    if 0 < bGrid s ∧ busLive s = true then ⟨.charge, .grid, bGrid s⟩
    else if 0 < bGrid s ∧ busLive s = false ∧ heatDemand s = true then ⟨.busSupply, .grid, bGrid s⟩ else offChoice s := by
  rw [choose, if_neg (by rwa [contradiction_iff]), if_neg (by simp [hgap, Timer.isRunning])]

theorem choose_off (h : Clashes s ∨ s.alc.changeover ≠ .stopped ∨ bGrid s = 0 ∨ busLive s = false ∧ heatDemand s = false) :
    choose s = offChoice s := by
  by_cases hcon : Clashes s
  · rw [choose, if_pos ((contradiction_iff s).2 hcon)]
  · by_cases hgap : s.alc.changeover = .stopped
    · rw [choose_free hcon hgap]
      rcases (h.resolve_left hcon).resolve_left (by simp [hgap]) with hzero | ⟨hdead, hcold⟩
      · simp [hzero]
      · simp [hdead, hcold]
    · rw [choose, if_neg (by rwa [contradiction_iff]), if_pos ((Timer.isRunning_iff _).2 hgap)]

end

/-- Settles O26: P_in by its conditions, and the rows of Table 3-3. -/
theorem budgetAndModeChosen : Obligations.BudgetAndModeChosen := by
  unfold Obligations.BudgetAndModeChosen
  refine ⟨fun s => ⟨fun h => bGrid_allowed h, fun h => bGrid_refused h⟩, fun s => ?_⟩
  intro r live contradiction gap pack
  have hcon : contradiction ↔ Clashes s := by
    simp only [contradiction, live, Clashes, busLive, Bool.not_eq_true]
  have hmode : r.mode = (choose s).mode := rfl
  have hsource : r.source = (choose s).source := rfl
  rw [hmode, hsource]
  refine ⟨fun hno hgap hgrid hlive => ?_, fun hno hgap hgrid hdead hheat => ?_, fun h => ?_⟩
  · rw [choose_free (by rwa [← hcon]) (by simpa [gap] using hgap), if_pos ⟨hgrid, hlive⟩]
    exact ⟨rfl, rfl⟩
  · have hdead' : busLive s = false := by simpa [live, busLive] using hdead
    rw [choose_free (by rwa [← hcon]) (by simpa [gap] using hgap), if_neg (by simp [hdead']), if_pos ⟨hgrid, hdead', hheat⟩]
    exact ⟨rfl, rfl⟩
  · rw [choose_off]
    · exact offChoice_spec s
    · simpa [hcon, gap, live, busLive] using h

end Sys2Proof.Machine
end

section
/-! PROOFS. One allocation interval: the record in force, its mirrors, and the quiet window's grant (R38, R45, R54, R57, R71, R72). -/

namespace Sys2Proof.Machine

/-! ## The mirrors of a record (R54, Table 12-4) -/

theorem Source.code_lt (x : Source) : x.code < 2 ^ 2 := by cases x <;> decide
theorem Mode.code_lt (x : Mode) : x.code < 2 ^ 2 := by cases x <;> decide
theorem StageState.code_lt (x : StageState) : x.code < 2 ^ 3 := by cases x <;> decide
theorem StageCause.code_lt (x : StageCause) : x.code < 2 ^ 2 := by cases x <;> decide
theorem Hold.code_lt (x : Hold) : x.code < 2 ^ 2 := by cases x <;> decide

theorem mirror54_fields (r : GrantRecord) :
    field (mirror54Of r).w0 0 2 = r.source.code ∧ field (mirror54Of r).w0 2 2 = r.mode.code
      ∧ field (mirror54Of r).w0 4 3 = r.stage.code ∧ field (mirror54Of r).w0 8 2 = r.cause.code
      ∧ flag (mirror54Of r).w0 7 = false ∧ field (mirror54Of r).w0 10 6 = 0 := by
  have hs := r.source.code_lt
  have hm := r.mode.code_lt
  have ht := r.stage.code_lt
  have hc := r.cause.code_lt
  refine ⟨?_, ?_, ?_, ?_, ?_, ?_⟩ <;> simp only [mirror54Of, field_or, flag_or]
  · rw [field_fieldAt hs (by decide), field_fieldAt_below hm (by decide) (by decide),
      field_fieldAt_below ht (by decide) (by decide), field_fieldAt_below hc (by decide) (by decide)]
    simp
  · rw [field_fieldAt_above hs (by decide) (by decide), field_fieldAt hm (by decide),
      field_fieldAt_below ht (by decide) (by decide), field_fieldAt_below hc (by decide) (by decide)]
    simp
  · rw [field_fieldAt_above hs (by decide) (by decide), field_fieldAt_above hm (by decide) (by decide),
      field_fieldAt ht (by decide), field_fieldAt_below hc (by decide) (by decide)]
    simp
  · rw [field_fieldAt_above hs (by decide) (by decide), field_fieldAt_above hm (by decide) (by decide),
      field_fieldAt_above ht (by decide) (by decide), field_fieldAt hc (by decide)]
    simp
  · rw [flag_fieldAt_above hs (by decide) (by decide), flag_fieldAt_above hm (by decide) (by decide),
      flag_fieldAt_above ht (by decide) (by decide), flag_fieldAt_below hc (by decide) (by decide)]
    simp
  · rw [field_fieldAt_above hs (by decide) (by decide), field_fieldAt_above hm (by decide) (by decide),
      field_fieldAt_above ht (by decide) (by decide), field_fieldAt_above hc (by decide) (by decide)]
    simp

theorem mirror56_fields (r : GrantRecord) (u : Nat) (ready changeover : Bool) :
    field (mirror56Of r u ready changeover).w2 0 2 = r.hold.code ∧ flag (mirror56Of r u ready changeover).w2 2 = r.rest
      ∧ flag (mirror56Of r u ready changeover).w2 3 = r.window ∧ flag (mirror56Of r u ready changeover).w2 4 = ready
      ∧ flag (mirror56Of r u ready changeover).w2 5 = changeover ∧ field (mirror56Of r u ready changeover).w2 6 10 = 0 := by
  have hh := r.hold.code_lt
  refine ⟨?_, ?_, ?_, ?_, ?_, ?_⟩ <;> simp only [mirror56Of, field_or, flag_or]
  · rw [field_fieldAt hh (by decide), field_flagAt_other (by decide) (by decide), field_flagAt_other (by decide) (by decide),
      field_flagAt_other (by decide) (by decide), field_flagAt_other (by decide) (by decide)]
    simp
  · simp [flag_fieldAt_above hh, flag_flagAt]
  · simp [flag_fieldAt_above hh, flag_flagAt]
  · simp [flag_fieldAt_above hh, flag_flagAt]
  · simp [flag_fieldAt_above hh, flag_flagAt]
  · rw [field_fieldAt_above hh (by decide) (by decide), field_flagAt_other (by decide) (by decide),
      field_flagAt_other (by decide) (by decide), field_flagAt_other (by decide) (by decide),
      field_flagAt_other (by decide) (by decide)]
    simp

/-! ## The steps before the publication (R46, R71) -/

/-- The inputs of the record: the window granted by the interval, and the cause of a contradiction. -/
def intervalInputs (s : State) : State := contradictionStep (windowStep s)

theorem clashes_windowStep (s : State) : Clashes (windowStep s) ↔ Clashes s := by simp [Clashes, busLive]

theorem intervalInputs_alc (s : State) : (intervalInputs s).alc = { s.alc with
    window := if s.alc.window = .waiting ∧ s.alc.hold ≠ .held then .granted else s.alc.window
    cause := if contradiction s = true then .bus else s.alc.cause } := by
  have hsame : contradiction (windowStep s) = contradiction s := by simp [contradiction, busLive]
  rw [intervalInputs, contradictionStep_alc, hsame, windowStep_alc]

theorem intervalInputs_record (s : State) :
    computeRecord { s with alc := (intervalInputs s).alc } = computeRecord (intervalInputs s) :=
  computeRecord_inputs ⟨by simp [intervalInputs], by simp [intervalInputs], by simp [intervalInputs], by simp [intervalInputs],
    by simp [intervalInputs], rfl, by simp [intervalInputs], by simp [intervalInputs]⟩

theorem intervalInputs_told {s : State} (h : Clashes s) : ToldAll .stageFault s (intervalInputs s) := by
  rw [intervalInputs, contradictionStep, if_pos ((contradiction_iff _).2 ((clashes_windowStep s).2 h))]
  exact raise_toldAll_of_grows _ (.of_eq (by simp))

theorem intervalInputs_quiet {s : State} (h : ¬ Clashes s) : intervalInputs s = windowStep s := by
  rw [intervalInputs, contradictionStep, if_neg (by rwa [contradiction_iff, clashes_windowStep])]

/-! ## The publication -/

theorem publish_alc (r : GrantRecord) (s : State) :
    (publish r s).alc.record = r ∧ (publish r s).alc.link = linkOf r
      ∧ (publish r s).alc.changeover = (if r.mode = .off ∧ s.alc.record.mode ≠ .off then .running 500 else s.alc.changeover)
      ∧ (publish r s).alc.fresh = (if r.mode = .charge ∧ s.alc.record.mode = .charge then s.alc.fresh else true)
      ∧ (publish r s).alc.freshTimer = (if r.mode = .charge then
          (if s.alc.record.mode = .charge then s.alc.freshTimer else .running 2000) else .stopped)
      ∧ (publish r s).alc.mirror54 = mirror54Of r ∧ (publish r s).alc.mirror55 = mirror55Of r
      ∧ (publish r s).alc.mirror56
        = mirror56Of r s.iso.uBus (s.sup.demand == .ready) (publish r s).alc.changeover.isRunning := by
  refine ⟨rfl, rfl, rfl, ?_, ?_, rfl, rfl, rfl⟩ <;>
    by_cases hnew : r.mode = .charge <;> by_cases hold : s.alc.record.mode = .charge <;>
    simp [publish, freshAfter, hnew, hold, Config.freshnessMs]

theorem publish_htr (r : GrantRecord) (s : State) : (publish r s).htr = { s.htr with inbox := s.htr.inbox ++ [r] } := rfl

/-- The window's grant at the publication (R71, R72). -/
theorem published_window (s : State) :
    let settles := s.alc.window = .waiting ∧ (s.alc.hold ≠ .held ∨ s.alc.resting = true)
    (published s).alc.window = (if settles then .granted else s.alc.window)
      ∧ (published s).iso = (if settles then { s.iso with
          phase := .settleA, bridge := .a, phaseTimer := .running 400, sumUpA := 0, sumUnA := 0, countA := 0, sumUpB := 0,
          sumUnB := 0, countB := 0 } else s.iso) := by
  intro settles
  have hb : published s = windowAtPublication (s.alc.window == .waiting) (publish (computeRecord (intervalInputs s)) (intervalInputs s)) := rfl
  have hwindow : (publish (computeRecord (intervalInputs s)) (intervalInputs s)).alc.window
      = if s.alc.window = .waiting ∧ s.alc.hold ≠ .held then .granted else s.alc.window := by
    simp [intervalInputs_alc]
  have hrest : (publish (computeRecord (intervalInputs s)) (intervalInputs s)).alc.record.rest = s.alc.resting := by
    show (intervalInputs s).alc.resting = _
    rw [intervalInputs_alc]
  have hiso : (intervalInputs s).iso = s.iso := by simp [intervalInputs]
  rw [hb, windowAtPublication, hwindow, hrest]
  by_cases hw : s.alc.window = .waiting
  · by_cases hh : s.alc.hold = .held
    · by_cases hr : s.alc.resting = true
      · simp [settles, hw, hh, hr, grantWindow, startSettle, hiso, Config.settleMs]
      · simp [settles, hw, hh, hr, intervalInputs_alc, hiso]
    · simp [settles, hw, hh, startSettle, intervalInputs_alc, hiso, Config.settleMs]
  · simp [settles, hw, intervalInputs_alc, hiso]

theorem intervalInputs_grows (s : State) : Grows s (intervalInputs s) := by
  have hwindow : Grows s (windowStep s) := .of_eq (by simp)
  exact hwindow.trans (contradictionStep_grows _)

theorem published_grows (s : State) : Grows (intervalInputs s) (published s) := .of_eq (by simp [published, intervalInputs])

/-- Settles O27: the record of the interval's inputs, as the publication puts it in force. -/
theorem intervalPublishes : Obligations.IntervalPublishes := by
  unfold Obligations.IntervalPublishes
  intro s hp grants clash r settles
  have hinputs : (intervalInputs s).alc = { s.alc with
      window := if grants then .granted else s.alc.window, cause := if clash then .bus else s.alc.cause } := by
    rw [intervalInputs_alc]
    by_cases hc : clash
    · simp [hc, (contradiction_iff s).2 hc, grants]
    · simp [hc, mt (contradiction_iff s).1 hc, grants]
  have hr : computeRecord (intervalInputs s) = r := by
    rw [← intervalInputs_record, hinputs]
  have hpub : published s = windowAtPublication (s.alc.window == .waiting) (publish r (intervalInputs s)) := by rw [← hr]; rfl
  obtain ⟨hwindow, hiso⟩ := published_window s
  obtain ⟨hrecord, hlink, hgap, hfresh, htimer, h54, h55, h56⟩ := publish_alc r (intervalInputs s)
  obtain ⟨f54s, f54m, f54t, f54c, f54z, f54r⟩ := mirror54_fields r
  obtain ⟨f56h, f56r, f56w, f56d, f56g, f56z⟩ := mirror56_fields r s.iso.uBus (s.sup.demand == .ready)
    (publish r (intervalInputs s)).alc.changeover.isRunning
  have hstage : r.stage = s.alc.stage := rfl
  have hcause : r.cause = if clash then .bus else s.alc.cause := rfl
  have hhold : r.hold = s.alc.hold := rfl
  have hrest : r.rest = s.alc.resting := rfl
  have hquiet : r.window = decide (s.alc.window = .granted ∨ grants) := by
    show ((if grants then QuietWindow.granted else s.alc.window) == .granted) = _
    by_cases hg : grants <;> simp [hg, Bool.beq_eq_decide_eq]
  obtain ⟨hrec0, hgap0, hfresh0, htimer0⟩ : (intervalInputs s).alc.record = s.alc.record
      ∧ (intervalInputs s).alc.changeover = s.alc.changeover ∧ (intervalInputs s).alc.fresh = s.alc.fresh
      ∧ (intervalInputs s).alc.freshTimer = s.alc.freshTimer := by rw [hinputs]; exact ⟨rfl, rfl, rfl, rfl⟩
  rw [hrec0, hgap0] at hgap
  rw [hrec0, hfresh0] at hfresh
  rw [hrec0, htimer0] at htimer
  have hcause0 : (publish r (intervalInputs s)).alc.cause = if clash then .bus else s.alc.cause := by simp [hinputs]
  have hdemand0 : (intervalInputs s).sup = s.sup := by simp [intervalInputs]
  have hiso0 : (intervalInputs s).iso = s.iso := by simp [intervalInputs]
  rw [hdemand0, hiso0] at h56
  have halc : (allocate s).alc = (published s).alc := by rw [allocate_eq, (watchRecord_keeps _).2.2.2.2.2.2.2.2.1]
  have hshown : (published s).alc = { (publish r (intervalInputs s)).alc with window := (published s).alc.window } := by
    rw [hpub, windowAtPublication]
    split
    · rfl
    · split <;> rfl
  have hgrows := ((intervalInputs_grows s).trans (published_grows s)).trans (watchRecord_grows (published s))
  refine ⟨_, by rw [exec]; exact live_becomes hp rfl, ?_⟩
  rw [halc, hshown]
  dsimp only
  rw [h54, h55, h56, f54s, f54m, f54t, f54c, f56h, hstage, hcause, hhold]
  refine ⟨hrecord, hlink, ?_, hgap, hfresh, htimer, rfl, rfl, ⟨?_, ?_, ?_, ?_, f54z, f54r⟩, rfl, rfl, rfl,
    ⟨?_, f56r.trans hrest, f56w.trans hquiet, ?_, ?_, f56z⟩, hwindow, ?_, ?_, ?_, ?_, ?_, ?_, ?_, ?_, ?_, ?_, ?_, ?_, ?_,
    hgrows.portsKept, ?_⟩
  · show (watchRecord (published s)).htr = _
    simp [hpub, publish_htr, intervalInputs]
  · cases r.source <;> rfl
  · cases r.mode <;> rfl
  · cases s.alc.stage <;> rfl
  · rw [hcause0]
    by_cases hc : clash <;> simp [hc] <;> cases s.alc.cause <;> rfl
  · cases s.alc.hold <;> rfl
  · rw [f56d, Bool.beq_eq_decide_eq]
  · rw [f56g, Bool.eq_iff_iff, Timer.isRunning_iff, decide_eq_true_iff]
  · rw [allocate_eq, (watchRecord_keeps _).2.2.2.2.2.2.2.2.2.2.1, hiso]
  · exact hcause0
  · exact fun hc => ((intervalInputs_told hc).grow (published_grows s)).grow (watchRecord_grows _)
  · simp [hinputs]
  · simp [hinputs]
  · simp [hinputs]
  · intro hnone
    have hsame : (published s).sup.withdrawal = .none := by rw [published_sup, hnone]
    rw [allocate_eq, watchRecord, if_pos hsame, published_sup]
  · simp
  · simp
  · simp
  · simp
  · simp
  · intro hc
    have hports : ∀ p, (allocate s).port p = s.port p := fun p => by
      rw [allocate_eq]; simp [hpub, intervalInputs_quiet hc]
    exact ⟨hports .V, hports .P, hports .F⟩
  · exact ⟨by simp, by simp, by simp, by simp, by simp, by simp, by simp, by simp⟩

end Sys2Proof.Machine
end

section
/-! PROOFS. The computation of a result from the bridge voltages (R110). -/

namespace Sys2Proof.Machine

theorem withoutDivider_le (rdiv x : Nat) : withoutDivider rdiv x ≤ 50000 := by
  unfold withoutDivider; split <;> omega

/-- One side of the result: 0 below the sense threshold, 50,000 without current in the other side, else the figure less the divider. -/
def sideResult (rdiv sense current x : Nat) : Nat :=
  if sense < 5 then 0 else if current = 0 then 50000 else withoutDivider rdiv x

theorem sideResult_le (rdiv sense current x : Nat) : sideResult rdiv sense current x ≤ 50000 := by
  have := withoutDivider_le rdiv x
  unfold sideResult; (repeat' split) <;> omega

theorem sideResult_low {rdiv sense current x : Nat} (h : sense < 5) : sideResult rdiv sense current x = 0 := if_pos h

theorem sideResult_open {rdiv sense current x : Nat} (h : 5 ≤ sense) (hc : current = 0) :
    sideResult rdiv sense current x = 50000 :=
  (if_neg (by omega)).trans (if_pos hc)

theorem sideResult_divided {rdiv sense current x : Nat} (h : 5 ≤ sense) (hc : 0 < current) :
    sideResult rdiv sense current x = if rdiv ≤ x then 50000 else min 50000 (x * rdiv / (rdiv - x)) :=
  (if_neg (by omega)).trans (if_neg (by omega))

theorem bridgeResult_eq (rref rdiv upA unA upB unB : Nat) :
    bridgeResult rref rdiv upA unA upB unB = if upB * unA ≤ upA * unB then none else
      let d := upB * unA - upA * unB
      let rp := sideResult rdiv upB unB (rref * d / (unB * (unA + upA)))
      let rn := sideResult rdiv unA upA (rref * d / (upA * (unB + upB)))
      some (rp, rn, min rp rn, min 65535 (min rp rn * 10000 / (upB + unB))) := rfl

/-- Settles O40: each side by its sense voltage and the other side's current. -/
theorem bridgeResultComputed : Obligations.BridgeResultComputed := by
  unfold Obligations.BridgeResultComputed
  intro rref rdiv upA unA upB unB
  rw [bridgeResult_eq]
  by_cases hd : upB * unA ≤ upA * unB
  · simp [hd]
  · refine ⟨by simp [hd], fun rp rn rIso f h => ?_⟩
    have hpos : 0 < upB * unA := by omega
    simp only [hd, if_false, Option.some.injEq, Prod.mk.injEq] at h
    obtain ⟨rfl, rfl, rfl, rfl⟩ := h
    exact ⟨Nat.pos_of_mul_pos_right hpos, Nat.pos_of_mul_pos_left hpos, sideResult_le _ _ _ _, sideResult_le _ _ _ _, rfl, rfl,
      sideResult_low, sideResult_low, sideResult_open, sideResult_open, sideResult_divided, sideResult_divided⟩

end Sys2Proof.Machine
end

section
/-! PROOFS. The safety conditions in the reset state. -/

namespace Sys2Proof.Machine

theorem reset_planSafe : PlanSafe State.reset := ⟨by decide, by decide⟩

theorem reset_linesSafe : LinesSafe State.reset := by
  have hport : PortState.reset.LineSafe := ⟨fun _ => ⟨by decide, by decide⟩, fun h => absurd h (by decide)⟩
  exact ⟨hport, hport, hport⟩

theorem reset_holdSafe : HoldSafe State.reset := ⟨by decide, by decide, by decide, by decide⟩

theorem reset_zone_cold : ∀ z : Fin 8, (State.reset.zone z).state ≠ .energized ∧ (State.reset.zone z).state ≠ .checking := by
  decide

theorem reset_zonesSound : ZonesSound State.reset := by
  refine ⟨fun z => iff_of_false (reset_zone_cold z).2 ?_, fun z => iff_of_false (reset_zone_cold z).1 List.not_mem_nil,
    List.nodup_nil⟩
  rintro ⟨ck, hck, -⟩
  exact absurd hck (by simp [State.reset, Htr.reset])

theorem reset_heatSafe : HeatSafe State.reset := fun _ z => reset_zone_cold z

theorem reset_drawSafe : DrawSafe State.reset := ⟨fun _ h => absurd h List.not_mem_nil, by decide⟩

theorem reset_accountsSound : AccountsSound State.reset :=
  ⟨by decide, by decide, fun _ h => absurd h List.not_mem_nil, by decide, by decide, by decide, by decide, by decide, by decide⟩

/-- Settles O60: one condition after the other, on the start values. -/
theorem resetIsSafe : Obligations.ResetIsSafe :=
  ⟨reset_planSafe, reset_linesSafe, fun h => absurd h (by decide), reset_holdSafe, reset_zonesSound, reset_heatSafe,
    reset_drawSafe, reset_accountsSound⟩

end Sys2Proof.Machine
end

section
/-! PROOFS. The monitor's timers, phases and samples (R102, R103, R105, R107). -/

namespace Sys2Proof.Machine

theorem exec_deadBusExpiry {s : State} (hp : s.powered = true) : exec .deadBusExpiry s = .next (if s.iso.deadTimer = .stopped then s
    else { s with iso := { s.iso with deadTimer := .stopped, longDead := true } }) := by
  rw [exec]
  refine live_becomes hp ?_
  by_cases h : s.iso.deadTimer = .stopped
  · simp [h, Timer.isRunning]
  · exact (if_pos ((Timer.isRunning_iff _).2 h)).trans (if_neg h).symm

/-! ## The period timer (R102, R103) -/

/-- The monitor with the period of entry 7 taken into use. -/
def periodTaken (s : State) : State :=
  testOverdue (s.setIso { s.iso with period := periodEntry s, periodTimer := .running (1000 * periodEntry s) })

theorem periodTaken_iso (s : State) : (periodTaken s).iso = { s.iso with
    period := (s.entry 7).w2.toNat, periodTimer := .running (1000 * (s.entry 7).w2.toNat)
    overdue := decide (3 * (s.entry 7).w2.toNat * 100 ≤ s.iso.age) } :=
  (testOverdue_spec _).1

/-- The re-test suspends a HELD hold exactly when the condition becomes true (R65, R102). -/
theorem testOverdue_alc (s : State) : (testOverdue s).alc
    = if s.alc.hold = .held ∧ (testOverdue s).iso.overdue = true ∧ s.iso.overdue = false then { s.alc with hold := .suspended }
      else s.alc := by
  rw [(testOverdue_spec s).1]
  have hsuspend := (suspendHold_spec (s.setIso { s.iso with overdue := decide (overdueLimit s.iso ≤ s.iso.age) })).2.1
  unfold testOverdue
  dsimp only
  by_cases hnew : (decide (overdueLimit s.iso ≤ s.iso.age) && !s.iso.overdue) = true
  · rw [if_pos hnew, hsuspend]
    simp only [Bool.and_eq_true, Bool.not_eq_true'] at hnew
    simp [hnew]
  · rw [if_neg hnew]
    simp only [Bool.and_eq_true, Bool.not_eq_true'] at hnew
    exact (if_neg fun h => hnew h.2).symm

theorem periodExpired_eq (s : State) : periodExpired s
    = if s.iso.phase = .idle ∧ s.iso.energizedLast = true ∧ s.iso.localization.suspendsPeriodic = false then
        requestMeasurement .periodic (periodTaken s) else periodTaken s := by
  have h : ((periodTaken s).iso.phase == .idle && (periodTaken s).iso.energizedLast
      && !(periodTaken s).iso.localization.suspendsPeriodic) = decide (s.iso.phase = .idle ∧ s.iso.energizedLast = true
        ∧ s.iso.localization.suspendsPeriodic = false) := by
    rw [periodTaken_iso]
    simp [Bool.decide_and, Bool.and_assoc, Bool.beq_eq_decide_eq]
  show (if ((periodTaken s).iso.phase == .idle && (periodTaken s).iso.energizedLast
      && !(periodTaken s).iso.localization.suspendsPeriodic) = true then _ else _) = _
  rw [h]
  simp only [decide_eq_true_eq]
  rfl

theorem periodTaken_keeps (s : State) : (periodTaken s).iso.grade = s.iso.grade ∧ (periodTaken s).iso.age = s.iso.age
    ∧ (periodTaken s).iso.phase = s.iso.phase ∧ (periodTaken s).iso.purpose = s.iso.purpose := by
  rw [periodTaken_iso]; exact ⟨rfl, rfl, rfl, rfl⟩

theorem periodTaken_record (s : State) : (periodTaken s).alc.record = s.alc.record ∧ (periodTaken s).alc.window = s.alc.window :=
  (testOverdue_spec _).2

theorem periodExpired_restKept (s : State) : RestKept s (periodExpired s) :=
  ⟨by simp, by simp, by simp, by simp, by simp, by simp, by simp, by simp⟩

theorem testOverdue_hold_eq (s : State) : (testOverdue s).alc.hold
    = if s.alc.hold = .held ∧ (testOverdue s).iso.overdue = true ∧ s.iso.overdue = false then .suspended else s.alc.hold := by
  conv_lhs => rw [testOverdue_alc]
  split <;> rfl

theorem periodTaken_hold (s : State) : (periodTaken s).alc.hold
    = if s.alc.hold = .held ∧ (periodTaken s).iso.overdue = true ∧ s.iso.overdue = false then .suspended else s.alc.hold :=
  testOverdue_hold_eq _

/-! ## Phases and samples (R107) -/

theorem exec_measurementPhaseEnd {s t : State} (hp : s.powered = true) (h : phaseEnded s = t) :
    exec .measurementPhaseEnd s = .next t := by
  rw [exec]; exact live_becomes hp h

theorem exec_bridgeSample {up un : Nat} {s t : State} (hp : s.powered = true) (h : sampled up un s = t) :
    exec (.bridgeSample up un) s = .next t := by
  rw [exec]; exact live_becomes hp h

/-- Settles O39: the timers by their expiries, the phases and the samples by the phase they find. -/
theorem monitorTimersAndPhases : Obligations.MonitorTimersAndPhases := by
  unfold Obligations.MonitorTimersAndPhases
  refine ⟨fun s hp => ⟨exec_deadBusExpiry hp, periodExpired s, by rw [exec]; exact live_becomes hp rfl, ?_⟩,
    fun up un s hp => ⟨fun h => ?_, fun h => ?_, fun h => ?_, fun h => ?_, fun hA hB => ?_, fun h hc => ?_, fun h hc => ?_⟩⟩
  · have hiso := periodTaken_iso s
    have hhold := periodTaken_hold s
    have hgrows := periodExpired_grows s
    obtain ⟨hgrade, hage, hphase, hpurpose⟩ := periodTaken_keeps s
    obtain ⟨hrecord, hwindow⟩ := periodTaken_record s
    obtain ⟨-, rpurpose, rrestarts, rwindow, rage, rover, rgrade, rperiod, rtimer, rhold, rrecord, -⟩ :=
      requestMeasurement_spec .periodic (periodTaken s)
    have hrest := periodExpired_restKept s
    obtain ⟨hplan, hsup, hhtr, hmtr, hrst, hnv⟩ : (periodExpired s).plan = s.plan ∧ (periodExpired s).sup = s.sup
      ∧ (periodExpired s).htr = s.htr ∧ (periodExpired s).mtr = s.mtr ∧ (periodExpired s).rst = s.rst
      ∧ (periodExpired s).nv = s.nv := by simp
    rw [periodExpired_eq] at hgrows hrest hplan hsup hhtr hmtr hrst hnv ⊢
    by_cases hask : s.iso.phase = .idle ∧ s.iso.energizedLast = true ∧ s.iso.localization.suspendsPeriodic = false
    · rw [if_pos hask] at hgrows hrest hplan hsup hhtr hmtr hrst hnv ⊢
      refine ⟨by rw [rperiod, hiso], by rw [rtimer, hiso], by rw [rage, hage], by rw [rover, hiso],
        fun _ _ _ => ⟨rpurpose, rrestarts, ?_⟩, fun h => absurd hask h, by rw [rhold, rover]; exact hhold, by rw [rgrade, hgrade],
        hhtr, hsup, hplan, hmtr, hrst, hnv, by rw [rrecord, hrecord], hgrows.portsKept, hrest⟩
      rw [hrecord] at rwindow
      split at rwindow
      · next hrest => exact (if_pos hrest).mpr ⟨rwindow.1, rwindow.2.2⟩
      · next hrest => exact (if_neg hrest).mpr rwindow
    · rw [if_neg hask] at hgrows hrest hplan hsup hhtr hmtr hrst hnv ⊢
      exact ⟨by rw [hiso], by rw [hiso], hage, by rw [hiso], fun h1 h2 h3 => absurd ⟨h1, h2, h3⟩ hask,
        fun _ => ⟨hphase, hpurpose, hwindow⟩, hhold, hgrade, hhtr, hsup, hplan, hmtr, hrst, hnv, hrecord, hgrows.portsKept, hrest⟩
  · exact exec_measurementPhaseEnd hp (by rcases h with h | h <;> simp [phaseEnded, h])
  · exact exec_measurementPhaseEnd hp (by simp [phaseEnded, h, Config.sampleMs]; rfl)
  · exact exec_measurementPhaseEnd hp (by simp [phaseEnded, h, Config.settleMs]; rfl)
  · exact exec_measurementPhaseEnd hp (by simp [phaseEnded, h, Config.sampleMs]; rfl)
  · exact exec_bridgeSample hp (by unfold sampled; split <;> simp_all)
  · exact exec_bridgeSample hp (by simp [sampled, h, hc]; rfl)
  · exact exec_bridgeSample hp (by simp [sampled, h, hc]; rfl)

end Sys2Proof.Machine
end

section
/-! PROOFS. The switch report (R76, R109): what moves a zone's switches, and what one report does to the measurement. -/

namespace Sys2Proof.Machine

/-! ## Switch positions -/

theorem switchMap_eq_iff (g h : Htr) : switchMap g = switchMap h ↔ ∀ z, switches g z = switches h z := by
  have hall : ∀ z : Fin 8, z ∈ zoneIds := by decide
  simp only [switchMap, List.map_inj_left, hall, true_implies]

theorem switchMap_ne_iff (g h : Htr) : switchMap g ≠ switchMap h ↔ ∃ z, switches g z ≠ switches h z := by
  rw [ne_eq, switchMap_eq_iff, not_forall]

theorem switches_congr {g h : Htr} {z : Fin 8} (hz : g.zones[z].state = h.zones[z].state) (hc : g.check = h.check) :
    switches g z = switches h z := by
  simp only [switches, hz, hc]

theorem switches_energized {h : Htr} {z : Fin 8} (hz : h.zones[z].state = .energized) : switches h z = (true, true) := by
  simp only [switches, hz]

theorem switches_probed {h : Htr} {z : Fin 8} {b : BeforeProbe} (hz : h.zones[z].state = .probed b) :
    switches h z = (true, false) := by
  simp only [switches, hz]

theorem switches_checking {h : Htr} {z : Fin 8} {ck : CheckRecord} (hz : h.zones[z].state = .checking) (hc : h.check = some ck) :
    switches h z = if ck.zone = z then (ck.pulseOn, ck.pulseOn) else (false, false) := by
  simp only [switches, hz, hc]

/-- The states in which both switches are open whatever the check record says. -/
def ZoneState.isOpen : ZoneState → Bool
  | .energized | .checking | .probed _ => false
  | _ => true

theorem switches_open {h : Htr} {z : Fin 8} (hz : h.zones[z].state.isOpen = true) : switches h z = (false, false) := by
  unfold switches
  cases hs : h.zones[z].state <;> simp_all [ZoneState.isOpen]

theorem BeforeProbe.back_isOpen (b : BeforeProbe) : b.back.isOpen = true := by cases b <;> rfl

theorem restingState_isOpen (d : Nat) : (restingState d).isOpen = true := by unfold restingState; split <;> rfl

/-! ## One report -/

theorem SwitchesReported.of_same {moved : Prop} {s t : State} (hm : ¬ moved) (hi : t.iso = s.iso) (ha : t.alc = s.alc) :
    SwitchesReported moved s t :=
  ⟨fun _ => ⟨hi, ha⟩, fun h => absurd h.1 hm, fun h => absurd h.1 hm⟩

/-- A report reads the monitor and the allocator before it, and both with the check record after it. -/
theorem SwitchesReported.congr {p q : Prop} {s s' t t' : State} (h : SwitchesReported p s t) (hpq : p ↔ q)
    (si : s'.iso = s.iso) (sa : s'.alc = s.alc) (ti : t'.iso = t.iso) (ta : t'.alc = t.alc)
    (tc : t'.htr.check = t.htr.check) : SwitchesReported q s' t' := by
  rw [propext hpq] at h
  unfold SwitchesReported at h ⊢
  rwa [si, sa, ti, ta, tc]

theorem startWaitingPulse_waits {h : Htr} {ck : CheckRecord} (hc : h.startWaitingPulse.check = some ck) : ck.waiting = false := by
  unfold Htr.startWaitingPulse at hc
  simp only [Option.map_eq_some_iff] at hc
  obtain ⟨old, -, rfl⟩ := hc
  split
  · rfl
  · next hw => simpa using hw

theorem switchChange_reported (s : State) : SwitchesReported True s (switchChange s) := by
  refine ⟨fun h => ?_, fun h hr => ?_, fun h hr => ?_⟩
  · have hq : ¬ s.iso.phase.inFlight = true := fun hf => h ⟨trivial, hf⟩
    rw [switchChange, if_neg hq]
    exact ⟨rfl, rfl⟩
  · rw [switchChange, if_pos h.2, if_pos hr]
    exact ⟨rfl, rfl⟩
  · rw [switchChange, if_pos h.2, if_neg (by omega)]
    refine ⟨rfl, ?_, fun ck hck => startWaitingPulse_waits hck⟩
    show { s.iso with phase := .idle, bridge := .opened, phaseTimer := .stopped, localization := s.iso.localization.unmeasured } = _
    cases s.iso.localization <;> rfl

theorem reportSwitches_reported (before : Htr) (s : State) :
    SwitchesReported (switchMap before ≠ switchMap s.htr) s (reportSwitches before s) := by
  unfold reportSwitches
  by_cases h : switchMap before = switchMap s.htr
  · rw [if_pos h]; exact .of_same (not_not_intro h) rfl rfl
  · rw [if_neg h]; exact (switchChange_reported s).congr (by simp [h]) rfl rfl rfl rfl rfl

theorem heaterChanged_reported (before : Htr) (s : State) :
    SwitchesReported (switchMap before ≠ switchMap s.htr) s (heaterChanged before s) :=
  (reportSwitches_reported before s).congr .rfl rfl rfl (by simp [heaterChanged]) (by simp [heaterChanged])
    (by simp [heaterChanged])

/-- What a report leaves of an idle localization, and of the purpose and the lockout always. -/
theorem SwitchesReported.iso_idle {moved : Prop} {s t : State} (h : SwitchesReported moved s t) (hl : s.iso.localization = .idle) :
    t.iso.localization = .idle ∧ t.iso.marked = s.iso.marked ∧ t.iso.baselineClass = s.iso.baselineClass
      ∧ t.iso.purpose = s.iso.purpose ∧ t.iso.lockout = s.iso.lockout := by
  obtain ⟨hsame, hrestart, hdiscard⟩ := h
  by_cases hd : moved ∧ s.iso.phase.inFlight = true
  · by_cases hr : s.iso.restarts < 2
    · rw [(hrestart hd hr).2]; exact ⟨hl, rfl, rfl, rfl, rfl⟩
    · rw [(hdiscard hd (by omega)).2.1]; exact ⟨by simp [hl], rfl, rfl, rfl, rfl⟩
  · rw [(hsame hd).1]; exact ⟨hl, rfl, rfl, rfl, rfl⟩

/-- Only a measurement that is discarded reaches the heater again. -/
theorem switchChange_htr {s : State} (h : s.iso.phase.inFlight = false ∨ s.iso.restarts < 2) :
    (switchChange s).htr = s.htr := by
  unfold switchChange
  rcases h with h | h
  · simp [h]
  · split
    · rfl
    · rfl

/-! ## The end of a probe -/

theorem leaveProbe_switches (h : Htr) (z : Fin 8) (leak : Bool) :
    switchMap h ≠ switchMap (h.leaveProbe z leak) ↔ ∃ b, h.zones[z].state = .probed b := by
  unfold Htr.leaveProbe
  split
  · next b hb =>
    refine iff_of_true ((switchMap_ne_iff _ _).2 ⟨z, ?_⟩) ⟨b, hb⟩
    have hopen : (h.enter z (if leak then .faulted .leak else b.back)).zones[z].state.isOpen = true := by
      rw [enter_zone, if_pos rfl]
      cases leak
      · exact b.back_isOpen
      · rfl
    rw [switches_probed hb, switches_open hopen]
    decide
  · next hn => exact iff_of_false (not_not_intro rfl) fun ⟨b, hb⟩ => hn b hb

theorem endProbe_reported (z : Fin 8) (leak : Bool) (s : State) :
    SwitchesReported (∃ b, (s.zone z).state = .probed b) s (endProbe z leak s) := by
  refine (heaterChanged_reported s.htr _).congr ?_ (by simp) (by simp) rfl rfl rfl
  have hh : (raiseIf leak .heaterFault (s.setHtr (s.htr.leaveProbe z leak))).htr = s.htr.leaveProbe z leak := by simp
  rw [hh]
  exact leaveProbe_switches s.htr z leak

end Sys2Proof.Machine
end

section
/-! PROOFS. CLEAR LOCKOUT (R124): its checks, and the run it cancels. -/

namespace Sys2Proof.Machine

theorem mayClear_iff (s : State) :
    mayClear s = true ↔ s.iso.lockout = true ∧ ∃ r, s.iso.latest = some r ∧ r.cls ≠ .fault := by
  unfold mayClear
  cases s.iso.latest <;> simp

/-- The monitor once the lockout is clear and the run cancelled. -/
def Iso.cleared (i : Iso) : Iso :=
  { i with
    lockout := false, localization := .idle, baselineClass := none, marked := 0, lastExamined := none
    purpose := if i.phase = .idle then i.purpose else i.purpose.map fun _ => .periodic }

/-- The state from which the probed zone returns. -/
def runCancelled (s : State) : State := (clearTheLockout s).setIso s.iso.cleared

theorem cancelRun_probing {s : State} {z : Fin 8} (h : s.iso.localization = .probing z) :
    cancelRun (clearTheLockout s) = endProbe z false (runCancelled s) := by
  unfold cancelRun
  simp only [clearTheLockout, raise_keeps, State.setIso_iso, h]
  rfl

theorem cancelRun_unprobed {s : State} (h : ∀ z, s.iso.localization ≠ .probing z) :
    cancelRun (clearTheLockout s) = runCancelled s := by
  unfold cancelRun
  split
  · next z hz => exact absurd hz (by simpa using h z)
  · simp only [clearTheLockout, raise_keeps, State.setIso_iso]
    rfl

theorem cleared_told (s : State) : ToldAll .lockoutChange s (cancelRun (clearTheLockout s)) :=
  (raise_toldAll_of_grows .lockoutChange (.of_eq (by simp))).grow (cancelRun_grows _)

theorem endProbe_zone (z w : Fin 8) (leak : Bool) (s : State) :
    (endProbe z leak s).zone w = (s.htr.leaveProbe z leak).zones[w] := by
  rw [endProbe, heaterChanged_zone]
  simp [State.zone]

theorem runCancelled_zone (s : State) (w : Fin 8) : (runCancelled s).zone w = s.zone w := by simp [runCancelled, clearTheLockout]

/-- The zones after the cancellation: the probed one is back where it was (R96). -/
theorem cancelRun_zone (s : State) (w : Fin 8) :
    (s.iso.localization = .probing w → ∀ b, (s.zone w).state = .probed b →
        ((cancelRun (clearTheLockout s)).zone w).state = b.back)
      ∧ (s.iso.localization ≠ .probing w → (cancelRun (clearTheLockout s)).zone w = s.zone w) := by
  refine ⟨fun hl b hb => ?_, fun hl => ?_⟩
  · have hb' : (runCancelled s).htr.zones[w].state = .probed b := by rw [← hb, ← runCancelled_zone s w]; rfl
    rw [cancelRun_probing hl, endProbe_zone, leaveProbe_zone, hb']
    simp
  · by_cases hp : ∃ z, s.iso.localization = .probing z
    · obtain ⟨z, hz⟩ := hp
      have hne : z ≠ w := fun h => hl (h ▸ hz)
      rw [cancelRun_probing hz, endProbe_zone, leaveProbe_zone]
      simp only [if_neg hne]
      rw [← runCancelled_zone s w]
      split <;> rfl
    · rw [cancelRun_unprobed (not_exists.1 hp), runCancelled_zone]

theorem cancelRun_reported (s : State) :
    SwitchesReported (∃ z b, s.iso.localization = .probing z ∧ (s.zone z).state = .probed b)
      { s with iso := s.iso.cleared } (cancelRun (clearTheLockout s)) := by
  by_cases hp : ∃ z, s.iso.localization = .probing z
  · obtain ⟨z, hz⟩ := hp
    rw [cancelRun_probing hz]
    refine (endProbe_reported z false (runCancelled s)).congr ?_ rfl (by simp [runCancelled, clearTheLockout]) rfl rfl rfl
    rw [runCancelled_zone, hz]
    simp
  · rw [cancelRun_unprobed (not_exists.1 hp)]
    exact .of_same (fun ⟨z, _, hz, _⟩ => hp ⟨z, hz⟩) rfl (by simp [runCancelled, clearTheLockout])

/-- Settles O44: the two checks, and the cancelled run with its probed zone. -/
theorem lockoutCleared : Obligations.LockoutCleared := by
  unfold Obligations.LockoutCleared
  intro len s hr fit
  refine ⟨fun h => ?_, fun h => ?_⟩
  · rw [exec]
    exact request_replies hr (by simp) (if_neg ((mayClear_iff s).not.2 h))
  · refine ⟨_, by rw [exec]; exact request_replies hr (by simp) (if_pos ((mayClear_iff s).2 h)), ?_⟩
    obtain ⟨hloc, hmarked, hbase, hpurpose, -⟩ := (cancelRun_reported s).iso_idle rfl
    refine ⟨rfl, by simp [clearTheLockout], by simpa using hloc, by simpa [Iso.cleared] using hmarked, by simpa [Iso.cleared] using hbase,
      by simp [clearTheLockout], by simp [clearTheLockout], by simp [clearTheLockout],
      ((cleared_told s).grow (evalDemand_grows _)).answered, fun z => by simpa using cancelRun_zone s z,
      fun hphase hsome => ?_,
      (cancelRun_reported s).congr .rfl rfl rfl (by simp) (by simp) (by simp), by simp [clearTheLockout], by simp [clearTheLockout],
      by simp [clearTheLockout], by simp [clearTheLockout], by simp [clearTheLockout], by simp [clearTheLockout],
      by simp [clearTheLockout], ⟨by simp [clearTheLockout], by simp [clearTheLockout], by simp [clearTheLockout],
      by simp [clearTheLockout], by simp [clearTheLockout], by simp [clearTheLockout], by simp [clearTheLockout],
      by simp [clearTheLockout]⟩⟩
    obtain ⟨pu, hpu⟩ := Option.isSome_iff_exists.1 hsome
    simpa [Iso.cleared, hphase, hpu] using hpurpose

end Sys2Proof.Machine
end

section
/-! PROOFS. Check pulses, the slot timer and CLEAR ZONE (R73, R82, R83, R87, R97). -/

namespace Sys2Proof.Machine

/-! ## The heater after a report -/

theorem startWaitingPulse_same {h : Htr} (hw : ∀ ck, h.check = some ck → ck.waiting = false) : h.startWaitingPulse = h := by
  have hcheck : h.check.map (fun ck => if ck.waiting then { ck with pulseOn := true, waiting := false } else ck) = h.check := by
    cases hc : h.check with
    | none => rfl
    | some ck => simp [hw ck hc]
  rw [Htr.startWaitingPulse, hcheck]

/-- A report leaves the heater but for a waiting pulse, which a discarded measurement lets begin. -/
theorem switchChange_htr_of {s : State}
    (h : s.iso.phase.inFlight = false ∨ ∀ ck, s.htr.check = some ck → ck.waiting = false) : (switchChange s).htr = s.htr := by
  by_cases hf : s.iso.phase.inFlight = false ∨ s.iso.restarts < 2
  · exact switchChange_htr hf
  · simp only [not_or, Bool.not_eq_false] at hf
    have hw := h.resolve_left (by simp [hf.1])
    rw [switchChange, if_pos hf.1, if_neg hf.2]
    exact startWaitingPulse_same hw

theorem reportSwitches_htr (before : Htr) {s : State}
    (h : s.iso.phase.inFlight = false ∨ ∀ ck, s.htr.check = some ck → ck.waiting = false) :
    (reportSwitches before s).htr = s.htr := by
  unfold reportSwitches
  split
  · rfl
  · exact switchChange_htr_of h

theorem heaterChanged_checkRecord (before : Htr) {s : State}
    (h : s.iso.phase.inFlight = false ∨ ∀ ck, s.htr.check = some ck → ck.waiting = false) :
    (heaterChanged before s).htr.check = s.htr.check := by
  simp [heaterChanged, reportSwitches_htr before h]

theorem heaterChanged_unchecked (before : Htr) {s : State} (h : s.htr.check = none) :
    (heaterChanged before s).htr.check = none := by
  have := heaterChanged_check before s
  simpa [h] using this

theorem heaterChanged_hot (before : Htr) {s : State}
    (h : s.iso.phase.inFlight = false ∨ ∀ ck, s.htr.check = some ck → ck.waiting = false) (hot : anyHot s.htr = true) :
    (heaterChanged before s).htr = s.htr := by
  have hr := reportSwitches_htr before h
  have happly : applyPending (reportSwitches before s) = reportSwitches before s := applyPending_hot (by rwa [hr])
  have hdemand : (heaterChanged before s).htr = (applyPending (reportSwitches before s)).htr := by simp [heaterChanged]
  rw [hdemand, happly, hr]

theorem heaterChanged_unmoved {before : Htr} {s : State} (h : switchMap before = switchMap s.htr) :
    (heaterChanged before s).iso = s.iso ∧ (heaterChanged before s).alc = s.alc :=
  (heaterChanged_reported before s).1 fun hd => hd.1 h

theorem anyHot_of_checking {h : Htr} {z : Fin 8} (hz : h.zones[z].state = .checking) : anyHot h = true := by
  have hall : ∀ z : Fin 8, z ∈ zoneIds := by decide
  exact List.any_eq_true.2 ⟨z, hall z, by rw [hz]; rfl⟩

theorem heaterChanged_slots (before : Htr) (s : State) : (heaterChanged before s).htr.slotTimer = s.htr.slotTimer
    ∧ (heaterChanged before s).htr.boundaryDue = s.htr.boundaryDue := by simp

/-! ## The judgement of a pulse -/

/-- Where a zone goes whose two pulses are judged alike (R83). -/
def PulseResult.agreed : PulseResult → ZoneState
  | .pass => .off
  | .low => .faulted .open
  | .high => .faulted .short

theorem PulseResult.agreed_faulted {r : PulseResult} (h : r ≠ .pass) : r.agreed.isFaulted = true := by
  cases r <;> first | exact absurd rfl h | rfl

theorem judgePair_same (repeated : Bool) (r : PulseResult) : judgePair repeated r r = some r.agreed := by cases r <;> rfl

theorem judgePair_differs {a r : PulseResult} (repeated : Bool) (h : a ≠ r) :
    judgePair repeated a r = if repeated = true then some (.faulted .unstable) else none := by
  cases a <;> cases r <;> first | exact absurd rfl h | rfl

theorem judgePair_isOpen {repeated : Bool} {a r : PulseResult} {st : ZoneState} (h : judgePair repeated a r = some st) :
    st.isOpen = true := by
  by_cases hr : a = r
  · rw [hr, judgePair_same, Option.some.injEq] at h
    subst h; cases r <;> rfl
  · rw [judgePair_differs repeated hr] at h
    split at h
    · cases h; rfl
    · cases h

theorem afterPulse_zone_other {ck : CheckRecord} (r : PulseResult) (h : Htr) {z : Fin 8} (hz : z ≠ ck.zone) :
    (afterPulse ck r h).zones[z] = h.zones[z] := by
  have hend : ∀ st, (h.endCheck ck.zone st).zones[z] = h.zones[z] := fun st => by
    show (h.enter ck.zone st).zones[z] = _
    rw [enter_zone, if_neg hz.symm]
  unfold afterPulse
  split
  · rfl
  · split
    · exact hend _
    · rfl

/-- After the end of a pulse both switches of its zone are open. -/
theorem afterPulse_switches {ck : CheckRecord} (r : PulseResult) {h : Htr} (hz : h.zones[ck.zone].state = .checking) :
    switches (afterPulse ck r h) ck.zone = (false, false) := by
  have hpaused : ∀ ck' : CheckRecord, ck'.pulseOn = false → switches { h with check := some ck' } ck.zone = (false, false) := by
    intro ck' hoff
    rw [switches_checking (h := { h with check := some ck' }) hz rfl, hoff]
    split <;> rfl
  unfold afterPulse
  split
  · exact hpaused _ rfl
  · next a ha =>
    split
    · next st hst =>
      refine switches_open ?_
      show ((h.enter ck.zone st).zones[ck.zone].state).isOpen = true
      rw [enter_zone, if_pos rfl]
      exact judgePair_isOpen hst
    · exact hpaused _ rfl

/-- The state between the end of a pulse and the report of it. -/
def pulseJudged (ck : CheckRecord) (r : PulseResult) (s : State) : State :=
  raiseIf (pulseFaults ck r) .heaterFault (s.setHtr (afterPulse ck r s.htr))

theorem pulseEnded_judged {s : State} {ck : CheckRecord} (i : Nat) (hc : s.htr.check = some ck) (hon : ck.pulseOn = true) :
    pulseEnded i s = heaterChanged s.htr (pulseJudged ck (judgePulse ck.iExp i) s) := by
  rw [pulseEnded, hc]
  exact if_pos hon

theorem pulseJudged_grows (ck : CheckRecord) (r : PulseResult) (s : State) : Grows s (pulseJudged ck r s) := by
  have hset : Grows s (s.setHtr (afterPulse ck r s.htr)) := .of_eq (by simp)
  exact hset.trans (raiseIf_grows _ _ _)

theorem pulseJudged_htr (ck : CheckRecord) (r : PulseResult) (s : State) : (pulseJudged ck r s).htr = afterPulse ck r s.htr := by
  simp [pulseJudged]

theorem pulseJudged_iso (ck : CheckRecord) (r : PulseResult) (s : State) : (pulseJudged ck r s).iso = s.iso := by
  simp [pulseJudged]

/-- The end of a pulse is a switch change: its zone's switches close no longer (R76). -/
theorem pulseEnd_reported {s : State} {ck : CheckRecord} (r : PulseResult) (hc : s.htr.check = some ck) (hon : ck.pulseOn = true)
    (hz : (s.zone ck.zone).state = .checking) : SwitchesReported True s (heaterChanged s.htr (pulseJudged ck r s)) := by
  refine (heaterChanged_reported s.htr (pulseJudged ck r s)).congr (iff_of_true ?_ trivial) (pulseJudged_iso ck r s).symm
    (by simp [pulseJudged]) rfl rfl rfl
  rw [pulseJudged_htr]
  refine (switchMap_ne_iff _ _).2 ⟨ck.zone, ?_⟩
  rw [switches_checking hz hc, if_pos rfl, hon, afterPulse_switches r hz]
  decide

theorem pulseEnd_zone (ck : CheckRecord) (r : PulseResult) (s : State) (z : Fin 8) :
    (heaterChanged s.htr (pulseJudged ck r s)).zone z = (afterPulse ck r s.htr).zones[z] := by
  rw [heaterChanged_zone, State.zone, pulseJudged_htr]

/-- A pulse that only pauses the check keeps its zone CHECKING. -/
theorem pulseEnd_paused {s : State} {ck ck' : CheckRecord} {r : PulseResult} (hz : (s.zone ck.zone).state = .checking)
    (hw : ck'.waiting = ck.waiting) (h : afterPulse ck r s.htr = { s.htr with check := some ck' }) :
    ((heaterChanged s.htr (pulseJudged ck r s)).zone ck.zone).state = .checking
      ∧ (s.iso.phase.inFlight = false ∨ ck.waiting = false →
        (heaterChanged s.htr (pulseJudged ck r s)).htr.check = some ck') := by
  refine ⟨by rw [pulseEnd_zone, h]; exact hz, fun hq => ?_⟩
  have hcheck : (pulseJudged ck r s).htr.check = some ck' := by rw [pulseJudged_htr, h]
  rw [heaterChanged_checkRecord _ ?_, hcheck]
  rw [pulseJudged_iso, hcheck]
  refine hq.imp_right fun hwait c hc => ?_
  obtain rfl := Option.some.inj hc
  rw [hw, hwait]

/-- A pulse pair that is judged ends the check with its zone in the judged state. -/
theorem pulseEnd_decided {s : State} {ck : CheckRecord} {r : PulseResult} {st : ZoneState}
    (h : afterPulse ck r s.htr = s.htr.endCheck ck.zone st) :
    ((heaterChanged s.htr (pulseJudged ck r s)).zone ck.zone).state = st
      ∧ (heaterChanged s.htr (pulseJudged ck r s)).htr.check = none
      ∧ (heaterChanged s.htr (pulseJudged ck r s)).htr.slotTimer = .stopped
      ∧ (heaterChanged s.htr (pulseJudged ck r s)).htr.boundaryDue = true := by
  have hh := (pulseJudged_htr ck r s).trans h
  refine ⟨?_, heaterChanged_unchecked _ (by rw [hh]; rfl), ?_, ?_⟩
  · rw [pulseEnd_zone, h]
    show ((s.htr.enter ck.zone st).zones[ck.zone]).state = st
    rw [enter_zone, if_pos rfl]
  · rw [(heaterChanged_slots _ _).1, hh]; rfl
  · rw [(heaterChanged_slots _ _).2, hh]; rfl

theorem pulseEnd_told {s : State} {ck : CheckRecord} {r : PulseResult} (h : pulseFaults ck r = true) :
    ToldAll .heaterFault s (heaterChanged s.htr (pulseJudged ck r s)) := by
  rw [pulseJudged, h]
  exact (raise_toldAll_of_grows .heaterFault (.of_eq (by simp))).grow (heaterChanged_grows _ _)

theorem exec_checkPulseStart {s t : State} (hp : s.powered = true) (h : pulseDue s = t) : exec .checkPulseStart s = .next t := by
  rw [exec]; exact live_becomes hp h

theorem exec_checkPulseEnd {i : Nat} {s t : State} (hp : s.powered = true) (h : pulseEnded i s = t) :
    exec (.checkPulseEnd i) s = .next t := by
  rw [exec]; exact live_becomes hp h

/-- The state between the start of a pulse and the report of it. -/
def pulseBegun (ck : CheckRecord) (s : State) : State :=
  s.setHtr { s.htr with check := some { ck with pulseOn := true, waiting := false } }

theorem pulseBegun_reported {s : State} {ck : CheckRecord} (hc : s.htr.check = some ck) (hoff : ck.pulseOn = false)
    (hz : (s.zone ck.zone).state = .checking) : SwitchesReported True s (heaterChanged s.htr (pulseBegun ck s)) := by
  refine (heaterChanged_reported s.htr (pulseBegun ck s)).congr (iff_of_true ?_ trivial) rfl rfl rfl rfl rfl
  refine (switchMap_ne_iff _ _).2 ⟨ck.zone, ?_⟩
  rw [switches_checking hz hc, if_pos rfl, hoff, switches_checking (h := (pulseBegun ck s).htr) hz rfl, if_pos rfl]
  simp

theorem pulseBegun_htr {s : State} {ck : CheckRecord} (hz : (s.zone ck.zone).state = .checking) :
    (heaterChanged s.htr (pulseBegun ck s)).htr = (pulseBegun ck s).htr := by
  refine heaterChanged_hot _ (.inr fun c hc => ?_) (anyHot_of_checking (z := ck.zone) hz)
  obtain rfl := Option.some.inj hc
  rfl

theorem argZone_none {a : BitVec 8} (h : 7 < a.toNat) : argZone a = none := by
  rw [argZone, dif_neg (by omega)]

theorem argZone_some {a : BitVec 8} {z : Fin 8} (h : a.toNat = z.val) : argZone a = some z := by
  rw [argZone, dif_pos (by omega)]
  simp [h]

theorem enter_open_unmoved {h : Htr} {z : Fin 8} {st : ZoneState} (hz : h.zones[z].state.isOpen = true)
    (hst : st.isOpen = true) : switchMap h = switchMap (h.enter z st) := by
  refine (switchMap_eq_iff _ _).2 fun w => ?_
  by_cases hw : z = w
  · subst hw
    rw [switches_open hz, switches_open (by rw [enter_zone, if_pos rfl]; exact hst)]
  · exact switches_congr (by rw [enter_zone, if_neg hw]) rfl

theorem exec_clearZone_faulted {len : Nat} {arg : BitVec 8} {z : Fin 8} {k : ZoneFault} {s : State} (hr : Ready .P s)
    (hz : arg.toNat = z.val) (hk : (s.zone z).state = .faulted k) : exec (.clearZone ⟨.P, len⟩ arg) s
      = .next (answer .P len .ok [] s (heaterChanged s.htr (s.setHtr (s.htr.enter z .unchecked)))) := by
  rw [exec]
  refine request_replies hr (by simp) ?_
  rw [argZone_some hz]
  exact if_pos (by rw [hk]; rfl)

/-- Settles O34: the pulse by its start and its end, the slot timer, and CLEAR ZONE by the zone it names. -/
theorem checkPulsesSlotsAndClearZone : Obligations.CheckPulsesSlotsAndClearZone := by
  unfold Obligations.CheckPulsesSlotsAndClearZone
  refine ⟨fun i s hp => ⟨fun hc => ⟨exec_checkPulseStart hp (by rw [pulseDue, hc]), exec_checkPulseEnd hp (by rw [pulseEnded, hc])⟩,
    fun ck hc => ⟨fun hon => exec_checkPulseStart hp ?_, fun hoff => exec_checkPulseEnd hp ?_,
      fun hoff hw => exec_checkPulseStart hp ?_, fun hoff hw => ?_, fun hon hz => ?_⟩⟩, fun len arg s hr => ⟨?_, fun h => ?_, fun z hz => ?_⟩⟩
  · rw [pulseDue, hc]; exact if_pos hon
  · rw [pulseEnded, hc]; exact if_neg (by simp [hoff])
  · rw [pulseDue, hc]; exact (if_neg (by simp [hoff])).trans (if_pos hw)
  · have hdue : pulseDue s = heaterChanged s.htr (pulseBegun ck s) := by
      rw [pulseDue, hc]; exact (if_neg (by simp [hoff])).trans (if_neg hw)
    exact ⟨_, exec_checkPulseStart hp hdue, by simp [pulseBegun], fun hq => heaterChanged_quiet _ _ hq,
      fun hz => ⟨pulseBegun_reported hc hoff hz, pulseBegun_htr hz⟩⟩
  · intro r
    refine ⟨_, exec_checkPulseEnd hp (pulseEnded_judged i hc hon), fun z hne => by rw [pulseEnd_zone, afterPulse_zone_other _ _ hne]; rfl,
      by simp [pulseJudged], by simp [pulseJudged], by simp [pulseJudged], by simp [pulseJudged], by simp [pulseJudged],
      by simp [pulseJudged], ?_, ?_, pulseEnd_reported _ hc hon hz, ?_⟩
    · exact ((pulseJudged_grows ck _ s).trans (heaterChanged_grows _ _)).portsKept
    · exact ⟨by simp [pulseJudged], by simp [pulseJudged], by simp [pulseJudged], by simp [pulseJudged], by simp [pulseJudged],
        by simp [pulseJudged], by simp [pulseJudged], by simp [pulseJudged]⟩
    · change PulseResult at r
      have hr : judgePulse ck.iExp i = r := rfl
      rw [hr]
      clear_value r
      split
      · next hfirst => exact pulseEnd_paused hz rfl (by rw [afterPulse, hfirst])
      · next a hfirst =>
        by_cases hsame : a = r
        · have hjudged : judgePair ck.repeated a r = some r.agreed := by rw [hsame, judgePair_same]
          obtain ⟨hstate, hcheck, hslot, hdue⟩ := pulseEnd_decided (s := s) (r := r) (st := r.agreed) (by rw [afterPulse, hfirst]; simp only [hjudged])
          rw [if_pos hsame]
          exact ⟨hstate, hcheck, hslot, hdue,
            fun hpass => pulseEnd_told (by simp [pulseFaults, hfirst, hjudged, PulseResult.agreed_faulted hpass])⟩
        · rw [if_neg hsame]
          by_cases hrep : ck.repeated = true
          · rw [if_pos hrep]
            have hjudged := (judgePair_differs ck.repeated hsame).trans (if_pos hrep)
            obtain ⟨hstate, hcheck, hslot, hdue⟩ := pulseEnd_decided (s := s) (r := r) (st := .faulted .unstable) (by rw [afterPulse, hfirst]; simp only [hjudged])
            exact ⟨hstate, hcheck, hslot, hdue, pulseEnd_told (by simp [pulseFaults, hfirst, hjudged, ZoneState.isFaulted])⟩
          · rw [if_neg hrep]
            have hjudged := (judgePair_differs ck.repeated hsame).trans (if_neg hrep)
            exact pulseEnd_paused hz rfl (by rw [afterPulse, hfirst]; simp only [hjudged])
  · rw [exec]
    refine live_becomes hr.1 ?_
    by_cases h : s.htr.slotTimer = .stopped
    · simp [slotExpired, h, Timer.isRunning]
    · exact (if_pos ((Timer.isRunning_iff _).2 h)).trans (if_neg h).symm
  · rw [exec]
    exact request_replies hr (by simp) (by simp [argZone_none h, refuse])
  · refine ⟨fun h => ?_, fun k hk => ⟨_, exec_clearZone_faulted hr hz hk, rfl, ?_⟩⟩
    · rw [exec]
      refine request_replies hr (by simp) ?_
      rw [argZone_some hz]
      exact if_neg (by rw [(isFaulted_iff _).2 h]; decide)
    · have hsame : switchMap s.htr = switchMap (s.htr.enter z .unchecked) := enter_open_unmoved (by
        show (s.zone z).state.isOpen = true
        rw [hk]; rfl) rfl
      obtain ⟨hiso, halc⟩ := heaterChanged_unmoved (s := s.setHtr (s.htr.enter z .unchecked)) hsame
      exact ⟨by simp [Htr.enter, Htr.setZone, State.zone], by simp, by simpa using hiso, by simpa using halc, by simp, by simp,
        by simp, by simp, by simp, by simp, by simp, by simp, by simp, by simp, by simp, by simp, by simp⟩

end Sys2Proof.Machine
end

section
/-! PROOFS. A loss of supply (R152, R153, R155, R174): what the write in flight leaves when it is cut off. -/

namespace Sys2Proof.Machine

/-! ## A cut image (R174) -/

theorem imageCrc_set_last (v : Vector Word 200) (w : Word) : imageCrc (v.set 199 w) = imageCrc v := by
  unfold imageCrc
  congr 1
  rw [Vector.toList_set, List.take_set_of_le (by omega)]

theorem word_ne_not (w : Word) : w ≠ ~~~ w := by
  intro h
  have := congrArg (fun x : Word => x.getLsbD 0) h
  simp at this

theorem not_imagePasses_inverted {v : Vector Word 200} (h : imagePasses v = true) :
    imagePasses (v.set 199 (~~~ v[199])) = false := by
  have hcrc : imageCrc v = v[199] := eq_of_beq h
  refine beq_eq_false_iff_ne.2 fun heq => ?_
  have hlast : (v.set 199 (~~~ v[199]))[199] = ~~~ v[199] := Vector.getElem_set_self ..
  rw [imageCrc_set_last, hcrc, imagePasses.imageWordLast, hlast] at heq
  exact (word_ne_not _) heq

theorem cutImage_fails (free done : Nat) (v : Vector Word 200) : imagePasses (cutImage free done v) = false := by
  unfold cutImage
  dsimp only
  split
  · next h => exact not_imagePasses_inverted h
  · next h => simpa using h

/-! ## A cut record (R153, R155) -/

theorem contentWord_set (v : Vector Word 53) (k i : Nat) (w : Word) (hk : k < 53) :
    contentWord (v.set! k w) i = if k = i then w else contentWord v i := by
  unfold contentWord
  rw [Vector.set!_eq_setIfInBounds]
  by_cases h : k = i
  · subst h; simp [hk]
  · simp [h]

theorem storedLength_le {v : Vector Word 53} {n : Nat} (h : storedLength v = some n) : 21 ≤ n ∧ n ≤ 53 := by
  unfold storedLength at h
  dsimp only at h
  split at h
  · next hn => cases h; exact hn
  · cases h

theorem passes_of_length {v : Vector Word 53} {n : Nat} (h : storedLength v = some n) :
    passes v = (crc16 (v.toList.take (n - 1)) == contentWord v (n - 1)) := by
  simp only [passes, h]

theorem failing_fails (v : Vector Word 53) : passes (failing v) = false := by
  unfold failing
  split
  · next h => simp only [passes, h]
  · next n h =>
    obtain ⟨hlo, hhi⟩ := storedLength_le h
    split
    · next hpass =>
      have hcrc : crc16 (v.toList.take (n - 1)) = contentWord v (n - 1) := eq_of_beq ((passes_of_length h).symm.trans hpass)
      have hlength : storedLength (v.set! (n - 1) (~~~ contentWord v (n - 1))) = some n := by
        have hfirst : contentWord (v.set! (n - 1) (~~~ contentWord v (n - 1))) 0 = contentWord v 0 := by
          rw [contentWord_set v _ _ _ (by omega), if_neg (by omega)]
        rw [← h, storedLength, storedLength, hfirst]
      have hwords : (v.set! (n - 1) (~~~ contentWord v (n - 1))).toList.take (n - 1) = v.toList.take (n - 1) := by
        rw [Vector.set!_eq_setIfInBounds]
        simp [List.take_set_of_le]
      rw [passes_of_length hlength, hwords, hcrc, contentWord_set v _ _ _ (by omega), if_pos rfl]
      exact beq_eq_false_iff_ne.2 (word_ne_not _)
    · next hfail => simpa using hfail

theorem cutContent_fails (f k : Nat) (old : Vector Word 53) (ws : List Word) : passes (cutContent f k old ws) = false :=
  failing_fails _

theorem cutCheckpoint_spec (f : Nat) (cut : WriteCut) (a : AreaId) (q : Word32) (c : Checkpoint) (nv : Nv) :
    ((cutWrite f cut (.checkpoint a q c) nv).area a).valid = false
      ∧ (cutWrite f cut (.checkpoint a q c) nv).area a.other = nv.area a.other
      ∧ (cutWrite f cut (.checkpoint a q c) nv).slots = nv.slots ∧ (cutWrite f cut (.checkpoint a q c) nv).image = nv.image := by
  simp only [cutWrite]
  generalize hx : cutArea f cut q c = x
  have hvalid : x.valid = false := by rw [← hx, cutArea]
  cases a <;> exact ⟨hvalid, rfl, rfl, rfl⟩

/-- What a final write cut off in slot i leaves, by the point it had reached (Table 9-4). -/
theorem cutFinal_reserved (f : Nat) (cut : WriteCut) {n : Word32} (ws : List Word) {nv : Nv} {i : Fin 64}
    (h : slotReserved nv.slots n = some i) : cutWrite f cut (.final n ws) nv = cutRecordWrite f cut i n ws nv := by
  simp only [cutWrite, h]

theorem cutWords_slot (f k : Nat) (i : Fin 64) (n : Word32) (ws : List Word) (nv : Nv) :
    (cutRecordWrite f (.words k) i n ws nv).slots[i] = ⟨nv.slots[i].mark, cutContent f k nv.slots[i].content ws⟩ := by
  rw [cutRecordWrite, setSlot_slot, if_pos rfl]

theorem cutWritten_slot (f : Nat) (i : Fin 64) (n : Word32) (ws : List Word) (nv : Nv) :
    (cutRecordWrite f .written i n ws nv).slots[i] = ⟨nv.slots[i].mark, overlay nv.slots[i].content ws⟩ := by
  rw [cutRecordWrite, fillSlot_slot, if_pos rfl]

theorem cutMarked_slot (f : Nat) (i : Fin 64) (n : Word32) (ws : List Word) (nv : Nv) :
    (cutRecordWrite f .marked i n ws nv).slots[i] = ⟨.record n, overlay nv.slots[i].content ws⟩ := by
  rw [cutRecordWrite, markSlot_slot, if_pos rfl, fillSlot_slot, if_pos rfl]

theorem cutVoided_slot (f : Nat) (x y : Bool) (i : Fin 64) (n : Word32) (ws : List Word) (nv : Nv) :
    (cutRecordWrite f (.voided x y) i n ws nv).slots[i] = ⟨.record n, overlay nv.slots[i].content ws⟩ := by
  rw [cutRecordWrite, voidAreas_slots, markSlot_slot, if_pos rfl, fillSlot_slot, if_pos rfl]

/-- Settles O59: the writer's states one after the other, and the points at which a final write may be cut off. -/
theorem powerLossCutsWrite : Obligations.PowerLossCutsWrite := by
  unfold Obligations.PowerLossCutsWrite
  intro cut s hp
  refine ⟨losePower cut s, by rw [exec]; rfl, rfl, ?_⟩
  have hnv : (losePower cut s).nv = cutWrite s.free cut s.rst.writer s.nv := if_pos hp
  rw [hnv]
  refine ⟨fun h => by rw [h, cutWrite], fun a q c h => ?_, fun v h => ?_, fun n ws h => ?_, cutWrite_counter _ _ _ _⟩
  · rw [h]
    exact cutCheckpoint_spec _ _ _ _ _ _
  · rw [h, cutWrite_image]
    refine ⟨?_, rfl, rfl, rfl⟩
    dsimp only
    rw [cutImage_fails]
  · rw [h]
    refine ⟨(cutFinal_other _ _ _ _ _).1, fun hnone => by simp only [cutWrite, hnone], fun i =>
      ⟨(cutFinal_other _ _ _ _ _).2 i, fun hi => ?_⟩⟩
    have hmark : s.nv.slots[i].mark = .reserved n := slotReserved_mark hi
    rw [cutFinal_reserved _ _ _ hi]
    cases cut with
    | words k =>
      rw [cutWords_slot]
      refine ⟨hmark, ?_, rfl, rfl⟩
      dsimp only
      rw [cutContent_fails]
    | written => exact ⟨by rw [cutWritten_slot, hmark], rfl, rfl⟩
    | marked => exact ⟨cutMarked_slot _ _ _ _ _, rfl, rfl⟩
    | voided x y => exact ⟨cutVoided_slot _ _ _ _ _ _ _, rfl, rfl⟩

end Sys2Proof.Machine
end

section
/-! PROOFS. The restore of a power-on reset (R154 to R156). -/

namespace Sys2Proof.Machine

/-! ## The newest checkpoint and its slot (R155) -/

theorem newest_eq (nv : Nv) : newest nv =
    if nv.areaA.isValid = true ∧ (nv.areaB.isValid = false ∨ nv.areaB.seq ≤ nv.areaA.seq) then some nv.areaA
    else if nv.areaB.isValid = true then some nv.areaB else none := by
  unfold newest
  cases nv.areaA.isValid <;> cases nv.areaB.isValid <;> simp
  by_cases h : nv.areaA.seq < nv.areaB.seq
  · rw [if_pos h, if_neg (by rwa [BitVec.not_le])]
  · rw [if_neg h, if_pos (by rwa [BitVec.not_lt] at h)]

/-- The slot carries the number, RESERVED or RECORD. -/
def Nv.Carries (nv : Nv) (i : Fin 64) (n : Word32) : Prop := nv.slots[i].mark = .reserved n ∨ nv.slots[i].mark = .record n

/-- The slot of the checkpoint with number n: the lowest one that carries it, or else the lowest FREE one. -/
def Nv.Home (nv : Nv) (i : Fin 64) (n : Word32) : Prop :=
  (nv.Carries i n ∧ ∀ j, j < i → ¬ nv.Carries j n)
    ∨ ((∀ j, ¬ nv.Carries j n) ∧ nv.slots[i].mark = .free ∧ ∀ j, j < i → nv.slots[j].mark ≠ .free)

theorem mark_number_iff (m : Mark) (n : Word32) : m.number = some n ↔ m = .reserved n ∨ m = .record n := by
  cases m <;> simp [Mark.number]

theorem find_finRange_iff {n : Nat} (p : Fin n → Bool) (i : Fin n) :
    (List.finRange n).find? p = some i ↔ p i = true ∧ ∀ j, j < i → p j = false := by
  rw [List.find?_eq_some_iff_getElem]
  refine and_congr_right fun _ => ⟨fun ⟨k, hk, hki, hbefore⟩ j hj => ?_, fun h => ⟨i.val, by simp, by simp, fun j hj => ?_⟩⟩
  · have hi : k = i.val := by simpa [Fin.ext_iff] using hki
    simpa using hbefore j.val (by omega)
  · simpa using h ⟨j, by omega⟩ (Fin.lt_def.2 hj)

theorem slotCarrying_iff (nv : Nv) (i : Fin 64) (n : Word32) :
    slotCarrying nv.slots n = some i ↔ nv.Carries i n ∧ ∀ j, j < i → ¬ nv.Carries j n := by
  rw [slotCarrying, find_finRange_iff]
  simp [Nv.Carries, mark_number_iff]

theorem slotCarrying_none (nv : Nv) (n : Word32) : slotCarrying nv.slots n = none ↔ ∀ j, ¬ nv.Carries j n := by
  rw [slotCarrying]
  simp [List.find?_eq_none, Nv.Carries, mark_number_iff]

theorem freeSlot_iff (slots : Vector Slot 64) (i : Fin 64) :
    freeSlot slots = some i ↔ slots[i].mark = .free ∧ ∀ j, j < i → slots[j].mark ≠ .free := by
  rw [freeSlot, find_finRange_iff]
  simp

theorem home_iff (nv : Nv) (i : Fin 64) (n : Word32) : nv.Home i n ↔
    slotCarrying nv.slots n = some i ∨ (slotCarrying nv.slots n = none ∧ freeSlot nv.slots = some i) := by
  rw [slotCarrying_iff, slotCarrying_none, freeSlot_iff]
  rfl

/-- The record in the slot passes its CRC and is numbered n. -/
def Nv.own (nv : Nv) (i : Fin 64) (n : Word32) : Bool := passes nv.slots[i].content && contentNumber nv.slots[i].content == n

theorem restorePlan_stands {nv : Nv} {c : Area} {i : Fin 64} (hn : newest nv = some c) (hh : nv.Home i c.number)
    (hc : nv.Carries i c.number) (ho : nv.own i c.number = true) : restorePlan nv = some (i, c.number, none) := by
  rcases (home_iff _ _ _).1 hh with hs | ⟨hs, -⟩
  · simp only [restorePlan, hn, hs]
    exact if_pos ho
  · exact absurd hc ((slotCarrying_none _ _).1 hs i)

theorem restorePlan_writes {nv : Nv} {c : Area} {i : Fin 64} (hn : newest nv = some c) (hh : nv.Home i c.number)
    (ho : ¬ (nv.Carries i c.number ∧ nv.own i c.number = true)) :
    restorePlan nv = some (i, c.number, some (restoredRecord c)) := by
  rcases (home_iff _ _ _).1 hh with hs | ⟨hs, hf⟩
  · simp only [restorePlan, hn, hs]
    exact if_neg fun h => ho ⟨((slotCarrying_iff _ _ _).1 hs).1, h⟩
  · simp only [restorePlan, hn, hs, hf, Option.map_some]

theorem restorePlan_home {nv : Nv} {i : Fin 64} {n : Word32} {o : Option (List Word)} (h : restorePlan nv = some (i, n, o)) :
    ∃ c, newest nv = some c ∧ nv.Home i c.number := by
  unfold restorePlan at h
  split at h
  · cases h
  · next c hc =>
    refine ⟨c, hc, (home_iff _ _ _).2 ?_⟩
    split at h
    · next j hj =>
      split at h <;> · cases h; exact .inl hj
    · next hs =>
      obtain ⟨j, hj, hjn⟩ := Option.map_eq_some_iff.1 h
      cases hjn
      exact .inr ⟨hs, hj⟩

/-! ## The slots after the restore (R155, R156) -/

theorem restore_slot (nv : Nv) (i : Fin 64) :
    (restore nv).slots[i] = settleReserved (restoreNewest 0 (.voided true true) nv).slots[i] := by
  simp [restore, restoreTo]

theorem restore_areas (nv : Nv) : (restore nv).areaA = { nv.areaA with valid := false }
    ∧ (restore nv).areaB = { nv.areaB with valid := false } := by
  have hsame : (restoreNewest 0 (.voided true true) nv).areaA = nv.areaA
      ∧ (restoreNewest 0 (.voided true true) nv).areaB = nv.areaB := by
    unfold restoreNewest
    split <;> exact ⟨rfl, rfl⟩
  simp [restore, restoreTo, voidAreas, hsame, Area.cleared]

theorem restoreNewest_stands {nv : Nv} {i : Fin 64} {n : Word32} (h : restorePlan nv = some (i, n, none)) (j : Fin 64) :
    (restoreNewest 0 (.voided true true) nv).slots[j] = if i = j then ⟨.record n, nv.slots[j].content⟩ else nv.slots[j] := by
  simp only [restoreNewest, h]
  exact markSlot_slot _ _ _ _

theorem restoreNewest_writes {nv : Nv} {i : Fin 64} {n : Word32} {ws : List Word} (h : restorePlan nv = some (i, n, some ws))
    (j : Fin 64) : (restoreNewest 0 (.voided true true) nv).slots[j]
      = if i = j then ⟨.record n, overlay nv.slots[j].content ws⟩ else nv.slots[j] := by
  simp only [restoreNewest, h]
  by_cases hij : i = j
  · subst hij
    rw [if_pos rfl]; exact cutMarked_slot _ _ _ _ _
  · rw [if_neg hij]
    exact (cutRecordWrite_mark 0 .marked i j n ws nv).1 hij

theorem restoreNewest_other {nv : Nv} {i : Fin 64} (h : ∀ c, newest nv = some c → ¬ nv.Home i c.number) :
    (restoreNewest 0 (.voided true true) nv).slots[i] = nv.slots[i] := by
  have hne : ∀ j n o, restorePlan nv = some (j, n, o) → j ≠ i := by
    rintro j n o hp rfl
    obtain ⟨c, hc, hhome⟩ := restorePlan_home hp
    exact h c hc hhome
  match hp : restorePlan nv with
  | none => simp only [restoreNewest, hp]
  | some (j, n, none) => rw [restoreNewest_stands hp, if_neg (hne _ _ _ hp)]
  | some (j, n, some ws) => rw [restoreNewest_writes hp, if_neg (hne _ _ _ hp)]

theorem settleReserved_own (nv : Nv) (i : Fin 64) : settleReserved nv.slots[i] = match nv.slots[i].mark with
    | .reserved n => ⟨if nv.own i n = true then .record n else .free, nv.slots[i].content⟩
    | _ => nv.slots[i] := by
  cases hm : nv.slots[i].mark with
  | reserved n =>
    simp only [settleReserved, hm]
    show (if nv.own i n = true then (⟨.record n, _⟩ : Slot) else ⟨.free, _⟩) = _
    split <;> rfl
  | free => simp only [settleReserved, hm]
  | record n => simp only [settleReserved, hm]

theorem overlay_word (old : Vector Word 53) (ws : List Word) (k : Fin 53) : (overlay old ws)[k] = (ws[k.val]?).getD old[k] := by
  simp [overlay]

/-- Settles O58: the newest checkpoint's slot by what it holds, and every other slot by its mark. -/
theorem restoreSettlesRecords : Obligations.RestoreSettlesRecords := by
  unfold Obligations.RestoreSettlesRecords
  intro pins cut s hw a b valid best own carries home
  have hbest : newest s.nv = best := newest_eq s.nv
  have hfound : nvAtReset cut s = s.nv := by
    unfold nvAtReset
    split
    · next hp => rw [hw.resolve_left (by simp [hp]), cutWrite]
    · rfl
  have hnv : (powerOn pins cut s).nv = restore s.nv := by rw [powerOn_nv, hfound]
  refine ⟨_, by rw [exec]; rfl, ?_⟩
  rw [hnv]
  refine ⟨(restoreTo_counter _ _ _).1, (restoreTo_counter _ _ _).2, (restore_areas _).1, (restore_areas _).2, fun i =>
    ⟨fun c hc hhome => ?_, fun h => ?_⟩, fun ⟨c, i, hc, hhome⟩ hlow p htakes => ?_⟩
  · by_cases hkeep : s.nv.Carries i c.number ∧ s.nv.own i c.number = true
    · have hslot : (restore s.nv).slots[i] = ⟨.record c.number, s.nv.slots[i].content⟩ := by
        rw [restore_slot, restoreNewest_stands (restorePlan_stands (hbest.trans hc) hhome hkeep.1 hkeep.2), if_pos rfl]
        rfl
      rw [hslot]
      exact ⟨rfl, fun _ _ => rfl, fun hnot => absurd hkeep hnot⟩
    · have hslot : (restore s.nv).slots[i] = ⟨.record c.number, overlay s.nv.slots[i].content (restoredRecord c)⟩ := by
        rw [restore_slot, restoreNewest_writes (restorePlan_writes (hbest.trans hc) hhome hkeep), if_pos rfl]
        rfl
      rw [hslot]
      exact ⟨rfl, fun h1 h2 => absurd ⟨h1, h2⟩ hkeep, fun _ k => overlay_word _ _ k⟩
  · rw [restore_slot, restoreNewest_other (by rwa [hbest])]
    exact settleReserved_own s.nv i
  · have hplan : (restorePlan s.nv).isSome = true := by
      by_cases hkeep : s.nv.Carries i c.number ∧ s.nv.own i c.number = true
      · rw [restorePlan_stands (hbest.trans hc) hhome hkeep.1 hkeep.2]; rfl
      · rw [restorePlan_writes (hbest.trans hc) hhome hkeep]; rfl
    have hadds : restoreAdds s.nv = true := by rw [restoreAdds, hplan, Bool.true_or]
    have hpower : powerOn pins cut s = raiseStoreLow (startState pins (restore s.nv)
        (if s.powered then s.free + 200 else s.free) s.pending) := by
      simp only [powerOn, hfound, hadds, if_true]
    rw [hpower] at htakes ⊢
    exact raiseStoreLow_told (.refl _) hlow p (((raiseStoreLow_grows _).takes p _).1 htakes)

end Sys2Proof.Machine
end

section
/-! PROOFS. What a power-on reset leaves (R18, R75, R101, R145, R156, R164, R178). -/

namespace Sys2Proof.Machine

/-! ## The ports -/

theorem PortState.join_attention {pt : PortState} {k : Notice} (h : pt.holds k = false) : (pt.join k).attention = true := by
  unfold PortState.join
  rw [if_neg (by simp [h])]
  split
  · next hlevel =>
    have hset : flag (pt.pending ||| k.bit) k.index = true := by
      simp [flag, k.bit_getLsbD k.index k.index_lt]
    have hne : pt.pending ||| k.bit ≠ 0 := fun h0 => by simp [h0, flag] at hset
    simpa [PortState.withSet, hlevel] using hne
  · rfl

/-- A port at its start: entry access closed, and RESTART owed under an asserted reset line, else told with the line high. -/
def PortState.Booted (pt : PortState) (line : Bool) : Prop :=
  pt.pointer = 0 ∧ pt.direction = .none ∧ pt.snapshot = .none ∧ pt.sub = 0 ∧ pt.staging = ⟨0, 0, 0⟩ ∧ pt.staged = 0
    ∧ pt.holding = ⟨0, 0, 0⟩ ∧ pt.lastStatus = .ok ∧ pt.resetAsserted = line
    ∧ (if pt.resetAsserted = true then pt.pending = 0 ∧ pt.restartOwed = true
      else Told .restart pt ∧ pt.attention = true)

theorem bootPort_booted (ok : Bool) (image : Vector Word 200) (p : PortId) (line : Bool) :
    (bootPort ok image p line).takeRestart.Booted line := by
  have hreset : (bootPort ok image p line).resetAsserted = line := rfl
  unfold PortState.takeRestart
  cases line with
  | true =>
    rw [if_pos hreset]
    exact ⟨rfl, rfl, rfl, rfl, rfl, rfl, rfl, rfl, rfl, ⟨rfl, rfl⟩⟩
  | false =>
    rw [if_neg (by simp [hreset])]
    have hnotices := (bootPort ok image p false).join_noticesOnly .restart
    have htold := (bootPort ok image p false).join_told .restart
    have hline : ((bootPort ok image p false).join .restart).attention = true := PortState.join_attention (by
      show flag (0 : Word) _ = false
      simp [flag])
    rw [hnotices] at htold hline ⊢
    exact ⟨rfl, rfl, rfl, rfl, rfl, rfl, rfl, rfl, rfl, htold, hline⟩

theorem PortState.Booted.offer {pt : PortState} {line : Bool} (h : pt.Booted line) (k : Notice) : (pt.offer k).Booted line := by
  have hnotices := pt.offer_noticesOnly k
  by_cases ht : Takes k pt
  · obtain ⟨h1, h2, h3, h4, h5, h6, h7, h8, h9, h10⟩ := h
    rw [if_neg (by simp [ht.1])] at h10
    have htold := pt.offer_keeps_told k _ h10.1
    have hline : (pt.offer k).attention = true := by
      rw [pt.offer_of_takes k ht]
      cases hk : pt.holds k with
      | false => exact PortState.join_attention hk
      | true => rw [PortState.join, if_pos hk, h10.2]
    rw [hnotices] at htold hline ⊢
    exact ⟨h1, h2, h3, h4, h5, h6, h7, h8, h9, (if_neg (by simp [ht.1])).mpr ⟨htold, hline⟩⟩
  · rwa [pt.offer_of_not_takes k ht]

theorem powerOn_booted (pins : Pins) (cut : WriteCut) (s : State) (p : PortId) : ((powerOn pins cut s).port p).Booted
    (match p with | .V => pins.resetV | .P => pins.resetP | .F => pins.resetF) := by
  refine powerOn_of_startState (P := fun t => (t.port p).Booted _) pins cut s (fun nv free queue => ?_) fun t h => ?_
  · cases p <;> exact bootPort_booted _ _ _ _
  · show ((raiseIf _ _ t).port p).Booted _
    unfold raiseIf
    split
    · rw [raise_port]; exact h.offer _
    · exact h

/-! ## The blocks -/

theorem raiseIf_ports (b : Bool) (k : Notice) (s : State) : raiseIf b k s =
    { s with portV := (raiseIf b k s).portV, portP := (raiseIf b k s).portP, portF := (raiseIf b k s).portF } := by
  cases b <;> rfl

/-- Apart from the ports, a power-on reset leaves the blocks' start state. -/
theorem powerOn_blocks (pins : Pins) (cut : WriteCut) (s : State) : ∃ free, powerOn pins cut s =
    { startState pins (restore (nvAtReset cut s)) free s.pending with
      portV := (powerOn pins cut s).portV, portP := (powerOn pins cut s).portP, portF := (powerOn pins cut s).portF } := by
  refine ⟨if s.powered then s.free + 200 else s.free, ?_⟩
  unfold powerOn
  dsimp only
  cases restoreAdds (nvAtReset cut s)
  · rfl
  · exact raiseIf_ports _ _ _

theorem settleReserved_settled (x : Slot) (n : Word32) : (settleReserved x).mark ≠ .reserved n := by
  unfold settleReserved
  split
  · split <;> simp
  · next h => exact fun hx => h n hx

theorem nvAtReset_counter (cut : WriteCut) (s : State) : (nvAtReset cut s).counter = s.nv.counter := by
  unfold nvAtReset
  split
  · exact cutWrite_counter _ _ _ _
  · rfl

theorem rangeStep_start (pHw : Nat) (e : Entry) : field (rangeStep pHw 8 e).w0 8 4 < 8 := by
  have hclass : classOf 8 = .heatingMode := rfl
  obtain ⟨-, -, -, -, hstart, -⟩ := clampMode_fields (e.w0 &&& 0x7F3F)
  simp only [rangeStep, hclass, dropUnused, clampFields]
  rw [hstart]
  omega

theorem heatingModeOf_start {e : Entry} (h : field e.w0 8 4 < 8) : (heatingModeOf e).start.val = field e.w0 8 4 :=
  Nat.mod_eq_of_lt h

theorem bootHtr_zone (plan : Vector Entry 53) (stage : StageState) (z : Fin 8) :
    (bootHtr plan stage).zones[z] = Zone.reset (plan[zoneEntry z]).w2.toNat := by
  simp [bootHtr]

theorem bootHtr_start (plan : Vector Entry 53) (stage : StageState) (z : Fin 8) :
    ((bootHtr plan stage).zones[z]).state = .unchecked ∧ ((bootHtr plan stage).zones[z]).temp = none
      ∧ ((bootHtr plan stage).zones[z]).want = false
      ∧ ((bootHtr plan stage).zones[z]).rating = (plan[zoneEntry z]).w2.toNat := by
  rw [bootHtr_zone]; exact ⟨rfl, rfl, rfl, rfl⟩

theorem bootAlc_mirror (pins : Pins) : (bootAlc pins).mirror54 = ⟨match (bootAlc pins).stage with
    | .available => 0x00 | .notReady => 0x10 | .faulted => 0x20 | .recovering => 0x30, 0, 0⟩ := by
  have hstage : (bootAlc pins).stage = stageOf pins.stageReady pins.stageFault := rfl
  have hmirror : (bootAlc pins).mirror54 = mirror54Of { GrantRecord.reset with stage := stageOf pins.stageReady pins.stageFault } := rfl
  rw [hstage, hmirror]
  cases stageOf pins.stageReady pins.stageFault <;> decide

/-- Settles O56: the start state of each block, the restored store, and the ports with RESTART. -/
theorem powerOnResetStarts : Obligations.PowerOnResetStarts := by
  unfold Obligations.PowerOnResetStarts
  intro pins cut s
  refine ⟨_, by rw [exec]; rfl, ?_⟩
  have hports := powerOn_booted pins cut s
  have hplan : PlanSafe (powerOn pins cut s) := powerOn_of_startState pins cut s (startState_planSafe pins) fun _ h => h.of_eq
  obtain ⟨free, hform⟩ := powerOn_blocks pins cut s
  have hnv : (restore (nvAtReset cut s)).areaA.valid = false ∧ (restore (nvAtReset cut s)).areaB.valid = false := by
    rw [(restore_areas _).1, (restore_areas _).2]; exact ⟨rfl, rfl⟩
  have hslots : ∀ (i : Fin 64) n, (restore (nvAtReset cut s)).slots[i].mark ≠ .reserved n := fun i n => by
    rw [restore_slot]; exact settleReserved_settled _ _
  have hcounter : (restore (nvAtReset cut s)).counter = s.nv.counter :=
    (restoreTo_counter _ _ _).1.trans (nvAtReset_counter cut s)
  rw [hform] at hports hplan ⊢
  generalize restore (nvAtReset cut s) = nv at hnv hslots hcounter hports hplan ⊢
  have hstart : field (loadPlan (Config.pHw pins.threePhases) (imagePasses nv.image) nv.image)[8].w0 8 4 < 8 := by
    simpa [loadPlan] using rangeStep_start _ _
  dsimp only [startState, bootAlc, bootSes, bootIso, bootMtr, GrantRecord.reset, Alc.reset, Ses.reset, Sup.reset, Iso.reset,
    Mtr.reset, Rst.reset]
  exact ⟨rfl, rfl, rfl,
    rfl, rfl, rfl, rfl, rfl, rfl, rfl, rfl, rfl,
    rfl, rfl, rfl, rfl, rfl, rfl, rfl, rfl, rfl,
    rfl, rfl, rfl, rfl, rfl, rfl, rfl, rfl, rfl, rfl, rfl,
    rfl, rfl, rfl, rfl, rfl, rfl, rfl, rfl, rfl, rfl, rfl, rfl, rfl, rfl, rfl,
    bootAlc_mirror pins, rfl, rfl,
    fun z => bootHtr_start _ _ z,
    rfl, rfl, rfl, rfl, heatingModeOf_start hstart, rfl, rfl, rfl, rfl,
    rfl, rfl, rfl, rfl, rfl, rfl, rfl, rfl, rfl, rfl, rfl, rfl, rfl, rfl, rfl, rfl, rfl, rfl, rfl, rfl, rfl, rfl, rfl, rfl, rfl,
    rfl, rfl, rfl, rfl,
    rfl, rfl, rfl, rfl, rfl, rfl, rfl,
    rfl, rfl, hnv.1, hnv.2, rfl, rfl, rfl, hslots, hcounter, rfl, hplan, hports⟩

end Sys2Proof.Machine
end

section
/-! PROOFS. The settings that a power-on reset loads (R16, R17, R22, R99, R171, R172, R183). -/

namespace Sys2Proof.Machine

/-! ## The image -/

theorem toList_getD_eq (image : Vector Word 200) (i : Nat) : image.toList.getD i 0 = imageWord image i := by
  simp [imageWord, List.getD]

theorem imagePasses_iff (image : Vector Word 200) :
    imagePasses image = true ↔ crc16 (image.toList.take 199) = imageWord image 199 := by
  have hlast : imageWord image 199 = image[199] := by simp [imageWord]
  rw [hlast, imagePasses, beq_iff_eq]
  rfl

/-! ## The plan (R16, R17) -/

theorem rangeStep_builtIn : ∀ (phases : Bool) (n : Fin 53), rangeStep (Config.pHw phases) n builtInPlan[n] = builtInPlan[n] := by
  decide

theorem loadPlan_loaded (phases : Bool) (image : Vector Word 200) (n : Fin 53) :
    (loadPlan (Config.pHw phases) true image)[n] = rangeStep (Config.pHw phases) n (imageEntry image n) := by
  simp [loadPlan]

theorem loadPlan_builtIn (phases : Bool) (image : Vector Word 200) (n : Fin 53) :
    (loadPlan (Config.pHw phases) false image)[n] = builtInPlan[n] := by
  have hstep := rangeStep_builtIn phases n
  simpa [loadPlan] using hstep

/-! ## The ports (R171, R172, R175) -/

/-- Two ports with the same settings. -/
def PortState.SameSettings (x y : PortState) : Prop :=
  x.windows = y.windows ∧ x.imageWindows = y.imageWindows ∧ x.mask = y.mask ∧ x.clearMode = y.clearMode
    ∧ x.lineMode = y.lineMode

theorem NoticesOnly.sameSettings {x y : PortState} (h : NoticesOnly x y) : y.SameSettings x := by
  unfold NoticesOnly at h
  rw [h]
  exact ⟨rfl, rfl, rfl, rfl, rfl⟩

theorem PortState.SameSettings.trans {x y z : PortState} (h : x.SameSettings y) (g : y.SameSettings z) : x.SameSettings z := by
  obtain ⟨h1, h2, h3, h4, h5⟩ := h
  obtain ⟨g1, g2, g3, g4, g5⟩ := g
  exact ⟨h1.trans g1, h2.trans g2, h3.trans g3, h4.trans g4, h5.trans g5⟩

theorem takeRestart_sameSettings (pt : PortState) : pt.takeRestart.SameSettings pt := by
  unfold PortState.takeRestart
  split
  · exact ⟨rfl, rfl, rfl, rfl, rfl⟩
  · exact (pt.join_noticesOnly _).sameSettings

theorem startState_settings (pins : Pins) (nv : Nv) (free : Nat) (queue : List Instr) (p : PortId) :
    ((startState pins nv free queue).port p).SameSettings (bootPort (imagePasses nv.image) nv.image p false) := by
  cases p <;> exact (takeRestart_sameSettings _).trans ⟨rfl, rfl, rfl, rfl, rfl⟩

theorem powerOn_settings (pins : Pins) (cut : WriteCut) (s : State) (p : PortId) :
    ((powerOn pins cut s).port p).SameSettings
      (bootPort (imagePasses (restore (nvAtReset cut s)).image) (restore (nvAtReset cut s)).image p false) := by
  unfold powerOn
  dsimp only
  split
  · exact ((raiseStoreLow_grows _) p).1.sameSettings.trans (startState_settings _ _ _ _ _)
  · exact startState_settings _ _ _ _ _

theorem imageWindowsOf_getElem (image : Vector Word 200) (p : PortId) (i : Fin 4) : (imageWindowsOf image p)[i]
    = windowOf (imageWord image (8 * portIndex p + 2 * i.val)) (imageWord image (8 * portIndex p + 2 * i.val + 1)) := by
  simp [imageWindowsOf]

theorem windowOf_fields (a b : Word) : (windowOf a b).start.toNat = field a 0 6 ∧ (windowOf a b).stop.toNat = field a 8 6
    ∧ (windowOf a b).offset.toNat = field b 0 6 ∧ (windowOf a b).protect = flag b 8 ∧ (windowOf a b).enable = flag b 9 := by
  have hsix : ∀ (w : Word) (lo : Nat), (w.extractLsb' lo 6).toNat = field w lo 6 := fun w lo => by
    rw [extractLsb'_eq_field, BitVec.toNat_ofNat]
    exact Nat.mod_eq_of_lt (Nat.mod_lt _ (by decide))
  exact ⟨hsix a 0, hsix a 8, hsix b 0, rfl, rfl⟩

/-- What a power-on reset reads off the image it finds. -/
structure Loaded (pins : Pins) (t : State) : Prop where
  plan : t.plan = loadPlan (Config.pHw pins.threePhases) (imagePasses t.nv.image) t.nv.image
  defaults : t.planDefaults = defaultsOf t.plan
  ses : t.ses = bootSes pins (imagePasses t.nv.image) t.nv.image
  mtr : t.mtr = bootMtr (imagePasses t.nv.image) t.nv.image
  iso : t.iso = bootIso t.plan (imagePasses t.nv.image) t.nv.image
  buffer : t.imageBuffer = if pins.commission then some t.nv.image else none
  port : ∀ p, (t.port p).SameSettings (bootPort (imagePasses t.nv.image) t.nv.image p false)

theorem powerOn_loaded (pins : Pins) (cut : WriteCut) (s : State) : Loaded pins (powerOn pins cut s) := by
  have hports := powerOn_settings pins cut s
  obtain ⟨free, hform⟩ := powerOn_blocks pins cut s
  rw [hform] at hports ⊢
  exact ⟨rfl, rfl, rfl, rfl, rfl, rfl, hports⟩

theorem flag_mask {w : Word} {i : Nat} (h : i < 13) : flag (w &&& 0x3FFF) i = flag w i := by
  have hbit : flag (0x3FFF : Word) i = true := by interval_cases i <;> decide
  rw [flag_and, hbit, Bool.and_true]

theorem flag_allKinds {i : Nat} (h : i < 13) : flag (0x3FFF : Word) i = true := by interval_cases i <;> decide

/-- Settles O57: the image's settings where its CRC passes, the built-in ones where it fails. -/
theorem settingsLoaded : Obligations.SettingsLoaded := by
  unfold Obligations.SettingsLoaded
  intro pins cut s
  refine ⟨_, by rw [exec]; rfl, ?_⟩
  have hloaded := powerOn_loaded pins cut s
  generalize powerOn pins cut s = t at hloaded ⊢
  obtain ⟨hplan, hdefaults, hses, hmtr, hiso, hbuffer, hport⟩ := hloaded
  intro w ok builtIn
  have hw : ∀ i, w i = imageWord t.nv.image i := toList_getD_eq t.nv.image
  have hok : ok ↔ imagePasses t.nv.image = true := by rw [imagePasses_iff, ← hw]
  have hbuiltIn : ∀ n : Fin 53, builtInPlan[n] = builtIn n.val := by decide
  clear_value w ok builtIn
  rw [hses, hmtr, hiso]
  cases himage : imagePasses t.nv.image with
  | true =>
    rw [himage] at hplan hport hok
    have hyes : ok := hok.2 rfl
    refine ⟨iff_of_false (by simp [bootSes]) (not_not_intro hyes), fun n => ⟨fun _ => ?_, fun hno => absurd hyes hno⟩,
      fun n => ?_, fun p => ?_, by simp [bootSes, hyes, hw], by simp [bootSes, hyes, hw], by simp [bootSes, hyes, hw], fun _ => ?_,
      fun hno => absurd hyes hno, hbuffer⟩
    · rw [hplan, loadPlan_loaded, imageEntry, hw, hw, hw]
      rfl
    · rw [hdefaults]; exact defaultsOf_getElem t.plan n
    · obtain ⟨hwindows, hcopy, hmask, hclear, hline⟩ := hport p
      intro k mask mode
      have hk : portIndex p = k := by cases p <;> rfl
      refine ⟨by rw [hcopy, hwindows]; rfl, fun _ i => ?_, fun hno => absurd hyes hno, fun i hi => ⟨fun _ => ?_, fun hno => absurd hyes hno⟩,
        ?_, ?_⟩
      · have hwindow : (t.port p).windows[i] = windowOf (w (8 * k + 2 * i.val)) (w (8 * k + 2 * i.val + 1)) := by
          rw [hwindows, hw, hw, ← hk]
          exact imageWindowsOf_getElem t.nv.image p i
        intro a b x
        have hx : x = windowOf a b := hwindow
        rw [hx]
        exact windowOf_fields a b
      · rw [hmask]
        show flag (imageWord t.nv.image (24 + 2 * portIndex p) &&& 0x3FFF) i = _
        rw [flag_mask hi, hk, ← hw]
      · rw [hclear]
        show (if (true && flag (imageWord t.nv.image (25 + 2 * portIndex p)) 0) = true then ClearMode.ackClears else .readClears) = _ ↔ _
        rw [hk, ← hw]
        simp [hyes, mode]
      · rw [hline]
        show (if (true && flag (imageWord t.nv.image (25 + 2 * portIndex p)) 1) = true then LineMode.pulse else .level) = _ ↔ _
        rw [hk, ← hw]
        simp [hyes, mode]
    · rw [hw, hw, hw, hw, hw]
      exact ⟨rfl, rfl, rfl, rfl, rfl⟩
  | false =>
    rw [himage] at hplan hport hok
    have hno : ¬ ok := fun h => Bool.noConfusion (hok.1 h)
    refine ⟨iff_of_true (by simp [bootSes]) hno, fun n => ⟨fun h => absurd h hno, fun _ => ?_⟩,
      fun n => ?_, fun p => ?_, by simp [bootSes, hno], by simp [bootSes, hno], by simp [bootSes, hno], fun h => absurd h hno,
      fun _ => ⟨rfl, rfl, rfl, rfl, rfl⟩, hbuffer⟩
    · rw [hplan, loadPlan_builtIn, hbuiltIn]
    · rw [hdefaults]; exact defaultsOf_getElem t.plan n
    · obtain ⟨hwindows, hcopy, hmask, hclear, hline⟩ := hport p
      refine ⟨by rw [hcopy, hwindows]; rfl, fun h => absurd h hno, fun _ => ?_, fun i hi => ⟨fun h => absurd h hno, fun _ => ?_⟩,
        ?_, ?_⟩
      · rw [hwindows]
        show builtInWindows[(0 : Fin 4)] = _ ∧ ∀ i : Fin 4, i ≠ 0 → builtInWindows[i].enable = false
        decide
      · rw [hmask]; exact flag_allKinds hi
      · rw [hclear]; exact iff_of_false (by simp [bootPort]) fun h => hno h.1
      · rw [hline]; exact iff_of_false (by simp [bootPort]) fun h => hno h.1

end Sys2Proof.Machine
end

section
/-! PROOFS. The words of a record and their CRC (R148, R149, R157, R182). -/

namespace Sys2Proof.Machine

/-! ## The CRC, bit by bit (R149) -/

/-- One step of the CRC with bit 15 − i of x. -/
def crcStep (x r : Word) (i : Nat) : Word :=
  if r.getLsbD 15 = x.getLsbD (15 - i) then r <<< 1 else (r <<< 1) ^^^ 0x1021

theorem foldl_bitsOf (x r : Word) : (bitsOf x).foldl crcBit r = (List.range 16).foldl (crcStep x) r := by
  have hbits : bitsOf x = (List.range 16).map fun i => x.getLsbD (15 - i) := rfl
  have hstep : (fun (r : Word) (i : Nat) => crcBit r (x.getLsbD (15 - i))) = crcStep x := by
    funext r i
    unfold crcBit crcStep
    by_cases h : r.getLsbD 15 = x.getLsbD (15 - i)
    · rw [if_neg (by rw [h]; simp), if_pos h]
    · rw [if_pos (by simpa using h), if_neg h]
  rw [hbits, List.foldl_map, hstep]

theorem crc16_snoc (ws : List Word) (x : Word) : crc16 (ws ++ [x]) = (List.range 16).foldl (crcStep x) (crc16 ws) := by
  rw [crc16, List.foldl_append]
  exact foldl_bitsOf x (crc16 ws)

/-- Fed with its own value the register only shifts. -/
theorem crcStep_own (r : Word) (k : Nat) (h : k ≤ 16) : (List.range k).foldl (crcStep r) r = r <<< k := by
  induction k with
  | zero => simp
  | succ k ih =>
    have htop : (r <<< k).getLsbD 15 = r.getLsbD (15 - k) := by
      rw [BitVec.getLsbD_shiftLeft]
      have hk : ¬ 15 < k := by omega
      simp [hk]
    rw [List.range_succ, List.foldl_append, ih (by omega)]
    show crcStep r (r <<< k) k = _
    rw [crcStep, if_pos htop, BitVec.shiftLeft_add]

theorem crc16_withCrc (ws : List Word) : crc16 (withCrc ws) = 0 := by
  rw [withCrc, crc16_snoc, crcStep_own _ 16 (by omega)]
  exact BitVec.shiftLeft_eq_zero (by omega)

/-! ## Quantities in words (R179) -/

theorem words32_value (n : Nat) : (word (n / 65536)).toNat * 65536 + (word n).toNat = n % 4294967296 := by
  simp only [word, BitVec.toNat_ofNat]
  omega

theorem words48_value (n : Nat) : (word (n / 4294967296)).toNat * 4294967296
    + ((word (n / 65536)).toNat * 65536 + (word n).toNat) = n % 281474976710656 := by
  simp only [word, BitVec.toNat_ofNat]
  omega

theorem hiLo_value (x : Word32) : (hiWord x).toNat * 65536 + (loWord x).toNat = x.toNat := by
  have hx := x.isLt
  simp only [hiWord, loWord, BitVec.extractLsb'_toNat, Nat.shiftRight_eq_div_pow]
  omega

/-! ## The words of a record (Table 12-5) -/

/-- The 20 words that every record begins with. -/
def recordHead (s : State) (reason : Nat) (endTime : Word32) : List Word :=
  [word (recordLength s), hiWord s.ses.number, loWord s.ses.number,
    fieldAt reason 0 ||| fieldAt (worstCode s.mtr.worst) 4 ||| fieldAt s.mtr.lines.length 8,
    flagAt s.ses.tag.isSome 0 ||| flagAt s.ses.timeUnknown 1 ||| flagAt s.ses.bandHeld 2 ||| flagAt s.ses.holdWithdrawn 3,
    hiWord s.ses.startTime, loWord s.ses.startTime, hiWord endTime, loWord endTime,
    word (s.mtr.chg.wh / 65536), word s.mtr.chg.wh, word (s.mtr.heat.wh / 65536), word s.mtr.heat.wh,
    word (s.mtr.aux.wh / 65536), word s.mtr.aux.wh, word (s.mtr.standby.wh / 65536), word s.mtr.standby.wh,
    word (residueSum s.mtr / 65536), word (residueSum s.mtr), word s.mtr.minPerVolt]

theorem sessionWords_eq (s : State) (reason : Nat) (endTime : Word32) : sessionWords s reason endTime
    = recordHead s reason endTime ++ (tagWords s.ses.tag ++ s.mtr.lines.flatMap lineWords) := by
  simp [sessionWords, recordHead, words32]

theorem lineWords_length (l : BandLine) : (lineWords l).length = 7 := rfl

theorem lines_length (ls : List BandLine) : (ls.flatMap lineWords).length = 7 * ls.length := by
  induction ls with
  | nil => rfl
  | cons l ls ih => rw [List.flatMap_cons, List.length_append, ih, lineWords_length, List.length_cons]; omega

theorem lines_word (ls : List BandLine) {i j : Nat} (h : i < ls.length) (hj : j < 7) :
    (ls.flatMap lineWords).getD (7 * i + j) 0 = (lineWords ls[i]).getD j 0 := by
  induction ls generalizing i with
  | nil => simp at h
  | cons l ls ih =>
    rw [List.flatMap_cons]
    cases i with
    | zero => rw [List.getD_append _ _ _ _ (by rw [lineWords_length]; omega)]; simp
    | succ i =>
      rw [List.getD_append_right _ _ _ _ (by rw [lineWords_length]; omega), lineWords_length]
      have hi : 7 * (i + 1) + j - 7 = 7 * i + j := by omega
      rw [hi, ih (by simpa using h)]
      rfl

theorem recordFields_value : ∀ (a b : Fin 4) (c : Fin 5),
    (fieldAt a.val 0 ||| fieldAt b.val 4 ||| fieldAt c.val 8).toNat = a.val + 16 * b.val + 256 * c.val := by decide

theorem recordFlags_value : ∀ a b c d : Bool, (flagAt a 0 ||| flagAt b 1 ||| flagAt c 2 ||| flagAt d 3).toNat
    = (if a = true then 1 else 0) + (if b = true then 2 else 0) + (if c = true then 4 else 0) + (if d = true then 8 else 0) := by
  decide

theorem storedLength_getD_le (ct : Vector Word 53) : (storedLength ct).getD 53 ≤ 53 := by
  cases h : storedLength ct with
  | none => exact le_refl _
  | some n => exact (storedLength_le h).2

theorem copyOf_length (ct : Vector Word 53) : (copyOf ct).length = (storedLength ct).getD 53 := by
  have hle := storedLength_getD_le ct
  have htake : (ct.toList.take ((storedLength ct).getD 53)).length = (storedLength ct).getD 53 := by simpa using hle
  unfold copyOf
  dsimp only
  split
  · exact htake
  · rw [List.length_set, htake]

/-- A word of the copy: the content's own, with CORRUPT in word 4 of one that fails its check (R157). -/
theorem copyOf_word {ct : Vector Word 53} {i : Fin 53} (h : i.val < (copyOf ct).length) :
    (copyOf ct)[i.val]? = some (if i.val = 4 ∧ passes ct = false then ct[i] ||| 0x8000 else ct[i]) := by
  rw [copyOf_length] at h
  have htake : (ct.toList.take ((storedLength ct).getD 53))[i.val]? = some ct[i] := by
    simp [h]
  unfold copyOf
  dsimp only
  cases hp : passes ct with
  | true => simpa using htake
  | false =>
    rw [if_neg (by simp), List.getElem?_set]
    by_cases hi : 4 = i.val
    · have hword : contentWord ct 4 = ct[i] := by
        simp [contentWord, ← hi]
      have hin : 4 < (ct.toList.take ((storedLength ct).getD 53)).length := by
        have := storedLength_getD_le ct
        simp only [List.length_take, Vector.length_toList]
        omega
      rw [if_pos hi, if_pos hin, if_pos ⟨hi.symm, rfl⟩, hword]
    · rw [if_neg hi, htake, if_neg (by omega)]

/-- Settles O52: the record by its head, its tag and its lines, the CRC by its bits, and the checks of a content area. -/
theorem recordWords : Obligations.RecordWords := by
  unfold Obligations.RecordWords
  refine ⟨fun s reason endTime hlines hreason => ?_, ⟨rfl, fun ws x => ⟨crc16_snoc ws x, crc16_withCrc ws⟩⟩, fun q c => rfl, fun ct => ?_⟩
  · intro ws w two tagLength m
    have hws : ws = recordHead s reason endTime ++ (tagWords s.ses.tag ++ s.mtr.lines.flatMap lineWords) :=
      sessionWords_eq s reason endTime
    have htag : (tagWords s.ses.tag).length = tagLength := by
      show _ = if s.ses.tag = none then 0 else 4
      cases s.ses.tag <;> rfl
    have hlength : ws.length + 1 = 21 + tagLength + 7 * s.mtr.lines.length := by
      rw [hws, List.length_append, List.length_append, htag, lines_length]
      show 20 + (tagLength + 7 * s.mtr.lines.length) + 1 = _
      omega
    have htagle : tagLength ≤ 4 := by
      show (if s.ses.tag = none then 0 else 4) ≤ 4
      split <;> omega
    refine ⟨rfl, hlength, ?_, hiLo_value _, hiLo_value _, hiLo_value _, ?_, ?_, words32_value _, words32_value _, words32_value _,
      words32_value _, words32_value _, ?_, fun g hg => ?_, fun i hi => ?_⟩
    · have hrecord : recordLength s = ws.length + 1 := by
        rw [hlength, ← htag]; rfl
      have hw0 : w 0 = (word (recordLength s)).toNat := rfl
      rw [hw0, word, BitVec.toNat_ofNat, ← hrecord, recordLength, htag]
      omega
    · have hworst : worstCode s.mtr.worst < 4 := by
        cases s.mtr.worst with
        | none => decide
        | some c => cases c <;> decide
      refine (recordFields_value ⟨reason, by omega⟩ ⟨worstCode s.mtr.worst, hworst⟩ ⟨s.mtr.lines.length, by omega⟩).trans ?_
      show reason + 16 * worstCode s.mtr.worst + 256 * s.mtr.lines.length = _
      cases s.mtr.worst with
      | none => rfl
      | some c => cases c <;> rfl
    · refine (recordFlags_value s.ses.tag.isSome _ _ _).trans ?_
      cases s.ses.tag <;> rfl
    · exact BitVec.toNat_ofNat _ _
    · have hat : ∀ k, k < 4 → ws.getD (20 + k) 0 = [g.w0, g.w1, g.w2, g.w3].getD k 0 := fun k hk => by
        rw [hws, hg, List.getD_append_right _ _ _ _ (by show 20 ≤ _; omega)]
        show (([g.w0, g.w1, g.w2, g.w3] ++ _).getD (20 + k - 20) 0) = _
        rw [Nat.add_sub_cancel_left, List.getD_append _ _ _ _ (by simpa using hk)]
      exact ⟨congrArg BitVec.toNat (hat 0 (by omega)), congrArg BitVec.toNat (hat 1 (by omega)),
        congrArg BitVec.toNat (hat 2 (by omega)), congrArg BitVec.toNat (hat 3 (by omega))⟩
    · intro at'
      have hat : ∀ k, k < 7 → ws.getD (at' + k) 0 = (lineWords s.mtr.lines[i]).getD k 0 := fun k hk => by
        have hindex : at' + k = 20 + (tagLength + (7 * i + k)) := by
          show 20 + tagLength + 7 * i + k = _
          omega
        rw [hindex, hws, List.getD_append_right _ _ _ _ (by show 20 ≤ _; omega)]
        show ((tagWords s.ses.tag ++ _).getD (20 + (tagLength + (7 * i + k)) - 20) 0) = _
        rw [Nat.add_sub_cancel_left, List.getD_append_right _ _ _ _ (by omega), htag, Nat.add_sub_cancel_left,
          lines_word _ hi hk]
      have hword : ∀ k, k < 7 → w (at' + k) = ((lineWords s.mtr.lines[i]).getD k 0).toNat := fun k hk =>
        congrArg BitVec.toNat (hat k hk)
      have hband : (word s.mtr.lines[i].band.val).toNat = s.mtr.lines[i].band.val := by
        rw [word, BitVec.toNat_ofNat]; omega
      refine ⟨(hword 0 (by omega)).trans hband, hword 1 (by omega), ?_, ?_⟩
      · show w (at' + 2) * 65536 + w (at' + 3) = _
        rw [hword 2 (by omega), hword 3 (by omega)]
        exact words32_value _
      · show w (at' + 4) * 4294967296 + (w (at' + 5) * 65536 + w (at' + 6)) = _
        rw [hword 4 (by omega), hword 5 (by omega), hword 6 (by omega)]
        exact words48_value _
  · intro n fits
    have hfirst : (contentWord ct 0).toNat = n := rfl
    have hlength : storedLength ct = if fits then some n else none := by rw [storedLength, hfirst]
    refine ⟨?_, rfl, ?_, fun i hi => ?_⟩
    · by_cases hfits : fits
      · rw [if_pos hfits] at hlength
        rw [passes_of_length hlength, beq_iff_eq]
        have hin : n - 1 < 53 := by have := hfits.2; omega
        have hword : contentWord ct (n - 1) = ct[n - 1] := by simp [contentWord, hin]
        rw [hword]
        simp only [hfits, true_and, Vector.getElem?_toList, Vector.getElem?_eq_getElem hin, Option.some.injEq]
        exact eq_comm
      · rw [if_neg hfits] at hlength
        simp [passes, hlength, hfits]
    · rw [copyOf_length, hlength]
      split
      · rfl
      · rfl
    · rw [copyOf_word hi]

end Sys2Proof.Machine
end

section
/-! PROOFS. The turn queue, the walk from the turn position and the keep-or-shed rule (R81, R86, R88 to R90). -/

namespace Sys2Proof.Machine

theorem mem_zoneIds (z : Fin 8) : z ∈ zoneIds := by revert z; decide

theorem enabled_iff (s : State) (z : Fin 8) :
    enabled s z = true ↔ 0 < (s.zone z).rating ∧ s.htr.mode.mask.getLsbD z.val = true := by
  simp [enabled, inMask]

theorem checkPhase_iff (s : State) : checkPhase s = true ↔ ∃ z, (0 < (s.zone z).rating ∧ s.htr.mode.mask.getLsbD z.val = true)
    ∧ ((s.zone z).state = .unchecked ∨ (s.zone z).state = .checking) := by
  simp only [checkPhase, List.any_eq_true, mem_zoneIds, true_and, Bool.and_eq_true, enabled_iff, Bool.or_eq_true, beq_iff_eq]

/-- The candidate is the lowest enabled UNCHECKED zone (R81). -/
theorem candidateOf_iff (s : State) (z : Fin 8) : candidateOf s.htr = some z ↔
    (0 < (s.zone z).rating ∧ s.htr.mode.mask.getLsbD z.val = true) ∧ (s.zone z).state = .unchecked
      ∧ ∀ y, y < z → (0 < (s.zone y).rating ∧ s.htr.mode.mask.getLsbD y.val = true) → (s.zone y).state ≠ .unchecked := by
  have hids : zoneIds = List.finRange 8 := by decide
  rw [candidateOf, hids, find_finRange_iff]
  simp only [Bool.and_eq_true, decide_eq_true_eq, beq_iff_eq, and_assoc]
  refine and_congr_right fun _ => and_congr_right fun _ => and_congr_right fun _ => forall₂_congr fun y _ => ?_
  rw [← Bool.not_eq_true]
  simp only [Bool.and_eq_true, decide_eq_true_eq, beq_iff_eq, not_and, and_imp]
  rfl

theorem checkOffered_iff (s : State) : checkOffered s = true ↔ s.htr.check = none ∧ s.alc.record.source ≠ .none
    ∧ (s.iso.grade = .good ∨ s.iso.grade = .warning) ∧ s.iso.lockout = false ∧ 500 ≤ s.iso.uBus ∧ s.htr.pendingMode = none := by
  simp only [checkOffered, Bool.and_eq_true, insulationOk_iff, Option.isNone_iff_eq_none, bne_iff_ne, decide_eq_true_eq, and_assoc]
  rfl

/-! ## The walk (R86, R89) -/

theorem burstLen_bounds (h : Htr) : 0 < burstLen h ∧ burstLen h ≤ 8 := by
  unfold burstLen
  cases h.mode.burst <;> decide

theorem walkPositions_get (h : Htr) {n : Nat} (hn : n < burstLen h) :
    (walkPositions h)[n]? = some ((h.p.val + n) % burstLen h) := by
  simp [walkPositions, hn]

theorem walkPositions_length (h : Htr) : (walkPositions h).length = burstLen h := by simp [walkPositions]

theorem prefixRule_still {s : State} (g : Nat) (h : (checkPhase s || s.htr.pendingMode.isSome) = true) : prefixRule s g
    = ⟨(withRatings s (turnQueue s)).filter (fun x => decide (0 < x.2 ∧ x.2 ≤ g)), true, false, s.htr.p, false⟩ := if_pos h

theorem prefixRule_walk {s : State} (g : Nat) (h : (checkPhase s || s.htr.pendingMode.isSome) = false) :
    (prefixRule s g).zones = (prefixWalk s g (walkPositions s.htr)).1 ∧ (prefixRule s g).boundary = true
      ∧ (prefixRule s g).moves = true
      ∧ ((prefixWalk s g (walkPositions s.htr)).2 = none → (prefixRule s g).p = s.htr.p ∧ (prefixRule s g).round = true)
      ∧ ∀ i, (prefixWalk s g (walkPositions s.htr)).2 = some i → (prefixRule s g).p = Fin.ofNat 8 i
        ∧ (prefixRule s g).round = decide (i < s.htr.p.val ∨ burstLen s.htr = 1) := by
  have hw : prefixRule s g = _ := if_neg (by simp [h])
  dsimp only at hw
  cases hs : (prefixWalk s g (walkPositions s.htr)).2 with
  | none =>
    rw [hs] at hw
    rw [hw]
    exact ⟨rfl, rfl, rfl, fun _ => ⟨rfl, rfl⟩, fun i hi => by simp at hi⟩
  | some j =>
    rw [hs] at hw
    rw [hw]
    refine ⟨rfl, rfl, rfl, fun hn => by simp at hn, fun i hi => ?_⟩
    obtain rfl := Option.some.inj hi
    exact ⟨rfl, rfl⟩

theorem prefixRule_boundary (s : State) (g : Nat) : (prefixRule s g).boundary = true := by
  cases h : (checkPhase s || s.htr.pendingMode.isSome) with
  | true => rw [prefixRule_still g h]
  | false => exact (prefixRule_walk g h).2.1

/-- Settles O25: the queue by the check phase, the walk by its stop, and the shed set by its length. -/
theorem heatQuantized : Obligations.HeatQuantized := by
  unfold Obligations.HeatQuantized
  intro s g h len rating order enabled candidate checking offered wants takes r k
  have hchecking : checkPhase s = true ↔ checking := checkPhase_iff s
  have hoffered : checkOffered s = true ↔ offered := checkOffered_iff s
  have hcandidate : ∀ z, candidateOf s.htr = some z ↔ candidate z := candidateOf_iff s
  have hstill : (checkPhase s || s.htr.pendingMode.isSome) = true ↔ checking ∨ h.pendingMode ≠ none := by
    rw [Bool.or_eq_true, hchecking, Option.isSome_iff_ne_none]
  have horder : (walkPositions s.htr).map (zoneAt s.htr) = order := by
    rw [walkPositions, List.map_map]; rfl
  obtain ⟨m, hm, hkeep, hfit, hmax⟩ := keepOrShed_spec s g
  refine ⟨fun hc => ⟨fun z hz ho => ?_, fun hno => ?_⟩, fun hc hp => ?_, fun hc hp => ?_, prefixRule_boundary s g, fun hq => ?_,
    fun hc hp => ?_, ?_⟩
  · rw [turnQueue, if_pos (hchecking.2 hc), if_pos (hoffered.2 ho), (hcandidate z).2 hz]; rfl
  · rw [turnQueue, if_pos (hchecking.2 hc)]
    split
    · next ho =>
      have hnone : candidateOf s.htr = none := Option.eq_none_iff_forall_ne_some.2 fun z hz =>
        hno.elim (fun h => h z ((hcandidate z).1 hz)) fun h => h (hoffered.1 ho)
      rw [hnone]; rfl
    · rfl
  · rw [turnQueue, if_neg (fun h => hc (hchecking.1 h)), if_pos (Option.isSome_iff_ne_none.2 hp)]
  · rw [turnQueue, if_neg (fun h => hc (hchecking.1 h)), if_neg (by rw [Option.isSome_iff_ne_none]; exact not_not_intro hp), horder]
    rfl
  · have hr : r = _ := prefixRule_still g (hstill.2 hq)
    rw [hr]
    exact ⟨rfl, rfl, rfl, rfl⟩
  · have hq : (checkPhase s || s.htr.pendingMode.isSome) = false := by
      rw [← Bool.not_eq_true, hstill]
      exact not_or.2 ⟨hc, not_not_intro hp⟩
    obtain ⟨hzones, -, hmoves, hround, hstop⟩ := prefixRule_walk g hq
    obtain ⟨n, hn, htaken, hsum, hat, hover⟩ := prefixWalk_spec s (walkPositions s.htr) g
    rw [walkPositions_length] at hn
    refine ⟨hmoves, n, hn, ?_, by rw [hzones]; exact hsum, fun hlen => ?_, fun hlt => ⟨fun z hz => ?_, ?_⟩⟩
    · rw [hzones, htaken, List.map_take, horder]
      rfl
    · exact hround (by rw [hat, List.getElem?_eq_none]; rw [walkPositions_length]; exact hlen.ge)
    · have hwalk := walkPositions_get s.htr hlt
      have hz' : z = zoneAt s.htr ((s.htr.p.val + n) % burstLen s.htr) := by
        have hget := congrArg (·[n]?) horder
        simp only [List.getElem?_map, hwalk, Option.map_some, hz] at hget
        exact (Option.some.inj hget).symm
      rw [hz', hzones]
      exact hover _ hwalk
    · obtain ⟨hp', hr'⟩ := hstop _ (by rw [hat, walkPositions_get s.htr hlt])
      obtain ⟨hpos, hle⟩ := burstLen_bounds s.htr
      have hmod := Nat.mod_lt (s.htr.p.val + n) hpos
      refine ⟨?_, hr'⟩
      rw [hp']
      exact Nat.mod_eq_of_lt (by omega)
  · have hk : k = _ := hkeep
    rw [hk]
    exact ⟨rfl, rfl, rfl, rfl, m, hm, rfl, hfit, hmax⟩

end Sys2Proof.Machine
end

section
/-! PROOFS. The division of a grant record's budget, the ramp and I_set (R47 to R54). -/

namespace Sys2Proof.Machine

/-! ## The division by rank (R49, R50) -/

def Consumer.place : Consumer → Nat
  | .heat => 0
  | .aux => 1
  | .chg => 2

/-- Consumer d is served before c: by rank, equal ranks in the order HEAT, AUX, CHG (R4). -/
def servedBefore (s : State) (d c : Consumer) : Bool :=
  rankOf s d < rankOf s c || rankOf s d == rankOf s c && d.place < c.place

def Division.granted (d : Division) : Consumer → Nat
  | .heat => ratingSum d.heat.zones
  | .aux => d.gAux
  | .chg => d.gChg

/-- What the consumers served before c leave of the budget. -/
def Division.left (s : State) (b : Nat) (d : Division) (c : Consumer) : Nat :=
  b - ((([.heat, .aux, .chg] : List Consumer).filter (servedBefore s · c)).map d.granted).sum

theorem servedBefore_self (s : State) (c : Consumer) : servedBefore s c c = false := by simp [servedBefore]

/-- Of two consumers the one named first is served first at an equal rank. -/
theorem servedBefore_pair (s : State) {d c : Consumer} (h : d.place < c.place) :
    servedBefore s d c = decide (rankOf s d ≤ rankOf s c) ∧ servedBefore s c d = !decide (rankOf s d ≤ rankOf s c) := by
  have hnot : ¬ c.place < d.place := by omega
  unfold servedBefore
  constructor
  · rw [Bool.eq_iff_iff]; simp [h]; omega
  · rw [Bool.eq_iff_iff]; simp [hnot]

/-- Each consumer is offered what those before it left (R49). -/
theorem divide_offers (s : State) (ch : Choice) :
    (divide s ch).heat = quantize s (grantBeforeFloor s ch .heat ((divide s ch).left s ch.b .heat))
      ∧ (divide s ch).gAux = grantBeforeFloor s ch .aux ((divide s ch).left s ch.b .aux)
      ∧ (divide s ch).gChg = grantBeforeFloor s ch .chg ((divide s ch).left s ch.b .chg) := by
  obtain ⟨bha, bah⟩ := servedBefore_pair s (d := .heat) (c := .aux) (by decide)
  obtain ⟨bhc, bch⟩ := servedBefore_pair s (d := .heat) (c := .chg) (by decide)
  obtain ⟨bac, bca⟩ := servedBefore_pair s (d := .aux) (c := .chg) (by decide)
  by_cases hha : rankOf s .heat ≤ rankOf s .aux <;> by_cases hhc : rankOf s .heat ≤ rankOf s .chg <;>
    by_cases hac : rankOf s .aux ≤ rankOf s .chg
  all_goals
    simp only [hha, hhc, hac, decide_true, decide_false, Bool.not_true, Bool.not_false] at bha bah bhc bch bac bca
  all_goals
    simp [divide, serviceOrder, insertByRank, serve, Division.left, Division.granted, servedBefore_self, *, Nat.sub_sub, Nat.add_comm]
  all_goals omega

/-! ## The source's budget, the requests and the zone set -/

theorem choose_budget (s : State) : (choose s).b
    = match (choose s).source with | .grid => bGrid s | .pack => packBudget s | .none => 0 := by
  have hoff : (offChoice s).b = match (offChoice s).source with | .grid => bGrid s | .pack => packBudget s | .none => 0 := by
    unfold offChoice; split <;> rfl
  unfold choose
  split
  · exact hoff
  · split
    · exact hoff
    · split
      · rfl
      · split
        · rfl
        · exact hoff

theorem quantize_positive (s : State) (g : Nat) : ∀ x ∈ (quantize s g).zones, 0 < x.2 := by
  intro x hx
  unfold quantize at hx
  split at hx
  · cases hq : (checkPhase s || s.htr.pendingMode.isSome) with
    | true =>
      rw [prefixRule_still g hq] at hx
      exact (of_decide_eq_true (List.mem_filter.1 hx).2).1
    | false =>
      obtain ⟨n, -, htaken, -⟩ := prefixWalk_spec s (walkPositions s.htr) g
      rw [(prefixRule_walk g hq).1, htaken] at hx
      obtain ⟨z, hz, rfl⟩ := List.mem_map.1 hx
      have htakes := (List.mem_filter.1 hz).2
      exact of_decide_eq_true (Bool.and_eq_true_iff.1 htakes).2
  · obtain ⟨n, -, hkeep, -⟩ := keepOrShed_spec s g
    rw [hkeep] at hx
    exact of_decide_eq_true (List.mem_filter.1 (List.mem_of_mem_take hx)).2

theorem zones_nil_of_sum {zs : List (Fin 8 × Nat)} (hpos : ∀ x ∈ zs, 0 < x.2) (h : ratingSum zs = 0) : zs = [] := by
  cases zs with
  | nil => rfl
  | cons x zs =>
    have hx := hpos x List.mem_cons_self
    simp [ratingSum] at h
    omega

theorem windowInForce_iff (s : State) : windowInForce s = true ↔ s.alc.window = .granted := by simp [windowInForce]

theorem slotBoundaryDue_iff (s : State) : slotBoundaryDue s = true ↔
    s.htr.boundaryDue = true ∧ s.alc.window ≠ .granted ∧ ∀ x ∈ s.htr.inbox, x.boundary = false := by
  simp [slotBoundaryDue, boundaryTaken, windowInForce, and_assoc]

/-- R_chg (R48): with I_acc 0 the request is 0 whether or not it is counted as one. -/
theorem requestOf_chg (s : State) (ch : Choice) : requestOf s ch .chg
    = if ch.mode = .charge ∧ flag (s.entry 4).w1 0 = true ∧ s.iso.uBus < (s.entry 5).w1.toNat then s.iso.uBus * iAcc s / 100
      else 0 := by
  by_cases hacc : 0 < iAcc s
  · simp [requestOf, chargeEnable, uMaxEntry, hacc]
  · have hzero : iAcc s = 0 := by omega
    simp [requestOf, hzero]

theorem requestOf_chg_le (s : State) (ch : Choice) : requestOf s ch .chg ≤ s.iso.uBus * iAcc s / 100 := by
  rw [requestOf_chg]
  split
  · exact le_refl _
  · exact Nat.zero_le _

theorem wantOf_le_request (s : State) (ch : Choice) (c : Consumer) : wantOf s ch c ≤ requestOf s ch c := by
  unfold wantOf
  split
  · exact Nat.zero_le _
  · exact Nat.min_le_left _ _

theorem setPower_le (s : State) (g : Nat) : setPower s g ≤ g := by
  unfold setPower ramped
  split
  · exact Nat.zero_le _
  · split
    · exact Nat.min_le_left _ _
    · exact le_refl _

/-- Under a rest in CHARGE mode HEAT and AUX want nothing (R49). -/
theorem wantOf_resting {s : State} {ch : Choice} {c : Consumer} (hr : s.alc.resting = true) (hm : ch.mode = .charge)
    (hc : c ≠ .chg) : wantOf s ch c = 0 := if_pos (by simp [restDrops, hr, hm, hc])

/-- Settles O24: the balance of the division, the ramp, and each consumer's offer. -/
theorem grantRecordBalances : Obligations.GrantRecordBalances := by
  unfold Obligations.GrantRecordBalances
  refine ⟨fun s => ?_, fun s => ?_, fun s => ?_⟩
  · intro r
    obtain ⟨hsum, hheat, ⟨ra, haux⟩, ⟨rc, hchg⟩⟩ := divide_spec s (choose s)
    obtain ⟨-, hauxw, hauxf⟩ := grantBeforeFloor_spec s (choose s) .aux ra
    obtain ⟨-, hchgw, hchgf⟩ := grantBeforeFloor_spec s (choose s) .chg rc
    rw [← haux] at hauxw hauxf
    rw [← hchg] at hchgw hchgf
    have hs : r.s ≤ r.gChg := setPower_le s _
    have hunused : r.unused = (divide s (choose s)).remaining + (r.gChg - r.s) := rfl
    have hb : ratingSum r.zones + r.gAux + r.gChg + (divide s (choose s)).remaining = r.b := hsum
    have hgheat : r.gHeat = ratingSum r.zones := rfl
    refine ⟨by omega, hs, rfl, by omega, choose_budget s, fun h => ?_, fun h => ?_, fun h => ?_, hheat.trans (wantOf_le_cap _ _ _),
      hauxw.trans (wantOf_le_cap _ _ _), hchgw.trans (wantOf_le_cap _ _ _), hauxf, hchgf, rfl⟩
    · have hnone : requestOf s (choose s) .aux = 0 := if_neg h
      exact Nat.le_zero.1 (hnone ▸ hauxw.trans (wantOf_le_request _ _ _))
    · have hnone : requestOf s (choose s) .chg = 0 := if_neg fun hc => h hc.1
      exact Nat.le_zero.1 (hnone ▸ hchgw.trans (wantOf_le_request _ _ _))
    · have hnone : requestOf s (choose s) .heat = 0 := if_pos h
      exact Nat.le_zero.1 (hnone ▸ hheat.trans (wantOf_le_request _ _ _))
  · intro r iAcc'
    have hacc : iAcc s = iAcc' := rfl
    obtain ⟨-, -, -, ⟨rc, hchg⟩⟩ := divide_spec s (choose s)
    obtain ⟨-, hchgw, -⟩ := grantBeforeFloor_spec s (choose s) .chg rc
    rw [← hchg] at hchgw
    have hheld : (windowInForce s || s.alc.resting || decide (s.iso.uBus < Config.energizedAt)) = true
        ↔ s.alc.window = .granted ∨ s.alc.resting = true ∨ s.iso.uBus < 500 := by
      simp only [Bool.or_eq_true, windowInForce_iff, decide_eq_true_eq, or_assoc]
      rfl
    exact ⟨fun h => if_pos (hheld.2 h), fun h => if_neg fun hb => h (hheld.1 hb), rfl,
      (hchgw.trans (wantOf_le_request _ _ _)).trans (requestOf_chg_le s _)⟩
  · intro r granted place before left iAcc' zones asked offered heat
    obtain ⟨hheat, haux, hchg⟩ := divide_offers s (choose s)
    have hbefore : before = servedBefore s := by
      funext d c
      cases d <;> cases c <;> rfl
    have hgranted : granted = (divide s (choose s)).granted := by
      funext c
      cases c <;> rfl
    have hleft : ∀ c, (divide s (choose s)).left s (choose s).b c = left c := fun c => by
      show _ = r.b - ((List.filter (before · c) _).map granted).sum
      rw [hbefore, hgranted]
      rfl
    have hasked : ∀ c, requestOf s (choose s) c = asked c := fun c => by
      cases c with
      | heat =>
        show (if _ then 0 else ratingSum (withRatings s zones)) = if _ then 0 else _
        simp only [ratingSum, withRatings, List.map_map]
        rfl
      | aux => rfl
      | chg => exact requestOf_chg s _
    have hwant : ∀ c, wantOf s (choose s) c = if s.alc.resting = true ∧ r.mode = .charge ∧ c ≠ .chg then 0
        else min (asked c) (capOf s c) := fun c => by
      have hmode : r.mode = (choose s).mode := rfl
      rw [wantOf, hasked, hmode]
      simp [restDrops, and_assoc]
    have hoffered : ∀ c, grantBeforeFloor s (choose s) c (left c) = offered c := fun c => by
      rw [grantBeforeFloor, hwant]
    have hquantized : (divide s (choose s)).heat = heat := by
      rw [hheat, hleft, hoffered]; rfl
    rw [hleft, hoffered] at haux hchg
    refine ⟨haux, hchg, congrArg Quantized.zones hquantized, congrArg Quantized.moves hquantized,
      congrArg Quantized.p hquantized, congrArg Quantized.round hquantized, slotBoundaryDue_iff s, fun hrest hcharge => ?_⟩
    have hzero : ∀ c, c ≠ .chg → offered c = 0 := fun c hc => by
      rw [← hoffered]
      have hle := (grantBeforeFloor_spec s (choose s) c (left c)).2.1
      rw [wantOf_resting hrest hcharge hc] at hle
      omega
    have hsum : ratingSum r.zones = 0 := by
      have hle := quantize_le s (offered .heat)
      have hzones : r.zones = (quantize s (offered .heat)).zones := congrArg Quantized.zones hquantized
      rw [hzones, hzero .heat (by decide)] at *
      omega
    have hpositive : ∀ x ∈ r.zones, 0 < x.2 := by
      have hzones : r.zones = (quantize s (offered .heat)).zones := congrArg Quantized.zones hquantized
      rw [hzones]
      exact quantize_positive s _
    exact ⟨zones_nil_of_sum hpositive hsum, hsum, haux.trans (hzero .aux (by decide))⟩

end Sys2Proof.Machine
end

section
/-! PROOFS. A change of grade (R112, R113): what it leaves of the hold, the lockout, the session and the zones. -/

namespace Sys2Proof.Machine

/-! ## The hold (R67) -/

/-- The hold after a grade that may have left GOOD and WARNING. -/
def holdEnded (old new : Grade) (s : State) : State := if old.isProven && !new.isProven then endHoldByGrade s else s

theorem holdEnded_lost {old new : Grade} (s : State) (h : (old.isProven && !new.isProven) = true) :
    holdEnded old new s = endHoldByGrade s := if_pos h

theorem holdEnded_kept {old new : Grade} (s : State) (h : ¬ (old.isProven && !new.isProven) = true) : holdEnded old new s = s :=
  if_neg h

theorem holdEnded_grows (old new : Grade) (s : State) : Grows s (holdEnded old new s) := by
  unfold holdEnded
  split
  · exact endHoldByGrade_grows s
  · exact .refl s

theorem holdEnded_same (old new : Grade) (s : State) :
    (holdEnded old new s).iso = s.iso ∧ (holdEnded old new s).htr = s.htr ∧ (holdEnded old new s).mtr = s.mtr
      ∧ (holdEnded old new s).rst = s.rst ∧ (holdEnded old new s).sup = s.sup
      ∧ (holdEnded old new s).alc.window = s.alc.window ∧ (holdEnded old new s).ses.session = s.ses.session := by
  unfold holdEnded endHoldByGrade markHoldWithdrawn
  (repeat' split) <;> simp [dropHold]

theorem holdEnded_hold (old new : Grade) (s : State) :
    (holdEnded old new s).alc.hold = if (old.isProven && !new.isProven) = true then .none else s.alc.hold := by
  unfold holdEnded
  split
  · exact (endHoldByGrade_spec s).1
  · rfl

theorem holdEnded_told (old new : Grade) (s : State) (h : (holdEnded old new s).alc.hold ≠ s.alc.hold) :
    ToldAll .holdChange s (holdEnded old new s) := by
  by_cases hl : (old.isProven && !new.isProven) = true
  · rw [holdEnded_lost s hl] at h ⊢
    obtain ⟨hnone, htold, -⟩ := endHoldByGrade_spec s
    rw [hnone] at h
    exact htold (Ne.symm h)
  · rw [holdEnded_kept s hl] at h
    exact absurd rfl h

/-- Only an OPEN session notes that its hold was withdrawn (R67). -/
theorem holdEnded_ses_opened (old new : Grade) {s : State} (h : s.ses.session = .opened) :
    (holdEnded old new s).ses = { s.ses with
      holdWithdrawn := s.ses.holdWithdrawn || old.isProven && !new.isProven && decide (s.alc.hold ≠ .none) } := by
  by_cases hl : (old.isProven && !new.isProven) = true
  · obtain ⟨-, -, hses, -⟩ := endHoldByGrade_spec s
    rw [holdEnded_lost s hl, hses, hl]
    by_cases hh : s.alc.hold = .none
    · simp [hh]
    · simp [hh, h]
  · rw [holdEnded_kept s hl, Bool.eq_false_of_not_eq_true hl]
    simp

theorem holdEnded_ses_other (old new : Grade) {s : State} (h : s.ses.session ≠ .opened) : (holdEnded old new s).ses = s.ses := by
  unfold holdEnded
  split
  · obtain ⟨-, -, hses, -⟩ := endHoldByGrade_spec s
    rw [hses, if_neg fun ⟨_, ho⟩ => h ho]
  · rfl

/-! ## A change of grade, case by case -/

/-- The monitor takes the new grade and says so (R112). -/
def graded (g : Grade) (s : State) : State := raise .gradeChange (s.setIso { s.iso with grade := g, candidate := none })

theorem graded_same (g : Grade) (s : State) :
    (graded g s).iso = { s.iso with grade := g, candidate := none } ∧ (graded g s).alc = s.alc ∧ (graded g s).htr = s.htr
      ∧ (graded g s).mtr = s.mtr ∧ (graded g s).rst = s.rst ∧ (graded g s).ses = s.ses := ⟨rfl, rfl, rfl, rfl, rfl, rfl⟩

theorem graded_grows (g : Grade) (s : State) : Grows s (graded g s) := raise_grows_of_eq _ (by simp)

/-- Everything a FAULT ends but the heat: the hold, the session, and the lockout it sets (R35, R67, R117). -/
def isolated (s : State) : State :=
  closeSession .isolation (setLockout (holdEnded s.iso.grade .fault (graded .fault s)))

theorem changeGrade_fault {s : State} (h : s.iso.grade ≠ .fault) :
    changeGrade .fault s = evalDemand (forcedDeenergize (isolated s)) := by
  rw [changeGrade_eq _ s (Ne.symm h), gradeLost]
  simp only [if_pos, Bool.or_true, decide_true]
  rfl

/-- A change to GOOD, WARNING or UNKNOWN: the zones go off where the grade was proven and is not (R94). -/
theorem changeGrade_other {g : Grade} {s : State} (h : g ≠ s.iso.grade) (hg : g ≠ .fault) :
    changeGrade g s = evalDemand (if (s.iso.grade.isProven && !g.isProven) = true
      then forcedDeenergize (holdEnded s.iso.grade g (graded g s)) else graded g s) := by
  rw [changeGrade_eq g s h, gradeLost]
  simp only [if_neg hg, decide_eq_false hg, Bool.or_false]
  unfold holdEnded
  split <;> rfl


/-! ## A change to FAULT (R35, R67, R94, R117) -/

theorem forcedDeenergize_off {s : State} (h : ZonesSound s) :
    (∀ z : Fin 8, ((forcedDeenergize s).zone z).state ≠ .energized ∧ ((forcedDeenergize s).zone z).state ≠ .checking)
      ∧ (forcedDeenergize s).htr.energized = [] := by
  obtain ⟨-, hcold⟩ := allOff_sound_cold ((zonesSound_iff s).1 h)
  refine ⟨fun z => ?_, by simp [forcedDeenergize]⟩
  rw [forcedDeenergize, heaterChanged_zone]
  exact hcold z

/-- A switch report leaves a localization that is not measuring its baseline. -/
theorem heaterChanged_localization (before : Htr) {s : State} (h : s.iso.localization ≠ .baseline) :
    (heaterChanged before s).iso.localization = s.iso.localization := by
  obtain ⟨hsame, hrestart, hdiscard⟩ := heaterChanged_reported before s
  by_cases hd : switchMap before ≠ switchMap s.htr ∧ s.iso.phase.inFlight = true
  · by_cases hr : s.iso.restarts < 2
    · rw [(hrestart hd hr).2]
    · rw [(hdiscard hd (by omega)).2.1]
      exact if_neg h
  · rw [(hsame hd).1]

theorem isolated_iso (s : State) :
    (isolated s).iso.grade = .fault ∧ (isolated s).iso.candidate = none ∧ (isolated s).iso.lockout = true
      ∧ (s.iso.lockout = false ∨ s.iso.localization = .doneNone →
        (isolated s).iso.localization = .baselineWait ∧ (isolated s).iso.marked = 0) := by
  obtain ⟨hiso, -⟩ := holdEnded_same s.iso.grade .fault (graded .fault s)
  obtain ⟨hiso', -⟩ := graded_same .fault s
  unfold isolated
  simp only [closeSession_keeps]
  obtain ⟨hlock, hgrade, hcand, -⟩ := setLockout_spec (holdEnded s.iso.grade .fault (graded .fault s))
  refine ⟨by rw [hgrade, hiso, hiso'], by rw [hcand, hiso, hiso'], hlock, fun h => ?_⟩
  unfold setLockout
  rw [hiso, hiso']
  by_cases hl : s.iso.lockout = true
  · have hd : s.iso.localization = .doneNone := h.resolve_left (by simp [hl])
    rw [if_pos hl, if_pos hd]
    exact ⟨rfl, rfl⟩
  · rw [if_neg hl]
    exact ⟨rfl, rfl⟩

theorem isolated_same (s : State) :
    (isolated s).htr = s.htr ∧ (isolated s).alc.record = s.alc.record ∧ (isolated s).alc.window = s.alc.window
      ∧ (isolated s).alc.hold = if s.iso.grade.isProven = true then .none else s.alc.hold := by
  obtain ⟨-, hhtr, -, -, -, hwindow, -⟩ := holdEnded_same s.iso.grade .fault (graded .fault s)
  have hhold := holdEnded_hold s.iso.grade .fault (graded .fault s)
  have hrecord : (holdEnded s.iso.grade .fault (graded .fault s)).alc.record = s.alc.record := by
    unfold holdEnded
    split <;> simp [graded]
  unfold isolated
  simp only [closeSession_keeps, setLockout_keeps]
  refine ⟨hhtr, hrecord, hwindow, hhold.trans ?_⟩
  simp only [show Grade.fault.isProven = false from rfl, Bool.not_false, Bool.and_true]
  rfl

theorem isolated_grows (s : State) : Grows s (isolated s) :=
  ((graded_grows _ s).trans (holdEnded_grows _ _ _)).trans ((setLockout_grows _).trans (closeSession_grows _ _))

/-- The session that a FAULT closes, with the flag of the hold it ended (R35, R67). -/
theorem isolated_opened {s : State} (h : s.ses.session = .opened) :
    (isolated s).ses.session = .closing ∧ (isolated s).ses.closeReason = some .isolation
      ∧ (isolated s).ses.holdWithdrawn = (s.ses.holdWithdrawn || s.iso.grade.isProven && decide (s.alc.hold ≠ .none))
      ∧ finalPending (isolated s).rst = true ∧ ToldAll .sessionChange s (isolated s) := by
  have hses := holdEnded_ses_opened s.iso.grade .fault (s := graded .fault s) h
  have hopen : (setLockout (holdEnded s.iso.grade .fault (graded .fault s))).ses.session = .opened := by
    simp only [setLockout_keeps, hses]
    exact h
  obtain ⟨hclosed, -, hfinal⟩ := closeSession_spec .isolation _ hopen
  have hbefore := ((graded_grows .fault s).trans (holdEnded_grows s.iso.grade .fault _)).trans (setLockout_grows _)
  refine ⟨by rw [isolated, hclosed], by rw [isolated, hclosed], ?_, hfinal, (closeSession_told _ _ hopen).after hbefore⟩
  simp only [isolated, closeSession_within, setLockout_keeps, hses, show Grade.fault.isProven = false from rfl,
    Bool.not_false, Bool.and_true]
  rfl

theorem isolated_other {s : State} (h : s.ses.session ≠ .opened) :
    (isolated s).ses = s.ses ∧ (isolated s).rst = s.rst ∧ (isolated s).mtr = s.mtr := by
  obtain ⟨-, -, hmtr, hrst, -⟩ := holdEnded_same s.iso.grade .fault (graded .fault s)
  have hses := holdEnded_ses_other s.iso.grade .fault (s := graded .fault s) h
  rw [isolated, closeSession, if_neg (by simp only [setLockout_keeps, hses]; exact h)]
  simp only [setLockout_keeps]
  exact ⟨hses, hrst, hmtr⟩

theorem isolated_held {s : State} (h : s.iso.grade.isProven = true) (hh : s.alc.hold ≠ .none) :
    ToldAll .holdChange s (isolated s) := by
  have hnone := holdEnded_hold s.iso.grade .fault (graded .fault s)
  have htold := holdEnded_told s.iso.grade .fault (graded .fault s) (by
    rw [hnone, if_pos (by rw [h]; rfl)]
    exact Ne.symm hh)
  exact ((htold.after (graded_grows _ s)).grow (setLockout_grows _)).grow (closeSession_grows _ _)

theorem isolated_locked {s : State} (h : s.iso.lockout = false) : ToldAll .lockoutChange s (isolated s) := by
  obtain ⟨hiso, -⟩ := holdEnded_same s.iso.grade .fault (graded .fault s)
  have htold := setLockout_told (holdEnded s.iso.grade .fault (graded .fault s)) (by rw [hiso]; exact h)
  exact (htold.after ((graded_grows _ s).trans (holdEnded_grows _ _ _))).grow (closeSession_grows _ _)

/-- What the heat's end and the demand line's evaluation add to an isolated state. -/
theorem changeGrade_fault_grows (s : State) : Grows (isolated s) (evalDemand (forcedDeenergize (isolated s))) :=
  (forcedDeenergize_grows _).trans (evalDemand_grows _)

/-- Settles O42: the decision's five cases, and a FAULT through the stages of its change of grade. -/
theorem gradeDecidedAndFaultStops : Obligations.GradeDecidedAndFaultStops := by
  unfold Obligations.GradeDecidedAndFaultStops
  refine ⟨fun r s => ?_, fun s hg hz => ?_⟩
  · have hchange (g : Grade) (h : g ≠ s.iso.grade) := changeGrade_spec g s h
    unfold decideGrade
    refine ⟨fun hu => ?_, fun hu hsame => ?_, fun hp hf => ?_, fun hu hne hf hc => ?_, fun hu hne hf hc => ?_⟩
    · rw [if_pos hu]
      exact hchange _ (by rw [hu]; cases r <;> decide)
    · rw [if_neg hu, if_pos hsame]; rfl
    · have hu : s.iso.grade ≠ .unknown := by rcases hp with hp | hp <;> rw [hp] <;> decide
      have hne : Grade.fault ≠ s.iso.grade := by rcases hp with hp | hp <;> rw [hp] <;> decide
      rw [if_neg hu, hf, if_neg (show ResultClass.fault.toGrade ≠ s.iso.grade from hne), if_pos rfl]
      exact hchange _ hne
    · rw [if_neg hu, if_neg hne, if_neg hf, if_pos hc]
      exact hchange _ hne
    · rw [if_neg hu, if_neg hne, if_neg hf, if_neg hc]; rfl
  · intro t
    have ht : t = evalDemand (forcedDeenergize (isolated s)) := changeGrade_fault hg
    obtain ⟨hgrade, -, hlock, hrun⟩ := isolated_iso s
    obtain ⟨hhtr, hrecord, -, hhold⟩ := isolated_same s
    have hgrow := changeGrade_fault_grows s
    have hsound : ZonesSound (isolated s) := by rw [zonesSound_iff, hhtr]; exact hz
    obtain ⟨hoff, hempty⟩ := forcedDeenergize_off hsound
    clear_value t
    subst ht
    have hall := (isolated_grows s).trans hgrow
    refine ⟨by simpa using hgrade, by simpa using hlock, ?_, fun hl => ?_, fun ho => ?_, fun ho => ?_, fun hp => ?_,
      fun z => by simpa using hoff z, by simpa using hempty, ?_, ?_, ?_, by simpa using hrecord, hall.portsKept, ?_⟩
    · rw [← changeGrade_fault hg]
      exact changeGrade_told _ s (Ne.symm hg)
    · obtain ⟨hloc, hmarked⟩ := hrun (.inl hl)
      have hstays := heaterChanged_localization (isolated s).htr (s := (isolated s).setHtr (isolated s).htr.allOff)
        (by rw [State.setHtr_iso, hloc]; decide)
      exact ⟨by simpa [forcedDeenergize, hloc] using hstays, by simpa using hmarked, (isolated_locked hl).grow hgrow⟩
    · obtain ⟨hses, hreason, hwithdrawn, hfinal, htold⟩ := isolated_opened ho
      exact ⟨by simpa using hses, by simpa using hreason, by simpa using hwithdrawn, by simpa using hfinal, htold.grow hgrow⟩
    · obtain ⟨hses, hrst, hmtr⟩ := isolated_other ho
      exact ⟨by simpa using hses, by simpa using hrst, by simpa using hmtr⟩
    · rw [if_pos hp] at hhold
      exact ⟨by simpa using hhold, fun hh => (isolated_held hp hh).grow hgrow⟩
    · exact evalDemand_not_ready _ (by simp [hgrade, Grade.isProven])
    · rw [← changeGrade_fault hg]; simp
    · rw [← changeGrade_fault hg]; simp
    · rw [← changeGrade_fault hg]; simp [RestKept]

end Sys2Proof.Machine
end

section
/-! PROOFS. The end of a measurement (R108, R110, R111): its result's use, and what it leaves of the hold and the window. -/

namespace Sys2Proof.Machine

/-! ## A change of grade while no measurement is in flight -/

/-- The phase registers and the last voltages of the monitor. -/
def Iso.course (i : Iso) : Phase × Bridge × Timer × Nat × Nat := (i.phase, i.bridge, i.phaseTimer, i.upB, i.unB)

/-- What moves where the grade may have changed with no measurement in flight (R35, R67, R112, R117). -/
structure GradeMoved (s t : State) : Prop where
  course : t.iso.course = s.iso.course
  window : t.alc.window = s.alc.window
  hold : t.alc.hold = if s.iso.grade.isProven = true ∧ t.iso.grade.isProven = false then .none else s.alc.hold
  holdTold : t.alc.hold ≠ s.alc.hold → ToldAll .holdChange s t
  gradeTold : t.iso.grade ≠ s.iso.grade → ToldAll .gradeChange s t
  recorded : t.mtr.recorded = s.mtr.recorded
  fault : t.iso.grade = .fault → s.iso.grade ≠ .fault → t.iso.lockout = true
    ∧ (s.iso.lockout = false ∨ s.iso.localization = .doneNone → t.iso.localization = .baselineWait)
    ∧ (s.ses.session = .opened → t.ses.session = .closing)
  other : ¬ (t.iso.grade = .fault ∧ s.iso.grade ≠ .fault) →
    t.iso = { s.iso with grade := t.iso.grade, candidate := t.iso.candidate } ∧ t.mtr = s.mtr ∧ t.rst = s.rst
      ∧ t.ses.session = s.ses.session
      ∧ (¬ (s.iso.grade.isProven = true ∧ t.iso.grade.isProven = false) → t.htr = s.htr)

/-- A state whose grade stays. -/
theorem GradeMoved.of_same {s t : State} (hg : t.iso.grade = s.iso.grade)
    (hi : t.iso = { s.iso with grade := t.iso.grade, candidate := t.iso.candidate }) (ha : t.alc = s.alc)
    (hm : t.mtr = s.mtr) (hr : t.rst = s.rst) (hs : t.ses = s.ses) (hh : t.htr = s.htr) : GradeMoved s t where
  course := by rw [hi]; rfl
  window := by rw [ha]
  hold := by rw [hg, ha, if_neg (by simp)]
  holdTold h := absurd (by rw [ha]) h
  gradeTold h := absurd hg h
  recorded := by rw [hm]
  fault h h' := absurd (hg ▸ h) h'
  other _ := ⟨hi, hm, hr, by rw [hs], fun _ => hh⟩

theorem forcedDeenergize_quiet {s : State} (h : s.iso.phase.inFlight = false) :
    (forcedDeenergize s).iso = s.iso ∧ (forcedDeenergize s).alc = s.alc := heaterChanged_quiet _ _ h

theorem isolated_course (s : State) : (isolated s).iso.course = s.iso.course := by
  have hiso : (isolated s).iso = (setLockout (holdEnded s.iso.grade .fault (graded .fault s))).iso := by simp [isolated]
  obtain ⟨hheld, -⟩ := holdEnded_same s.iso.grade .fault (graded .fault s)
  rw [hiso]
  unfold setLockout
  (repeat' split) <;> simp only [raise_keeps, State.setIso_iso, hheld] <;> rfl

theorem isolated_recorded (s : State) : (isolated s).mtr.recorded = s.mtr.recorded := by
  obtain ⟨-, -, hmtr, -⟩ := holdEnded_same s.iso.grade .fault (graded .fault s)
  have hset : (setLockout (holdEnded s.iso.grade .fault (graded .fault s))).mtr = s.mtr := by
    simp only [setLockout_keeps, hmtr]; rfl
  by_cases h : (setLockout (holdEnded s.iso.grade .fault (graded .fault s))).ses.session = .opened
  · obtain ⟨-, hclosed, -⟩ := closeSession_spec .isolation _ h
    rw [isolated, hclosed, hset]
  · rw [isolated, closeSession, if_neg h, hset]

theorem changeGrade_fault_moved {s : State} (h : s.iso.grade ≠ .fault) (hq : s.iso.phase.inFlight = false) :
    GradeMoved s (changeGrade .fault s) := by
  obtain ⟨hgrade, -, hlock, hrun⟩ := isolated_iso s
  obtain ⟨-, -, hwindow, hhold⟩ := isolated_same s
  have hcourse := isolated_course s
  have hphase : (isolated s).iso.phase.inFlight = false := by
    rw [show (isolated s).iso.phase = s.iso.phase from congrArg Prod.fst hcourse]; exact hq
  obtain ⟨hiso, halc⟩ := forcedDeenergize_quiet hphase
  have hgrow := changeGrade_fault_grows s
  have htold := changeGrade_told .fault s (Ne.symm h)
  rw [changeGrade_fault h] at htold ⊢
  refine ⟨by simpa [hiso] using hcourse, by simpa [halc] using hwindow, ?_, fun hne => ?_, fun _ => htold,
    by simpa using isolated_recorded s, fun _ _ => ⟨by simpa [hiso] using hlock, fun hl => ?_, fun ho => ?_⟩, fun hno => ?_⟩
  · simp only [evalDemand_keeps, hiso, halc, hgrade, hhold]
    simp only [show Grade.fault.isProven = false from rfl, and_true]
  · simp only [evalDemand_keeps, halc, hhold] at hne
    split at hne
    · next hp => exact (isolated_held hp (Ne.symm hne)).grow hgrow
    · exact absurd rfl hne
  · simpa [hiso] using (hrun hl).1
  · simpa using (isolated_opened ho).1
  · exact absurd ⟨by simpa [hiso] using hgrade, h⟩ hno

/-- The states of a change to GOOD, WARNING or UNKNOWN before the demand line's evaluation. -/
theorem changeGrade_other_moved {g : Grade} {s : State} (h : g ≠ s.iso.grade) (hg : g ≠ .fault)
    (hq : s.iso.phase.inFlight = false) : GradeMoved s (changeGrade g s) := by
  obtain ⟨hheld, hhtr, hmtr, hrst, -, hwindow, hsession⟩ := holdEnded_same s.iso.grade g (graded g s)
  have hhold := holdEnded_hold s.iso.grade g (graded g s)
  have htold := changeGrade_told g s h
  obtain ⟨hgrade, -, -⟩ := changeGrade_spec g s h
  by_cases hl : (s.iso.grade.isProven && !g.isProven) = true
  · have hphase : (holdEnded s.iso.grade g (graded g s)).iso.phase.inFlight = false := by rw [hheld]; exact hq
    obtain ⟨hiso, halc⟩ := forcedDeenergize_quiet hphase
    have hsaid := fun hne => ((holdEnded_told s.iso.grade g (graded g s) hne).after (graded_grows g s)).grow
      ((forcedDeenergize_grows _).trans (evalDemand_grows _))
    have hlost : s.iso.grade.isProven = true ∧ g.isProven = false := by simpa using hl
    rw [if_pos hl] at hhold
    rw [changeGrade_other h hg, if_pos hl] at htold hgrade ⊢
    refine ⟨by simp only [evalDemand_keeps, hiso, hheld]; rfl, by simp only [evalDemand_keeps, halc, hwindow]; rfl, ?_,
      fun hne => hsaid fun he => hne (by simp only [evalDemand_keeps, halc]; exact he), fun _ => htold,
      by simp only [evalDemand_keeps, forcedDeenergize_keeps, hmtr]; rfl,
      fun hf => absurd (hgrade.symm.trans hf) hg, fun _ => ⟨by simp only [evalDemand_keeps, hiso, hheld]; rfl,
      by simp only [evalDemand_keeps, forcedDeenergize_keeps, hmtr]; rfl, by simp only [evalDemand_keeps, forcedDeenergize_keeps, hrst]; rfl,
      by simp only [evalDemand_keeps, forcedDeenergize_keeps, hsession]; rfl, fun hno => absurd (by rw [hgrade]; exact hlost) hno⟩⟩
    rw [hgrade, if_pos hlost]
    simpa [halc] using hhold
  · have hkept : ¬ (s.iso.grade.isProven = true ∧ g.isProven = false) := by simpa using hl
    rw [changeGrade_other h hg, if_neg hl] at htold hgrade ⊢
    exact ⟨rfl, rfl, by rw [hgrade, if_neg hkept]; rfl, fun hne => absurd rfl hne, fun _ => htold, rfl,
      fun hf => absurd (hgrade.symm.trans hf) hg, fun _ => ⟨rfl, rfl, rfl, rfl, fun _ => rfl⟩⟩

theorem changeGrade_moved (g : Grade) {s : State} (hq : s.iso.phase.inFlight = false) : GradeMoved s (changeGrade g s) := by
  by_cases h : g = s.iso.grade
  · rw [changeGrade, if_pos h]
    exact .of_same rfl rfl rfl rfl rfl rfl rfl
  · by_cases hg : g = .fault
    · subst hg
      exact changeGrade_fault_moved (Ne.symm h) hq
    · exact changeGrade_other_moved h hg hq

/-! ## The grade decision (R112) -/

theorem decideGrade_moved (c : ResultClass) {s : State} (hq : s.iso.phase.inFlight = false) : GradeMoved s (decideGrade c s) := by
  unfold decideGrade
  (repeat' split) <;> first
    | exact changeGrade_moved _ hq
    | exact .of_same rfl rfl rfl rfl rfl rfl rfl

/-- A decision never leaves the grade UNKNOWN. -/
theorem decideGrade_decided (c : ResultClass) (s : State) : (decideGrade c s).iso.grade ≠ .unknown := by
  have hc : c.toGrade ≠ .unknown := by cases c <;> decide
  have hgrade (g : Grade) (hg : g ≠ .unknown) : (changeGrade g s).iso.grade ≠ .unknown := by
    by_cases h : g = s.iso.grade
    · rw [changeGrade, if_pos h, ← h]; exact hg
    · rw [(changeGrade_spec g s h).1]; exact hg
  unfold decideGrade
  (repeat' split)
  · exact hgrade _ hc
  · assumption
  · exact hgrade _ (by decide)
  · exact hgrade _ hc
  · assumption

/-- Table 6-3. -/
theorem decideGrade_pair (c : ResultClass) (s : State) :
    ((decideGrade c s).iso.grade, (decideGrade c s).iso.candidate) =
      if s.iso.grade = .unknown then (c.toGrade, none)
      else if c.toGrade = s.iso.grade then (s.iso.grade, none)
      else if c = .fault then (.fault, none)
      else if s.iso.candidate = some c then (c.toGrade, none)
      else (s.iso.grade, some c) := by
  have hchange (g : Grade) (h : g ≠ s.iso.grade) : ((changeGrade g s).iso.grade, (changeGrade g s).iso.candidate) = (g, none) := by
    obtain ⟨hg, hcand, -⟩ := changeGrade_spec g s h
    rw [hg, hcand]
  unfold decideGrade
  by_cases hu : s.iso.grade = .unknown
  · rw [if_pos hu, if_pos hu]
    exact hchange _ (by rw [hu]; cases c <;> decide)
  · rw [if_neg hu, if_neg hu]
    by_cases hs : c.toGrade = s.iso.grade
    · rw [if_pos hs, if_pos hs]; rfl
    · rw [if_neg hs, if_neg hs]
      by_cases hf : c = .fault
      · subst hf
        rw [if_pos rfl, if_pos rfl]
        exact hchange _ hs
      · rw [if_neg hf, if_neg hf]
        split
        · exact hchange _ hs
        · rfl

/-! ## The use of a result (R111) -/

/-- A baseline result is used only by the localization that asked for it (R121). -/
def ForBaseline (s : State) : Prop := s.iso.purpose = some .baseline ∧ s.iso.localization = .baseline

/-- A probe result of zone z is used only by the localization that probes it (R122). -/
def ForProbe (z : Fin 8) (s : State) : Prop := s.iso.purpose = some .probe ∧ s.iso.localization = .probing z

theorem useResult_baseline (c : ResultClass) {s : State} (h : ForBaseline s) : useResult c s = takeBaseline c s := by
  unfold useResult; rw [h.1, h.2]

theorem useResult_probe (c : ResultClass) {z : Fin 8} {s : State} (h : ForProbe z s) : useResult c s = takeProbe z c s := by
  unfold useResult; rw [h.1, h.2]

theorem useResult_periodic (c : ResultClass) {s : State} (hb : ¬ ForBaseline s) (hp : ∀ z, ¬ ForProbe z s) :
    useResult c s = decideGrade c s := by
  unfold useResult
  split
  · next h h' => exact absurd ⟨h, h'⟩ hb
  · next z h h' => exact absurd ⟨h, h'⟩ (hp z)
  · rfl

theorem endProbeAfter_probe (c : ResultClass) {z : Fin 8} {s : State} (h : ForProbe z s) (t : State) :
    endProbeAfter s.iso.purpose s.iso.localization c t = endProbe z (c == .fault) t := by
  unfold endProbeAfter; rw [h.1, h.2]

theorem endProbeAfter_none (c : ResultClass) {s : State} (h : ∀ z, ¬ ForProbe z s) (t : State) :
    endProbeAfter s.iso.purpose s.iso.localization c t = t := by
  unfold endProbeAfter
  split
  · next z hp hl => exact absurd ⟨hp, hl⟩ (h z)
  · rfl

/-- With no measurement in flight the end of a probe reaches neither the monitor nor the allocator (R109). -/
theorem endProbe_quiet (z : Fin 8) (leak : Bool) {s : State} (h : s.iso.phase.inFlight = false) :
    (endProbe z leak s).iso = s.iso ∧ (endProbe z leak s).alc = s.alc := by
  obtain ⟨hsame, -⟩ := endProbe_reported z leak s
  exact hsame fun hd => by simp [h] at hd

/-- A zone marked LEAK is said (R96). -/
theorem endProbe_told (z : Fin 8) (s : State) : ToldAll .heaterFault s (endProbe z true s) := by
  have hset : Grows s (s.setHtr (s.htr.leaveProbe z true)) := .of_eq (by simp)
  unfold endProbe raiseIf
  rw [if_pos rfl]
  exact (raise_toldAll_of_grows .heaterFault hset).grow (heaterChanged_grows _ _)

theorem endProbeAfter_quiet (pu : Option Purpose) (l : Localization) (c : ResultClass) {s : State}
    (h : s.iso.phase.inFlight = false) :
    (endProbeAfter pu l c s).iso = s.iso ∧ (endProbeAfter pu l c s).alc = s.alc := by
  unfold endProbeAfter
  split
  · exact endProbe_quiet _ _ h
  · exact ⟨rfl, rfl⟩

/-- What every use of a result leaves of the monitor's course, the hold and the summary. -/
theorem useResult_moved (c : ResultClass) {s : State} (hq : s.iso.phase.inFlight = false) :
    (useResult c s).iso.course = s.iso.course
      ∧ (useResult c s).alc.hold =
        (if s.iso.grade.isProven = true ∧ (useResult c s).iso.grade.isProven = false then .none else s.alc.hold)
      ∧ ((useResult c s).alc.hold ≠ s.alc.hold → ToldAll .holdChange s (useResult c s))
      ∧ (useResult c s).mtr.recorded = s.mtr.recorded := by
  have hsame {t : State} (hi : t.iso.course = s.iso.course) (hg : t.iso.grade = s.iso.grade) (ha : t.alc = s.alc)
      (hm : t.mtr = s.mtr) : t.iso.course = s.iso.course
      ∧ t.alc.hold = (if s.iso.grade.isProven = true ∧ t.iso.grade.isProven = false then .none else s.alc.hold)
      ∧ (t.alc.hold ≠ s.alc.hold → ToldAll .holdChange s t) ∧ t.mtr.recorded = s.mtr.recorded :=
    ⟨hi, by rw [hg, ha, if_neg (by simp)], fun h => absurd (by rw [ha]) h, by rw [hm]⟩
  unfold useResult
  split
  · exact hsame rfl rfl rfl rfl
  · exact hsame rfl rfl rfl rfl
  · have hmoved := decideGrade_moved c hq
    exact ⟨hmoved.course, hmoved.hold, hmoved.holdTold, hmoved.recorded⟩

/-! ## The steps of a valid result (R111) -/

/-- The result is taken: the phase ends, and the summary follows (R114). -/
def resultTaken (r : IsoResult) (s : State) : State :=
  updateSummary r ((monitorIdle s).setIso { (monitorIdle s).iso with latest := some r })

/-- The result is used by its purpose. -/
def resultUsed (r : IsoResult) (s : State) : State := useResult r.cls (resultTaken r s)

/-- The age, the hold and the window after the result. -/
def resultReleased (r : IsoResult) (s : State) : State := releaseWindow (completeMeasurement (resultUsed r s))

theorem validResult_eq (r : IsoResult) (s : State) :
    validResult r s = endProbeAfter s.iso.purpose s.iso.localization r.cls (resultReleased r s) := rfl

theorem resultTaken_same (r : IsoResult) (s : State) :
    (resultTaken r s).iso = { s.iso with phase := .idle, bridge := .opened, phaseTimer := .stopped, latest := some r }
      ∧ (resultTaken r s).alc = s.alc ∧ (resultTaken r s).htr = s.htr ∧ (resultTaken r s).ses = s.ses := by
  unfold resultTaken updateSummary
  split <;> exact ⟨rfl, rfl, rfl, rfl⟩

theorem resultTaken_grows (r : IsoResult) (s : State) : Grows s (resultTaken r s) := .of_eq (by simp [resultTaken])

/-- The session summary follows a result (R114). -/
theorem resultTaken_opened (r : IsoResult) {s : State} (h : s.ses.session = .opened) :
    (resultTaken r s).mtr.recorded = true ∧ (resultTaken r s).mtr.minPerVolt = min s.mtr.minPerVolt r.perVolt
      ∧ (resultTaken r s).mtr.worst = some (if r.cls = .fault ∨ s.mtr.worst = some .fault then .fault
        else if r.cls = .warning ∨ s.mtr.worst = some .warning then .warning else .good) := by
  have hopen : ((monitorIdle s).setIso { (monitorIdle s).iso with latest := some r }).ses.session = .opened := h
  rw [resultTaken, updateSummary, if_pos hopen]
  refine ⟨rfl, rfl, ?_⟩
  show some (match s.mtr.worst with | none => r.cls | some c => worse c r.cls) = _
  cases s.mtr.worst with
  | none => cases r.cls <;> rfl
  | some c => cases c <;> cases r.cls <;> rfl

theorem resultTaken_other (r : IsoResult) {s : State} (h : s.ses.session ≠ .opened) : (resultTaken r s).mtr = s.mtr := by
  obtain ⟨-, -, -, hother⟩ := updateSummary_spec r ((monitorIdle s).setIso { (monitorIdle s).iso with latest := some r })
  exact hother h

theorem completeMeasurement_told {s : State} (h5 : 5 ≤ s.iso.period) (h : (completeMeasurement s).alc.hold ≠ s.alc.hold) :
    ToldAll .holdChange s (completeMeasurement s) := by
  have hiso := (testOverdue_spec (s.setIso { s.iso with age := 0 })).1
  have hnot : (testOverdue (s.setIso { s.iso with age := 0 })).iso.overdue = false := by
    rw [hiso]
    exact decide_eq_false (by simp only [overdueLimit, State.setIso_iso]; omega)
  have halc := testOverdue_alc (s.setIso { s.iso with age := 0 })
  rw [hnot, if_neg (by simp)] at halc
  have hgrow : Grows s (testOverdue (s.setIso { s.iso with age := 0 })) := (Grows.of_eq (by simp)).trans (testOverdue_grows _)
  unfold completeMeasurement restoreHold at h ⊢
  split at h
  · next hs =>
    rw [if_pos hs]
    exact raise_toldAll_of_grows _ (hgrow.trans (.of_eq (by simp)))
  · exact absurd (by rw [halc]; rfl) h

theorem resultReleased_spec (r : IsoResult) {s : State} (h5 : 5 ≤ s.iso.period) :
    (resultReleased r s).iso = { (resultUsed r s).iso with age := 0, overdue := false }
      ∧ (resultReleased r s).mtr = (resultUsed r s).mtr
      ∧ (resultReleased r s).alc.hold =
        (if (resultUsed r s).alc.hold = .suspended then .held else (resultUsed r s).alc.hold)
      ∧ (resultReleased r s).alc.window = .idle ∧ (resultReleased r s).htr.zones = (resultUsed r s).htr.zones
      ∧ (resultReleased r s).ses.session = (resultUsed r s).ses.session
      ∧ ((resultReleased r s).alc.hold ≠ (resultUsed r s).alc.hold → ToldAll .holdChange (resultUsed r s) (resultReleased r s)) := by
  have hper : 5 ≤ (resultUsed r s).iso.period := by
    simpa [resultUsed, resultTaken] using h5
  obtain ⟨hiso, -, hhold⟩ := completeMeasurement_spec _ hper
  have hrelease (u : State) : Grows u (releaseWindow u) := .of_eq (by simp)
  unfold resultReleased
  exact ⟨by simpa using hiso, by simp, by simpa using hhold, rfl, by simp, by simp,
    fun h => (completeMeasurement_told hper (by simpa using h)).grow (hrelease _)⟩

theorem resultUsed_phase (r : IsoResult) (s : State) : (resultUsed r s).iso.course = (.idle, .opened, .stopped, s.iso.upB, s.iso.unB) := by
  obtain ⟨hiso, -⟩ := resultTaken_same r s
  have hq : (resultTaken r s).iso.phase.inFlight = false := by rw [hiso]; rfl
  rw [resultUsed, (useResult_moved r.cls hq).1, hiso]
  rfl

/-- A valid result but for the zone that leaves PROBED. -/
theorem validResult_blocks (r : IsoResult) {s : State} (h5 : 5 ≤ s.iso.period) :
    (validResult r s).iso = { (resultUsed r s).iso with age := 0, overdue := false }
      ∧ (validResult r s).alc = (resultReleased r s).alc ∧ (validResult r s).mtr = (resultUsed r s).mtr
      ∧ (validResult r s).ses.session = (resultUsed r s).ses.session
      ∧ Grows (resultReleased r s) (validResult r s) := by
  obtain ⟨hiso, hmtr, -, -, -, hsession, -⟩ := resultReleased_spec r h5
  have hcourse := resultUsed_phase r s
  have hphase : (resultUsed r s).iso.phase = .idle := congrArg Prod.fst hcourse
  have hq : (resultReleased r s).iso.phase.inFlight = false := by rw [hiso, hphase]; rfl
  obtain ⟨qiso, qalc⟩ := endProbeAfter_quiet s.iso.purpose s.iso.localization r.cls hq
  rw [validResult_eq]
  exact ⟨by rw [qiso, hiso], qalc, by simpa using hmtr, by simpa using hsession, endProbeAfter_grows _ _ _ _⟩

theorem resultUsed_grows (r : IsoResult) (s : State) : Grows s (resultUsed r s) :=
  (resultTaken_grows r s).trans (useResult_grows _ _)

theorem resultReleased_grows (r : IsoResult) (s : State) : Grows (resultUsed r s) (resultReleased r s) := by
  have hrelease (u : State) : Grows u (releaseWindow u) := .of_eq (by simp)
  exact (completeMeasurement_grows _).trans (hrelease _)

/-- The hold after a result (R66, R67). -/
theorem validResult_hold (r : IsoResult) {s : State} (h5 : 5 ≤ s.iso.period) :
    (validResult r s).alc.hold = (if s.iso.grade.isProven = true ∧ (validResult r s).iso.grade.isProven = false then .none
        else if s.alc.hold = .suspended then .held else s.alc.hold)
      ∧ ((validResult r s).alc.hold ≠ s.alc.hold → ToldAll .holdChange s (validResult r s)) := by
  obtain ⟨htaken, htalc, -⟩ := resultTaken_same r s
  obtain ⟨-, -, hhold, -, -, -, hrestored⟩ := resultReleased_spec r h5
  obtain ⟨hiso, halc, -, -, hgrow⟩ := validResult_blocks r h5
  obtain ⟨-, uhold, utold, -⟩ := useResult_moved r.cls (s := resultTaken r s) (by rw [htaken]; rfl)
  have hgrade : (validResult r s).iso.grade = (useResult r.cls (resultTaken r s)).iso.grade := by rw [hiso]; rfl
  have husedHold : (resultUsed r s).alc.hold =
      if s.iso.grade.isProven = true ∧ (validResult r s).iso.grade.isProven = false then .none else s.alc.hold := by
    rw [resultUsed, uhold, htaken, htalc, hgrade]
  refine ⟨?_, fun hne => ?_⟩
  · rw [halc, hhold, husedHold]
    (repeat' split) <;> simp_all
  · by_cases hu : (resultUsed r s).alc.hold = s.alc.hold
    · rw [halc] at hne
      exact ((hrestored (by rw [hu]; exact hne)).after (resultUsed_grows r s)).grow hgrow
    · have hsaid := utold (by rw [htalc]; exact hu)
      exact ((hsaid.after (resultTaken_grows r s)).grow (resultReleased_grows r s)).grow hgrow

/-- The session summary after a result (R114). -/
theorem validResult_summary (r : IsoResult) {s : State} (h5 : 5 ≤ s.iso.period) :
    (s.ses.session = .opened → (validResult r s).mtr.recorded = true
        ∧ (validResult r s).mtr.minPerVolt = min s.mtr.minPerVolt r.perVolt
        ∧ (validResult r s).mtr.worst = some (if r.cls = .fault ∨ s.mtr.worst = some .fault then .fault
          else if r.cls = .warning ∨ s.mtr.worst = some .warning then .warning else .good))
      ∧ (s.ses.session ≠ .opened → (validResult r s).mtr.recorded = s.mtr.recorded
        ∧ (validResult r s).mtr.minPerVolt = s.mtr.minPerVolt ∧ (validResult r s).mtr.worst = s.mtr.worst) := by
  obtain ⟨htaken, -⟩ := resultTaken_same r s
  obtain ⟨-, -, hmtr, -⟩ := validResult_blocks r h5
  obtain ⟨-, -, -, hrecorded⟩ := useResult_moved r.cls (s := resultTaken r s) (by rw [htaken]; rfl)
  rw [hmtr, resultUsed, hrecorded]
  simp only [useResult_within]
  exact ⟨resultTaken_opened r, fun h => by rw [resultTaken_other r h]; exact ⟨rfl, rfl, rfl⟩⟩

/-! ## The three uses -/

theorem resultUsed_baseline (r : IsoResult) {s : State} (h : ForBaseline s) : resultUsed r s = takeBaseline r.cls (resultTaken r s) := by
  obtain ⟨htaken, -⟩ := resultTaken_same r s
  exact useResult_baseline _ (by rw [ForBaseline, htaken]; exact h)

theorem resultUsed_probe (r : IsoResult) {z : Fin 8} {s : State} (h : ForProbe z s) :
    resultUsed r s = takeProbe z r.cls (resultTaken r s) := by
  obtain ⟨htaken, -⟩ := resultTaken_same r s
  exact useResult_probe _ (by rw [ForProbe, htaken]; exact h)

theorem resultUsed_periodic (r : IsoResult) {s : State} (hb : ¬ ForBaseline s) (hp : ∀ z, ¬ ForProbe z s) :
    resultUsed r s = decideGrade r.cls (resultTaken r s) := by
  obtain ⟨htaken, -⟩ := resultTaken_same r s
  exact useResult_periodic _ (by rw [ForBaseline, htaken]; exact hb) fun z => by rw [ForProbe, htaken]; exact hp z

theorem forProbe_not_baseline {z : Fin 8} {s : State} (h : ForProbe z s) : ¬ ForBaseline s := fun hb => by
  rw [ForBaseline, h.1] at hb
  exact absurd hb.1 (by decide)

theorem validResult_zones (r : IsoResult) {s : State} (h5 : 5 ≤ s.iso.period) (h : ∀ z, ¬ ForProbe z s) :
    (validResult r s).htr.zones = (resultUsed r s).htr.zones := by
  obtain ⟨-, -, -, -, hzones, -⟩ := resultReleased_spec r h5
  rw [validResult_eq, endProbeAfter_none _ h, hzones]

/-- A PERIODIC result goes to the grade decision (R112). -/
theorem validResult_periodic (r : IsoResult) {s : State} (h5 : 5 ≤ s.iso.period) (hb : ¬ ForBaseline s)
    (hp : ∀ z, ¬ ForProbe z s) :
    ((validResult r s).iso.grade, (validResult r s).iso.candidate) = (if s.iso.grade = .unknown then (r.cls.toGrade, none)
        else if r.cls.toGrade = s.iso.grade then (s.iso.grade, none)
        else if r.cls = .fault then (.fault, none)
        else if s.iso.candidate = some r.cls then (r.cls.toGrade, none)
        else (s.iso.grade, some r.cls))
      ∧ ((validResult r s).iso.grade ≠ s.iso.grade → ToldAll .gradeChange s (validResult r s))
      ∧ ((validResult r s).iso.grade = .fault → s.iso.grade ≠ .fault → (validResult r s).iso.lockout = true
        ∧ (s.iso.lockout = false ∨ s.iso.localization = .doneNone → (validResult r s).iso.localization = .baselineWait)
        ∧ (s.ses.session = .opened → (validResult r s).ses.session = .closing))
      ∧ (¬ ((validResult r s).iso.grade = .fault ∧ s.iso.grade ≠ .fault) → (validResult r s).iso.lockout = s.iso.lockout
        ∧ (validResult r s).iso.localization = s.iso.localization ∧ (validResult r s).htr.zones = s.htr.zones
        ∧ (validResult r s).ses.session = s.ses.session) := by
  obtain ⟨htaken, -, hthtr, htses⟩ := resultTaken_same r s
  obtain ⟨hiso, -, -, hsession, hgrow⟩ := validResult_blocks r h5
  have hused := resultUsed_periodic r hb hp
  have hzones := validResult_zones r h5 hp
  have hmoved := decideGrade_moved r.cls (s := resultTaken r s) (by rw [htaken]; rfl)
  have hpair := decideGrade_pair r.cls (resultTaken r s)
  have hdecided := decideGrade_decided r.cls (resultTaken r s)
  rw [← hused] at hmoved hpair hdecided
  obtain ⟨-, -, -, -, htold, -, hfault, hother⟩ := hmoved
  rw [htaken] at hpair htold hfault hother
  rw [hthtr, htses] at hother
  rw [htses] at hfault
  rw [hiso, hsession, hzones]
  refine ⟨hpair, fun hne => ?_, hfault, fun hno => ?_⟩
  · exact (((htold hne).after (resultTaken_grows r s)).grow (resultReleased_grows r s)).grow hgrow
  · obtain ⟨oiso, -, -, oses, ohtr⟩ := hother hno
    refine ⟨by rw [oiso], by rw [oiso], ?_, oses⟩
    rw [ohtr fun ⟨hold, hnew⟩ => ?_]
    have hnot : (resultUsed r s).iso.grade ≠ .fault := fun hf => hno ⟨hf, by intro hs; rw [hs] at hold; cases hold⟩
    revert hnew hnot hdecided
    cases (resultUsed r s).iso.grade <;> simp [Grade.isProven]

/-- A BASELINE or PROBE result moves neither the grade nor the lockout (R115). -/
theorem validResult_unperiodic (r : IsoResult) {s : State} (h5 : 5 ≤ s.iso.period) (h : ForBaseline s ∨ ∃ z, ForProbe z s) :
    (validResult r s).iso.grade = s.iso.grade ∧ (validResult r s).iso.candidate = s.iso.candidate
      ∧ (validResult r s).iso.lockout = s.iso.lockout ∧ (validResult r s).ses.session = s.ses.session := by
  obtain ⟨htaken, -, -, htses⟩ := resultTaken_same r s
  obtain ⟨hiso, -, -, hsession, -⟩ := validResult_blocks r h5
  rw [hiso, hsession]
  rcases h with hb | ⟨z, hz⟩
  · rw [resultUsed_baseline r hb]
    simp [takeBaseline, htaken, htses]
  · rw [resultUsed_probe r hz]
    simp [takeProbe, htaken, htses]

/-- A BASELINE result (R121). -/
theorem validResult_baseline (r : IsoResult) {s : State} (h5 : 5 ≤ s.iso.period) (h : ForBaseline s) :
    (validResult r s).iso.baselineClass = some r.cls ∧ (validResult r s).iso.lastExamined = none
      ∧ (validResult r s).htr.zones = s.htr.zones
      ∧ (validResult r s).iso.localization = if r.cls = .fault then .doneNone else .probeWait := by
  obtain ⟨-, -, hthtr, -⟩ := resultTaken_same r s
  obtain ⟨hiso, -⟩ := validResult_blocks r h5
  have hzones := validResult_zones r h5 fun z hz => forProbe_not_baseline hz h
  rw [hiso, hzones, resultUsed_baseline r h]
  exact ⟨rfl, rfl, by rw [takeBaseline, State.setIso_htr, hthtr], rfl⟩

/-- A PROBE result of zone z, which leaves PROBED (R96, R122). -/
theorem validResult_probe (r : IsoResult) {z : Fin 8} {s : State} (h5 : 5 ≤ s.iso.period) (h : ForProbe z s) :
    (validResult r s).iso.localization = .probeWait ∧ (validResult r s).iso.lastExamined = some z
      ∧ (validResult r s).iso.marked = (if r.cls = .fault then s.iso.marked + 1 else s.iso.marked)
      ∧ (∀ b, (s.zone z).state = .probed b →
        ((validResult r s).zone z).state = if r.cls = .fault then .faulted .leak else b.back)
      ∧ (r.cls = .fault → ToldAll .heaterFault s (validResult r s))
      ∧ ∀ y, y ≠ z → (validResult r s).zone y = s.zone y := by
  obtain ⟨htaken, -, hthtr, -⟩ := resultTaken_same r s
  obtain ⟨hiso, -⟩ := validResult_blocks r h5
  obtain ⟨-, -, -, -, hzones, -⟩ := resultReleased_spec r h5
  have hused := resultUsed_probe r h
  have hbefore : (resultReleased r s).htr.zones = s.htr.zones := by
    rw [hzones, hused, takeProbe, State.setIso_htr, hthtr]
  have hzone (y : Fin 8) : (validResult r s).zone y = ((resultReleased r s).htr.leaveProbe z (r.cls == .fault)).zones[y] := by
    rw [validResult_eq, endProbeAfter_probe _ h, endProbe_zone]
  have hgrows := (resultUsed_grows r s).trans (resultReleased_grows r s)
  have hstate (y : Fin 8) : (resultReleased r s).htr.zones[y] = s.zone y := by rw [hbefore]; rfl
  refine ⟨by rw [hiso, hused]; rfl, by rw [hiso, hused]; rfl, ?_, fun b hb => ?_, fun hf => ?_, fun y hy => ?_⟩
  · rw [hiso, hused, takeProbe, htaken]; rfl
  · rw [hzone, leaveProbe_zone, hstate, hb]
    cases r.cls <;> simp
  · rw [validResult_eq, endProbeAfter_probe _ h, hf]
    exact (endProbe_told z _).after hgrows
  · rw [hzone, leaveProbe_zone, hstate y]
    split
    · rw [if_neg (Ne.symm hy)]
    · rfl

/-! ## The end of SAMPLE_B (R107, R110) -/

/-- The averages are taken from the sums. -/
def averaged (s : State) : State := s.setIso { s.iso with upB := s.iso.sumUpB / 16, unB := s.iso.sumUnB / 16 }

/-- A computed result with its class against entry 7 (R111). -/
def measuredOf (s : State) (x : Nat × Nat × Nat × Nat) : IsoResult := ⟨x.1, x.2.1, x.2.2.1, x.2.2.2, classOfFigure s x.2.2.2⟩

theorem finishMeasurement_some {s : State} {r : IsoResult} (h : measuredResult (averaged s) = some r) :
    finishMeasurement s = validResult r (averaged s) := by
  unfold finishMeasurement; dsimp only; rw [averaged] at h; rw [h]; rfl

theorem finishMeasurement_none {s : State} (h : measuredResult (averaged s) = none) :
    finishMeasurement s = discardMeasurement (averaged s) := by
  unfold finishMeasurement; dsimp only; rw [averaged] at h; rw [h]; rfl

/-- A measurement discarded, field by field (R108, R121). -/
theorem discardMeasurement_iso (s : State) : (discardMeasurement s).iso = { s.iso with
    phase := .idle, bridge := .opened, phaseTimer := .stopped
    localization := if s.iso.localization = .baseline then .baselineWait else s.iso.localization } := by
  show { s.iso with phase := .idle, bridge := .opened, phaseTimer := .stopped, localization := s.iso.localization.unmeasured } = _
  cases s.iso.localization <;> rfl

/-- A SAMPLE_B without a valid result leaves everything but the averages and the measurement's own course (R108). -/
theorem averaged_discarded (s : State) :
    (discardMeasurement (averaged s)).iso = { s.iso with
        phase := .idle, bridge := .opened, phaseTimer := .stopped, upB := s.iso.sumUpB / 16, unB := s.iso.sumUnB / 16
        localization := if s.iso.localization = .baseline then .baselineWait else s.iso.localization }
      ∧ (discardMeasurement (averaged s)).alc = { s.alc with window := .idle }
      ∧ (discardMeasurement (averaged s)).htr.zones = s.htr.zones
      ∧ (discardMeasurement (averaged s)).mtr = s.mtr ∧ (discardMeasurement (averaged s)).ses = s.ses
      ∧ (discardMeasurement (averaged s)).plan = s.plan ∧ (discardMeasurement (averaged s)).nv = s.nv
      ∧ (discardMeasurement (averaged s)).portV = s.portV ∧ (discardMeasurement (averaged s)).portP = s.portP
      ∧ (discardMeasurement (averaged s)).portF = s.portF := by
  refine ⟨by rw [discardMeasurement_iso]; rfl, rfl, ?_⟩
  simp [averaged]

/-- Settles O41: a discarded measurement field by field, and a valid result by its use. -/
theorem measurementEnds : Obligations.MeasurementEnds := by
  unfold Obligations.MeasurementEnds
  intro s hp hphase h5 res baselineUse probeUse periodicUse
  have hexec : exec .measurementPhaseEnd s = .next (finishMeasurement s) :=
    exec_measurementPhaseEnd hp (by simp [phaseEnded, hphase])
  have hres : measuredResult (averaged s) = res.map (measuredOf s) := rfl
  have hports := (finishMeasurement_grows s).portsKept
  have hrest : RestKept s (finishMeasurement s) := by simp [RestKept]
  clear_value res
  refine ⟨_, hexec, ?_⟩
  cases hr : res with
  | none =>
    rw [hr] at hres
    have ht := finishMeasurement_none hres
    obtain ⟨hiso, halc, hzones, hmtr, hses, hplan, hnv, hV, hP, hF⟩ := averaged_discarded s
    rw [ht] at hports hrest ⊢
    simp only [hiso, halc, hzones, hmtr, hses, hplan, hnv, hV, hP, hF]
    exact ⟨trivial, trivial, trivial, trivial, trivial, trivial, fun _ => ⟨trivial, trivial, trivial, trivial, trivial, trivial,
      trivial, trivial, trivial, trivial, trivial, trivial, trivial⟩, fun _ _ _ _ h => absurd h (by simp),
      trivial, trivial, trivial, hports, hrest⟩
  | some x =>
    rw [hr] at hres
    have ht := finishMeasurement_some hres
    rw [ht] at hports hrest ⊢
    have h5' : 5 ≤ (averaged s).iso.period := h5
    obtain ⟨hiso, halc, -⟩ := validResult_blocks (measuredOf s x) h5'
    obtain ⟨-, -, -, hwindow, -⟩ := resultReleased_spec (measuredOf s x) h5'
    have hcourse := resultUsed_phase (measuredOf s x) (averaged s)
    simp only [Iso.course, Prod.mk.injEq] at hcourse
    obtain ⟨cphase, cbridge, ctimer, cup, cun⟩ := hcourse
    refine ⟨by rw [hiso]; exact cphase, by rw [hiso]; exact cbridge, by rw [hiso]; exact ctimer, by rw [halc]; exact hwindow,
      by rw [hiso]; exact cup, by rw [hiso]; exact cun, fun h => absurd h (by simp), fun rp rn rIso f h => ?_,
      by simp [averaged], by simp [averaged], by simp [averaged], hports, hrest⟩
    cases h
    have hheld := validResult_hold (measuredOf s (rp, rn, rIso, f)) h5'
    have hsummary := validResult_summary (measuredOf s (rp, rn, rIso, f)) h5'
    have hperiodic := validResult_periodic (measuredOf s (rp, rn, rIso, f)) h5'
    have hunperiodic := validResult_unperiodic (measuredOf s (rp, rn, rIso, f)) h5'
    have hbaseline := validResult_baseline (measuredOf s (rp, rn, rIso, f)) h5'
    have hprobe := fun z => validResult_probe (z := z) (measuredOf s (rp, rn, rIso, f)) h5'
    intro cls grade proven
    have hproven (g : Grade) : proven g = g.isProven := by cases g <;> rfl
    have hof : measuredOf s (rp, rn, rIso, f) = ⟨rp, rn, rIso, f, cls⟩ := rfl
    rw [hof] at hiso hheld hsummary hperiodic hunperiodic hbaseline hprobe ⊢
    clear hof
    clear_value cls
    have hgrade : grade = cls.toGrade := by cases cls <;> rfl
    clear_value grade proven
    subst hgrade
    simp only [hproven]
    refine ⟨by rw [hiso]; simp [resultUsed, resultTaken], by rw [hiso], by rw [hiso], hsummary.1, hsummary.2,
      fun ⟨hb, hz⟩ => hperiodic hb hz, fun hu => hunperiodic ?_, fun hb => hbaseline hb, fun z hz => hprobe z hz, hheld.1, hheld.2⟩
    by_contra hno
    rw [not_or, not_exists] at hno
    exact hu hno

end Sys2Proof.Machine
end

section
/-! PROOFS. A conversion of the bus outside a localization (R100, R102, R104 to R106, R108), and an energization after a long dead
period. -/

namespace Sys2Proof.Machine

theorem exec_busConversion (up un : Nat) {s t : State} (hp : s.powered = true) (h : busConverted up un s = t) :
    exec (.busConversion up un) s = .next t := by
  rw [exec]; exact live_becomes hp h

/-! ## The age of the last measurement (R102) -/

/-- A conversion of an energized bus but for the localization: the voltage is taken, and the age rises. -/
def aged (up un : Nat) (s : State) : State :=
  raiseAge (s.setIso { s.iso with uBus := up + un, deadTimer := .stopped, energizedLast := true })

/-- The monitor at an energized conversion. -/
def Iso.agedBy (i : Iso) (u : Nat) : Iso :=
  { i with
    uBus := u, deadTimer := .stopped, energizedLast := true, age := min 6553500 (i.age + 1)
    overdue := decide (overdueLimit i ≤ min 6553500 (i.age + 1)) }

/-- The overdue condition becomes true at this conversion and meets a HELD hold (R65). -/
def AgeSuspends (s : State) : Prop :=
  decide (overdueLimit s.iso ≤ min 6553500 (s.iso.age + 1)) = true ∧ s.iso.overdue = false ∧ s.alc.hold = .held

theorem busConverted_live {up un : Nat} (h : 500 ≤ up + un) (s : State) :
    busConverted up un s
      = localizationStep (if (aged up un s).iso.longDead then longDeadEnergization (aged up un s) else aged up un s) :=
  if_pos h

theorem busConverted_energized {up un : Nat} (h : 500 ≤ up + un) {s : State} (hl : s.iso.longDead = false) :
    busConverted up un s = localizationStep (aged up un s) := by
  rw [busConverted_live h, if_neg (by simpa [aged] using hl)]

theorem busConverted_longDead {up un : Nat} (h : 500 ≤ up + un) {s : State} (hl : s.iso.longDead = true) :
    busConverted up un s = localizationStep (longDeadEnergization (aged up un s)) := by
  rw [busConverted_live h, if_pos (by simpa [aged] using hl)]

theorem aged_iso (up un : Nat) (s : State) : (aged up un s).iso = s.iso.agedBy (up + un) := (testOverdue_spec _).1

theorem aged_grows (up un : Nat) (s : State) : Grows s (aged up un s) := by
  have hset : Grows s (s.setIso { s.iso with uBus := up + un, deadTimer := .stopped, energizedLast := true }) := .of_eq (by simp)
  exact hset.trans (raiseAge_grows _)

/-- A hold that the age does not suspend: the conversion moves the monitor alone. -/
theorem aged_quiet (up un : Nat) {s : State} (h : ¬ AgeSuspends s) :
    aged up un s = s.setIso (s.iso.agedBy (up + un)) := by
  unfold aged raiseAge testOverdue
  dsimp only
  split
  · next hnew =>
    simp only [Bool.and_eq_true, Bool.not_eq_true'] at hnew
    exact (suspendHold_spec _).2.2.2.2 fun hh => h ⟨hnew.1, hnew.2, hh⟩
  · rfl

/-- A hold that the age suspends. -/
theorem aged_suspends (up un : Nat) {s : State} (h : AgeSuspends s) :
    aged up un s = suspendHold (s.setIso (s.iso.agedBy (up + un))) := by
  obtain ⟨hlimit, hbefore, -⟩ := h
  unfold aged raiseAge testOverdue
  exact if_pos (by rw [Bool.and_eq_true]; exact ⟨hlimit, by simpa using hbefore⟩)

/-- An energized conversion, block by block (R65, R100, R102). -/
theorem aged_blocks (up un : Nat) (s : State) :
    aged up un s = { s with
        iso := (aged up un s).iso, alc := (aged up un s).alc, ses := (aged up un s).ses
        portV := (aged up un s).portV, portP := (aged up un s).portP, portF := (aged up un s).portF }
      ∧ (AgeSuspends s → (aged up un s).alc = { s.alc with hold := .suspended } ∧ ToldAll .holdChange s (aged up un s)
        ∧ (aged up un s).ses = if s.ses.session = .opened then { s.ses with holdWithdrawn := true } else s.ses)
      ∧ (¬ AgeSuspends s → (aged up un s).alc = s.alc ∧ (aged up un s).ses = s.ses
        ∧ (aged up un s).portV = s.portV ∧ (aged up un s).portP = s.portP ∧ (aged up un s).portF = s.portF) := by
  by_cases h : AgeSuspends s
  · obtain ⟨hshape, halc, hses, htold, -⟩ := suspendHold_spec (s.setIso (s.iso.agedBy (up + un)))
    have hheld : (s.setIso (s.iso.agedBy (up + un))).alc.hold = .held := h.2.2
    have hset : Grows s (s.setIso (s.iso.agedBy (up + un))) := .of_eq (by simp)
    rw [if_pos hheld] at halc
    have hiso := aged_iso up un s
    rw [aged_suspends up un h] at hiso ⊢
    refine ⟨by rw [hiso]; exact hshape, fun _ => ⟨halc, (htold hheld).after hset, ?_⟩, fun hno => absurd h hno⟩
    rw [hses]
    by_cases ho : s.ses.session = .opened
    · exact (if_pos ⟨hheld, ho⟩).trans (if_pos ho).symm
    · exact (if_neg fun hc => ho hc.2).trans (if_neg ho).symm
  · rw [aged_quiet up un h]
    exact ⟨rfl, fun hyes => absurd hyes h, fun _ => ⟨rfl, rfl, rfl, rfl, rfl⟩⟩

/-- What every energized conversion leaves. -/
theorem aged_same (up un : Nat) (s : State) :
    (aged up un s).htr = s.htr ∧ (aged up un s).sup = s.sup ∧ (aged up un s).mtr = s.mtr ∧ (aged up un s).rst = s.rst
      ∧ (aged up un s).plan = s.plan ∧ (aged up un s).nv = s.nv ∧ (aged up un s).alc.record = s.alc.record
      ∧ (aged up un s).alc.window = s.alc.window ∧ (aged up un s).ses.session = s.ses.session := by
  simp [aged]

/-! ## A dead bus (R104, R105, R108) -/

theorem unmeasured_eq (l : Localization) : l.unmeasured = if l = .baseline then .baselineWait else l := by cases l <;> rfl

theorem discardMeasurement_eq (s : State) : discardMeasurement s = { s with
    iso := { s.iso with phase := .idle, bridge := .opened, phaseTimer := .stopped, localization := s.iso.localization.unmeasured }
    alc := { s.alc with window := .idle }, htr := s.htr.startWaitingPulse } := rfl

theorem abandonMeasurement_eq (s : State) : abandonMeasurement s = { s with
    iso := { s.iso with phase := .idle, bridge := .opened, phaseTimer := .stopped, localization := s.iso.localization.unmeasured }
    alc := { s.alc with window := .idle } } := rfl

/-- The dead bus noticed: its timer starts where the bus was energized before (R105). -/
def busDied (s : State) : State :=
  s.setIso { s.iso with
    deadTimer := if s.iso.energizedLast then .running 60000 else s.iso.deadTimer
    energizedLast := false }

theorem deadConversion_inFlight {s : State} (h : s.iso.phase.inFlight = true) :
    deadConversion s = discardMeasurement (busDied s) := if_pos h

theorem deadConversion_request {s : State} (h : s.iso.phase = .request) : deadConversion s = abandonMeasurement (busDied s) :=
  (if_neg (by rw [h]; decide)).trans (if_pos h)

theorem deadConversion_idle {s : State} (h : s.iso.phase = .idle) : deadConversion s = busDied s :=
  (if_neg (by rw [h]; decide)).trans (if_neg (by rw [h]; decide))

/-- A conversion of a dead bus, block by block. -/
theorem busConverted_dead {up un : Nat} (h : up + un < 500) (s : State) :
    busConverted up un s = { s with
      iso := { s.iso with
        uBus := up + un, energizedLast := false
        deadTimer := if s.iso.energizedLast = true then .running 60000 else s.iso.deadTimer
        phase := .idle
        bridge := if s.iso.phase = .idle then s.iso.bridge else .opened
        phaseTimer := if s.iso.phase = .idle then s.iso.phaseTimer else .stopped
        localization := if s.iso.phase ≠ .idle ∧ s.iso.localization = .baseline then .baselineWait else s.iso.localization }
      alc := if s.iso.phase = .idle then s.alc else { s.alc with window := .idle }
      htr := if s.iso.phase.inFlight = true then s.htr.startWaitingPulse else s.htr } := by
  have hdead : busConverted up un s = deadConversion (s.setIso { s.iso with uBus := up + un }) :=
    if_neg (show ¬ Config.energizedAt ≤ up + un from Nat.not_le.2 h)
  have hloc (h : s.iso.phase ≠ .idle) : (if s.iso.phase ≠ .idle ∧ s.iso.localization = .baseline then .baselineWait
      else s.iso.localization) = s.iso.localization.unmeasured := by rw [unmeasured_eq]; simp [h]
  rw [hdead]
  by_cases hf : s.iso.phase.inFlight = true
  · have hne : s.iso.phase ≠ .idle := fun hi => by rw [hi] at hf; exact absurd hf (by decide)
    rw [hloc hne, if_neg hne, if_neg hne, if_neg hne, if_pos hf]
    rw [deadConversion_inFlight (s := s.setIso { s.iso with uBus := up + un }) hf, discardMeasurement_eq]
    rfl
  · by_cases hr : s.iso.phase = .request
    · have hne : s.iso.phase ≠ .idle := by rw [hr]; decide
      rw [hloc hne, if_neg hne, if_neg hne, if_neg hne, if_neg hf]
      rw [deadConversion_request (s := s.setIso { s.iso with uBus := up + un }) hr, abandonMeasurement_eq]
      rfl
    · have hi : s.iso.phase = .idle := by cases hp : s.iso.phase <;> simp_all [Phase.inFlight]
      have hkeep : (if s.iso.phase ≠ .idle ∧ s.iso.localization = .baseline then .baselineWait else s.iso.localization)
          = s.iso.localization := if_neg fun hc => hc.1 hi
      rw [hkeep, if_pos hi, if_pos hi, if_pos hi, if_neg hf, ← hi]
      rw [deadConversion_idle (s := s.setIso { s.iso with uBus := up + un }) hi]
      rfl

/-! ## The localization's turn at a conversion (R119) -/

theorem localizable_iff (s : State) : localizable s = true ↔
    500 ≤ s.iso.uBus ∧ flag (s.entry 5).w2 0 = true ∧ s.alc.record.mode = .off ∧ s.iso.phase = .idle := by
  simp only [localizable, busLive, Bool.and_eq_true, decide_eq_true_eq, beq_iff_eq, and_assoc]
  exact Iff.rfl

theorem localizationStep_off {s : State} (h : localizable s ≠ true) : localizationStep s = s := if_neg h

theorem localizationStep_unneeded {s : State} (h : s.iso.localization.suspendsPeriodic = false) : localizationStep s = s := by
  unfold localizationStep
  cases hl : s.iso.localization <;> simp_all [Localization.suspendsPeriodic]

/-! ## An energization after a long dead period (R106) -/

/-- The dead period is over, and the grade is UNKNOWN (R106, R113). -/
def woken (s : State) : State := changeGrade .unknown (s.setIso { s.iso with longDead := false })

theorem woken_moved {s : State} (hq : s.iso.phase.inFlight = false) :
    GradeMoved (s.setIso { s.iso with longDead := false }) (woken s) := changeGrade_moved _ hq

theorem woken_changed {s : State} (h : s.iso.grade ≠ .unknown) :
    ToldAll .gradeChange s (woken s) ∧ (woken s).iso.candidate = none := by
  have hset : Grows s (s.setIso { s.iso with longDead := false }) := .of_eq (by simp)
  obtain ⟨-, hcand, htold⟩ := changeGrade_spec .unknown (s.setIso { s.iso with longDead := false }) (Ne.symm h)
  exact ⟨htold.after hset, hcand⟩

theorem changeGrade_grade (g : Grade) (s : State) : (changeGrade g s).iso.grade = g := by
  by_cases h : g = s.iso.grade
  · rw [changeGrade, if_pos h, h]
  · exact (changeGrade_spec g s h).1

theorem woken_grade (s : State) : (woken s).iso.grade = .unknown := changeGrade_grade _ _

/-- The blocks after an energization's change of grade (R106). -/
theorem woken_blocks {s : State} (hq : s.iso.phase.inFlight = false) :
    (∃ c, (woken s).iso = { s.iso with longDead := false, grade := .unknown, candidate := c })
      ∧ (woken s).mtr = s.mtr ∧ (woken s).rst = s.rst ∧ (woken s).ses.session = s.ses.session
      ∧ (woken s).alc.window = s.alc.window
      ∧ (s.iso.grade.isProven = true → (woken s).alc.hold = .none) := by
  have hgrade := woken_grade s
  have hmoved := woken_moved hq
  obtain ⟨hiso, hmtr, hrst, hses, -⟩ := hmoved.other (by rw [hgrade]; simp)
  have hhold := hmoved.hold
  rw [hgrade] at hiso hhold
  exact ⟨⟨_, hiso⟩, hmtr, hrst, hses, hmoved.window, fun hp => hhold.trans (if_pos ⟨hp, rfl⟩)⟩

/-- Outside a localization a periodic measurement is requested at once (R106). -/
theorem longDeadEnergization_periodic {s : State} (hp : s.iso.phase = .idle)
    (hl : s.iso.localization.suspendsPeriodic = false) :
    longDeadEnergization s = requestMeasurement .periodic (woken s) := by
  obtain ⟨⟨c, hiso⟩, -⟩ := woken_blocks (s := s) (by rw [hp]; rfl)
  have hphase : (woken s).iso.phase = .idle := by rw [hiso]; exact hp
  have hloc : (woken s).iso.localization.suspendsPeriodic = false := by rw [hiso]; exact hl
  have hrun : restartRun (woken s) = woken s := by
    unfold restartRun
    cases h : (woken s).iso.localization <;> simp_all [Localization.suspendsPeriodic]
  have heq : longDeadEnergization s = if (restartRun (woken s)).iso.phase == .idle
      && !(restartRun (woken s)).iso.localization.suspendsPeriodic then requestMeasurement .periodic (restartRun (woken s))
      else restartRun (woken s) := rfl
  rw [heq, hrun, if_pos (by rw [hphase, hloc]; rfl)]

/-- An energized conversion with nothing to localize is the age's rise alone. -/
theorem busConverted_aged {up un : Nat} (h : 500 ≤ up + un) {s : State} (hl : s.iso.longDead = false)
    (hloc : s.iso.localization.suspendsPeriodic = false) : busConverted up un s = aged up un s := by
  rw [busConverted_energized h hl]
  exact localizationStep_unneeded (by rw [aged_iso]; exact hloc)

theorem busConverted_awake {up un : Nat} (h : 500 ≤ up + un) {s : State} (hl : s.iso.longDead = true)
    (hp : s.iso.phase = .idle) (hloc : s.iso.localization.suspendsPeriodic = false) :
    busConverted up un s = requestMeasurement .periodic (woken (aged up un s)) := by
  have hphase : (aged up un s).iso.phase = .idle := by rw [aged_iso]; exact hp
  have hloc' : (aged up un s).iso.localization.suspendsPeriodic = false := by rw [aged_iso]; exact hloc
  obtain ⟨⟨c, hiso⟩, -⟩ := woken_blocks (s := aged up un s) (by rw [hphase]; rfl)
  rw [busConverted_longDead h hl, longDeadEnergization_periodic hphase hloc']
  exact localizationStep_unneeded (by simpa [hiso] using hloc')

theorem busConverted_restKept (up un : Nat) (s : State) : RestKept s (busConverted up un s) := by simp [RestKept]

/-- Settles O38: the aged conversion, the dead one, and the energization after a long dead period. -/
theorem Monitor.busConverted : Obligations.BusConverted := by
  unfold Obligations.BusConverted
  refine ⟨fun up un s hp hloc => ⟨fun hu hl => ?_, fun hu => ?_⟩, fun up un s hp hu hl hphase hloc hz hh hd => ?_⟩
  · intro age overdue suspends
    obtain ⟨hshape, hyes, hno⟩ := aged_blocks up un s
    refine ⟨_, exec_busConversion up un hp (busConverted_aged hu hl hloc), hshape, aged_iso up un s, ?_, ?_,
      fun h => (hyes h).2.1, fun h => (hno h).2.2, (aged_grows up un s).portsKept⟩
    · by_cases h : suspends
      · rw [if_pos h]; exact (hyes h).1
      · rw [if_neg h]; exact (hno h).1
    · by_cases h : suspends
      · obtain ⟨-, -, hses⟩ := hyes h
        rw [hses]
        by_cases ho : s.ses.session = .opened
        · rw [if_pos ho, if_pos ⟨h, ho⟩]
        · rw [if_neg ho, if_neg fun hc => ho hc.2]
      · rw [if_neg fun hc => h hc.1]
        exact (hno h).2.1
  · have hnot : ¬ (s.iso.phase ≠ .idle ∧ s.iso.localization = .baseline) := by
      rintro ⟨-, hb⟩
      rw [hb] at hloc
      exact absurd hloc (by decide)
    refine ⟨_, exec_busConversion up un hp (busConverted_dead hu s), ?_⟩
    rw [if_neg hnot]
    exact ⟨rfl, rfl, rfl, rfl⟩
  · have hkept : ZonesKept s _ := busConverted_zonesKept up un s
    have hdemand := busConverted_demandSafe up un hd
    have hports := (busConverted_grows up un s).portsKept
    have hexec := exec_busConversion up un hp (busConverted_awake hu hl hphase hloc)
    have hrest := busConverted_restKept up un s
    rw [busConverted_awake hu hl hphase hloc] at hkept hdemand hports hrest
    have haged := aged_iso up un s
    obtain ⟨-, hsup, hmtr, hrst, hplan, hnv, hrecord, -, hsession⟩ := aged_same up un s
    obtain ⟨⟨c, hiso⟩, wmtr, wrst, wses, -, whold⟩ := woken_blocks (s := aged up un s)
      (by rw [haged]; exact congrArg _ hphase)
    obtain ⟨-, hpurpose, hrestarts, hwindow, -⟩ := requestMeasurement_spec .periodic (woken (aged up un s))
    have hgrade : (requestMeasurement .periodic (woken (aged up un s))).iso.grade = .unknown := by simp [woken_grade]
    have hwrecord : (woken (aged up un s)).alc.record = s.alc.record := by simp [woken, hrecord]
    refine ⟨_, hexec, by simp [hiso], hgrade, by simp [hiso, haged, Iso.agedBy], by simp [hiso, haged, Iso.agedBy], hpurpose, hrestarts,
      by rw [hwrecord] at hwindow; exact hwindow, fun hne => ?_, fun hg => ?_, fun z => ?_, fun hready => ?_, by simp [wses, hsession],
      ?_, by simp [wmtr, hmtr], by simp [wrst, hrst], ?_, by simp [hwrecord], hports, hrest⟩
    · obtain ⟨htold, hcand⟩ := woken_changed (s := aged up un s) (by rw [haged]; exact hne)
      exact ⟨(htold.after (aged_grows up un s)).grow (requestMeasurement_grows _ _), by simpa using hcand⟩
    · have hproven : (aged up un s).iso.grade.isProven = true := by
        rw [haged]
        rcases hg with hg | hg <;> simp [Iso.agedBy, hg, Grade.isProven]
      simpa using whold hproven
    · obtain ⟨-, hheat, -⟩ := hkept hz
      exact hheat hh (.inr (.inr hgrade)) z
    · obtain ⟨-, hproven, -⟩ := hdemand hready
      rw [hgrade] at hproven
      exact absurd hproven (by decide)
    · simp [woken, hplan]
    · simp [woken, hnv]

end Sys2Proof.Machine
end

section
/-! PROOFS. The localization (R119 to R123): what it does at a conversion of the bus. -/

namespace Sys2Proof.Machine

/-! ## The next zone to probe (R96, R122) -/

/-- A zone above the last one examined. -/
def Iso.Ahead (i : Iso) (z : Fin 8) : Prop := ∀ l, i.lastExamined = some l → l < z

/-- A zone that the heater takes into PROBED. -/
def Takable (i : Iso) (h : Htr) (z : Fin 8) : Prop :=
  i.lockout = true ∧ 0 < h.zones[z].rating
    ∧ (h.zones[z].state = .unchecked ∨ h.zones[z].state = .off ∨ ∃ n, h.zones[z].state = .dwell n)

/-- The lowest such zone. -/
def NextToProbe (i : Iso) (h : Htr) (z : Fin 8) : Prop :=
  i.Ahead z ∧ Takable i h z ∧ ∀ y, i.Ahead y → Takable i h y → z ≤ y

theorem NextToProbe.unique {i : Iso} {h : Htr} {y z : Fin 8} (hy : NextToProbe i h y) (hz : NextToProbe i h z) : y = z :=
  Fin.le_antisymm (hy.2.2 z hz.1 hz.2.1) (hz.2.2 y hy.1 hy.2.1)

theorem probeTakes_isSome (s : State) (z : Fin 8) : (probeTakes s z).isSome = true ↔ Takable s.iso s.htr z := by
  unfold probeTakes Takable State.zone
  cases hl : s.iso.lockout
  · simp
  · by_cases hr : 0 < s.htr.zones[z].rating
    · cases hs : s.htr.zones[z].state <;> simp_all [ZoneState.probeBase]
    · simp_all

theorem mem_zonesAfter (last : Option (Fin 8)) (z : Fin 8) : z ∈ zonesAfter last ↔ ∀ l, last = some l → l < z := by
  cases last with
  | none => simp [zonesAfter, mem_zoneIds]
  | some l => simp [zonesAfter, mem_zoneIds]

theorem zonesAfter_sorted (last : Option (Fin 8)) : (zonesAfter last).Pairwise (· < ·) := by
  have hall : zoneIds.Pairwise (· < ·) := by decide
  cases last with
  | none => exact hall
  | some l => unfold zonesAfter; exact hall.filter _

theorem nextProbe_some {s : State} {z : Fin 8} {b : BeforeProbe} (h : nextProbe s = some (z, b)) :
    NextToProbe s.iso s.htr z := by
  have htakes := (probeTakes_isSome s z).1 (by rw [nextProbe_takes h]; rfl)
  obtain ⟨before, w, after, hsplit, hw, hnone⟩ := List.findSome?_eq_some_iff.1 h
  obtain rfl : w = z := by
    simp only [Option.map_eq_some_iff, Prod.mk.injEq] at hw
    obtain ⟨_, _, rfl, _⟩ := hw
    rfl
  have hsorted := zonesAfter_sorted s.iso.lastExamined
  rw [hsplit, List.pairwise_append] at hsorted
  refine ⟨(mem_zonesAfter _ _).1 (by rw [hsplit]; simp), htakes, fun y hy ht => ?_⟩
  have hmem : y ∈ before ++ w :: after := hsplit ▸ (mem_zonesAfter _ _).2 hy
  rcases List.mem_append.1 hmem with hb | hb
  · have := hnone y hb
    rw [Option.map_eq_none_iff] at this
    rw [← probeTakes_isSome, this] at ht
    exact absurd ht (by decide)
  · rcases List.mem_cons.1 hb with rfl | ha
    · exact Fin.le_refl _
    · exact Fin.le_of_lt ((List.pairwise_cons.1 hsorted.2.1).1 y ha)

theorem nextProbe_none {s : State} (h : nextProbe s = none) (z : Fin 8) : ¬ NextToProbe s.iso s.htr z := by
  rintro ⟨hahead, htakes, -⟩
  have hz := List.findSome?_eq_none_iff.1 h z ((mem_zonesAfter _ _).2 hahead)
  rw [Option.map_eq_none_iff] at hz
  rw [← probeTakes_isSome, hz] at htakes
  exact absurd htakes (by decide)

/-- What a zone to probe keeps of its state. -/
theorem nextProbe_of {s : State} {z : Fin 8} (h : NextToProbe s.iso s.htr z) :
    ∃ b, nextProbe s = some (z, b) ∧ probeTakes s z = some b := by
  cases hn : nextProbe s with
  | none => exact absurd h (nextProbe_none hn z)
  | some x =>
    obtain ⟨y, b⟩ := x
    obtain rfl := (nextProbe_some hn).unique h
    exact ⟨b, rfl, nextProbe_takes hn⟩

theorem nextProbe_ended {s : State} (h : ∀ z, ¬ NextToProbe s.iso s.htr z) : nextProbe s = none := by
  cases hn : nextProbe s with
  | none => rfl
  | some x => exact absurd (nextProbe_some hn) (h x.1)

/-! ## One step of the localization -/

theorem localizationStep_baseline {s : State} (h : localizable s = true) (hl : s.iso.localization = .baselineWait) :
    localizationStep s = requestMeasurement .baseline (s.setIso { s.iso with localization := .baseline }) := by
  rw [localizationStep, if_pos h, hl]

theorem localizationStep_probing {s : State} (h : localizable s = true) {z : Fin 8} (hl : s.iso.localization = .probing z) :
    localizationStep s = requestMeasurement .probe s := by
  rw [localizationStep, if_pos h, hl]

theorem localizationStep_next {s : State} (h : localizable s = true) (hl : s.iso.localization = .probeWait) {z : Fin 8}
    {b : BeforeProbe} (hn : nextProbe s = some (z, b)) : localizationStep s = startProbe z b s := by
  rw [localizationStep, if_pos h, hl]
  simp only [hn]

theorem localizationStep_ended {s : State} (h : localizable s = true) (hl : s.iso.localization = .probeWait)
    (hn : nextProbe s = none) : localizationStep s = endRun s := by
  rw [localizationStep, if_pos h, hl]
  simp only [hn]

theorem localizationStep_measuring {s : State} (hl : s.iso.localization = .baseline) : localizationStep s = s := by
  rw [localizationStep, hl]
  exact ite_self s

/-- A measurement asked for by the localization (R104, R120, R122). -/
def Requested (pu : Purpose) (rest : Bool) (t : State) : Prop :=
  t.iso.purpose = some pu ∧ t.iso.restarts = 0
    ∧ if rest = true then t.iso.phase = .settleA ∧ t.iso.bridge = .a ∧ t.alc.window = .granted
      else t.iso.phase = .request ∧ t.alc.window = .waiting

theorem requestMeasurement_requested (pu : Purpose) (s : State) : Requested pu s.alc.record.rest (requestMeasurement pu s) := by
  obtain ⟨-, hpurpose, hrestarts, hwindow, -⟩ := requestMeasurement_spec pu s
  exact ⟨hpurpose, hrestarts, hwindow⟩

theorem requestMeasurement_run (pu : Purpose) (s : State) : (requestMeasurement pu s).iso.lastExamined = s.iso.lastExamined
    ∧ (requestMeasurement pu s).iso.baselineClass = s.iso.baselineClass := by
  unfold requestMeasurement
  dsimp only
  split <;> exact ⟨rfl, rfl⟩

/-- The heater takes zone z into PROBED (R96). -/
def probeTaken (z : Fin 8) (b : BeforeProbe) (s : State) : State := heaterChanged s.htr (s.setHtr (s.htr.enter z (.probed b)))

/-- The monitor probes zone z (R122). -/
def probeAsked (z : Fin 8) (b : BeforeProbe) (s : State) : State :=
  (probeTaken z b s).setIso { (probeTaken z b s).iso with localization := .probing z, lastExamined := some z }

theorem startProbe_eq (z : Fin 8) (b : BeforeProbe) (s : State) : startProbe z b s = requestMeasurement .probe (probeAsked z b s) :=
  rfl

/-- The next zone goes to PROBED, with no measurement in flight (R96, R122). -/
theorem startProbe_spec {s : State} (z : Fin 8) (b : BeforeProbe) (hq : s.iso.phase.inFlight = false) :
    (startProbe z b s).iso.localization = .probing z ∧ (startProbe z b s).iso.lastExamined = some z
      ∧ Requested .probe s.alc.record.rest (startProbe z b s)
      ∧ (startProbe z b s).htr.zones = s.htr.zones.set z { s.zone z with state := .probed b }
      ∧ (startProbe z b s).iso.marked = s.iso.marked ∧ (startProbe z b s).iso.baselineClass = s.iso.baselineClass := by
  have hset : (s.setHtr (s.htr.enter z (.probed b))).iso.phase.inFlight = false := hq
  obtain ⟨hiso, halc⟩ := heaterChanged_quiet s.htr _ hset
  have hasked : (probeAsked z b s).iso = { s.iso with localization := .probing z, lastExamined := some z } := by
    show { (probeTaken z b s).iso with localization := .probing z, lastExamined := some z } = _
    rw [probeTaken, hiso]
    rfl
  have hrest : (probeAsked z b s).alc.record.rest = s.alc.record.rest := by
    show (probeTaken z b s).alc.record.rest = _
    rw [probeTaken, halc]
    rfl
  have hzones : (probeAsked z b s).htr.zones = s.htr.zones.set z { s.zone z with state := .probed b } := by
    show (probeTaken z b s).htr.zones = _
    simp only [probeTaken, heaterChanged_within]
    rfl
  obtain ⟨hlast, hbase⟩ := requestMeasurement_run .probe (probeAsked z b s)
  rw [startProbe_eq, hlast, hbase]
  simp only [requestMeasurement_within, requestMeasurement_keeps, hasked, hzones, true_and, and_true]
  exact hrest ▸ requestMeasurement_requested .probe _

/-! ## The end of a run (R123) -/

/-- The run has marked a culprit: the lockout is clear. -/
def culpritFound (s : State) : State := clearTheLockout (s.setIso { s.iso with localization := .doneCulprit, candidate := none })

theorem endRun_clean {s : State} (h : s.iso.marked = 0) : endRun s = s.setIso { s.iso with localization := .doneNone } := if_pos h

theorem endRun_culprit {s : State} (h : s.iso.marked ≠ 0) :
    endRun s = evalDemand (match s.iso.baselineClass with
      | some c => changeGrade c.toGrade (culpritFound s) | none => culpritFound s) := if_neg h

theorem endRun_culprit_some {s : State} {c : ResultClass} (h : s.iso.marked ≠ 0) (hb : s.iso.baselineClass = some c) :
    endRun s = evalDemand (changeGrade c.toGrade (culpritFound s)) := by rw [endRun_culprit h, hb]

theorem endRun_culprit_none {s : State} (h : s.iso.marked ≠ 0) (hb : s.iso.baselineClass = none) :
    endRun s = evalDemand (culpritFound s) := by rw [endRun_culprit h, hb]

theorem culpritFound_same (s : State) :
    (culpritFound s).iso = { s.iso with localization := .doneCulprit, candidate := none, lockout := false }
      ∧ (culpritFound s).htr = s.htr ∧ (culpritFound s).rst = s.rst ∧ (culpritFound s).ses = s.ses := by
  simp [culpritFound, clearTheLockout]

/-- What the end of a run leaves of the measurement's course (R123). -/
theorem endRun_course {s : State} (hq : s.iso.phase.inFlight = false) : (endRun s).iso.phase = s.iso.phase
    ∧ (endRun s).iso.purpose = s.iso.purpose ∧ (endRun s).alc.window = s.alc.window := by
  by_cases h : s.iso.marked = 0
  · rw [endRun_clean h]; exact ⟨rfl, rfl, rfl⟩
  · rw [endRun_culprit h]
    cases s.iso.baselineClass with
    | none => exact ⟨rfl, rfl, rfl⟩
    | some c =>
      have hmoved := changeGrade_moved c.toGrade (s := culpritFound s) hq
      have hphase : (changeGrade c.toGrade (culpritFound s)).iso.phase = s.iso.phase := congrArg Prod.fst hmoved.course
      have hpurpose : (changeGrade c.toGrade (culpritFound s)).iso.purpose = s.iso.purpose := by simp [culpritFound, clearTheLockout]
      exact ⟨hphase, hpurpose, hmoved.window⟩

/-- A run that ends with a culprit under a GOOD or WARNING baseline (R121, R123). -/
theorem endRun_graded {s : State} {c : ResultClass} (hq : s.iso.phase.inFlight = false) (h : s.iso.marked ≠ 0)
    (hb : s.iso.baselineClass = some c) (hc : c ≠ .fault) :
    (endRun s).iso.localization = .doneCulprit ∧ (endRun s).iso.lockout = false ∧ ToldAll .lockoutChange s (endRun s)
      ∧ (endRun s).iso.candidate = none ∧ (endRun s).iso.grade = c.toGrade
      ∧ ((endRun s).iso.grade ≠ s.iso.grade → ToldAll .gradeChange s (endRun s)) := by
  have hset : Grows s (s.setIso { s.iso with localization := .doneCulprit, candidate := none }) := .of_eq (by simp)
  have hfound : Grows s (culpritFound s) := hset.trans (clearTheLockout_grows _)
  have hcleared : ToldAll .lockoutChange s (culpritFound s) := raise_toldAll_of_grows .lockoutChange (hset.trans (.of_eq (by simp)))
  have hmoved := changeGrade_moved c.toGrade (s := culpritFound s) hq
  have hgrade := changeGrade_grade c.toGrade (culpritFound s)
  have hnot : c.toGrade ≠ .fault := by cases c <;> first | decide | exact absurd rfl hc
  obtain ⟨hiso, -⟩ := hmoved.other (by rw [hgrade]; exact fun h => hnot h.1)
  have hcand : (changeGrade c.toGrade (culpritFound s)).iso.candidate = none := by
    by_cases he : c.toGrade = (culpritFound s).iso.grade
    · rw [changeGrade, if_pos he]; rfl
    · exact (changeGrade_spec _ _ he).2.1
  have heval : ∀ u : State, Grows u (evalDemand u) := evalDemand_grows
  rw [endRun_culprit h, hb]
  refine ⟨?_, ?_, (hcleared.grow (changeGrade_grows _ _)).grow (heval _), hcand, hgrade, fun hne => ?_⟩
  · show (changeGrade c.toGrade (culpritFound s)).iso.localization = _
    rw [hiso]; rfl
  · show (changeGrade c.toGrade (culpritFound s)).iso.lockout = _
    rw [hiso]; rfl
  · exact ((hmoved.gradeTold hne).after hfound).grow (heval _)

/-- What a run's end leaves but under a FAULT baseline (R121). -/
theorem endRun_same {s : State} (hq : s.iso.phase.inFlight = false) (hb : s.iso.baselineClass ≠ some .fault) :
    (endRun s).ses.session = s.ses.session ∧ (endRun s).rst = s.rst ∧ (endRun s).iso.marked = s.iso.marked
      ∧ (endRun s).iso.baselineClass = s.iso.baselineClass ∧ (endRun s).htr.zones = s.htr.zones := by
  by_cases h : s.iso.marked = 0
  · rw [endRun_clean h]; exact ⟨rfl, rfl, rfl, rfl, rfl⟩
  · obtain ⟨fiso, fhtr, frst, fses⟩ := culpritFound_same s
    cases hc : s.iso.baselineClass with
    | none =>
      rw [endRun_culprit_none h hc]
      simp only [evalDemand_keeps, fiso, fhtr, frst, fses, hc, and_self]
    | some c =>
      have hne : c ≠ .fault := fun he => hb (by rw [hc, he])
      have hmoved := changeGrade_moved c.toGrade (s := culpritFound s) hq
      have hgrade := changeGrade_grade c.toGrade (culpritFound s)
      have hnot : c.toGrade ≠ .fault ∧ c.toGrade.isProven = true := by
        cases c <;> first | exact ⟨by decide, rfl⟩ | exact absurd rfl hne
      obtain ⟨hiso, -, hrst, hses, hhtr⟩ := hmoved.other (by rw [hgrade]; exact fun h => hnot.1 h.1)
      have hkept := hhtr (by rw [hgrade, hnot.2]; simp)
      rw [endRun_culprit_some h hc]
      simp only [evalDemand_keeps]
      refine ⟨by rw [hses, fses], by rw [hrst, frst], ?_, ?_, by rw [hkept, fhtr]⟩
      · rw [hiso, fiso]
      · rw [hiso, fiso]
        exact hc

/-- All that the localization does at a conversion (R120 to R123). -/
theorem localizationStep_cases (s : State) : localizationStep s = s
    ∨ s.iso.localization = .baselineWait
      ∧ localizationStep s = requestMeasurement .baseline (s.setIso { s.iso with localization := .baseline })
    ∨ (∃ z, s.iso.localization = .probing z) ∧ localizationStep s = requestMeasurement .probe s
    ∨ s.iso.phase.inFlight = false ∧ localizable s = true ∧ s.iso.localization = .probeWait
      ∧ ((∃ z b, nextProbe s = some (z, b) ∧ localizationStep s = startProbe z b s)
        ∨ nextProbe s = none ∧ localizationStep s = endRun s) := by
  by_cases h : localizable s = true
  · obtain ⟨-, -, -, hphase⟩ := (localizable_iff s).1 h
    cases hl : s.iso.localization with
    | baselineWait => exact .inr (.inl ⟨rfl, localizationStep_baseline h hl⟩)
    | probing z => exact .inr (.inr (.inl ⟨⟨z, rfl⟩, localizationStep_probing h hl⟩))
    | probeWait =>
      refine .inr (.inr (.inr ⟨by rw [hphase]; rfl, h, rfl, ?_⟩))
      cases hn : nextProbe s with
      | none => exact .inr ⟨rfl, localizationStep_ended h hl hn⟩
      | some x => exact .inl ⟨x.1, x.2, rfl, localizationStep_next h hl hn⟩
    | baseline => exact .inl (localizationStep_measuring hl)
    | idle | doneCulprit | doneNone => exact .inl (localizationStep_unneeded (by rw [hl]; rfl))
  · exact .inl (localizationStep_off h)

/-- Only a run that ends with a culprit moves the grade or the lockout (R123). -/
theorem localizationStep_grade {s : State}
    (h : ¬ (localizable s = true ∧ s.iso.localization = .probeWait ∧ nextProbe s = none ∧ s.iso.marked ≠ 0)) :
    (localizationStep s).iso.lockout = s.iso.lockout ∧ (localizationStep s).iso.grade = s.iso.grade
      ∧ (localizationStep s).iso.candidate = s.iso.candidate := by
  rcases localizationStep_cases s with he | ⟨-, he⟩ | ⟨-, he⟩ | ⟨-, hok, hl, ⟨z, b, -, he⟩ | ⟨hn, he⟩⟩
  · rw [he]; exact ⟨rfl, rfl, rfl⟩
  · rw [he]; simp
  · rw [he]; simp
  · rw [he]; simp
  · have hm : s.iso.marked = 0 := by
      by_contra hm
      exact h ⟨hok, hl, hn, hm⟩
    rw [he, endRun_clean hm]
    exact ⟨rfl, rfl, rfl⟩

/-- What the localization leaves but under a FAULT baseline (R121). -/
theorem localizationStep_same {s : State} (hb : s.iso.baselineClass ≠ some .fault) :
    (localizationStep s).ses.session = s.ses.session ∧ (localizationStep s).rst = s.rst
      ∧ (localizationStep s).iso.marked = s.iso.marked ∧ (localizationStep s).iso.baselineClass = s.iso.baselineClass
      ∧ (¬ (localizable s = true ∧ s.iso.localization = .probeWait ∧ nextProbe s ≠ none) →
        (localizationStep s).htr.zones = s.htr.zones) := by
  rcases localizationStep_cases s with he | ⟨-, he⟩ | ⟨-, he⟩ | ⟨hq, hok, hl, ⟨z, b, hn, he⟩ | ⟨hn, he⟩⟩
  · rw [he]; exact ⟨rfl, rfl, rfl, rfl, fun _ => rfl⟩
  · rw [he]; simp [requestMeasurement_run]
  · rw [he]; simp [requestMeasurement_run]
  · obtain ⟨-, -, -, -, hmarked, hbase⟩ := startProbe_spec z b hq
    rw [he]
    exact ⟨by simp, by simp, hmarked, hbase, fun hno => absurd ⟨hok, hl, by rw [hn]; simp⟩ hno⟩
  · obtain ⟨hses, hrst, hmarked, hbase, hzones⟩ := endRun_same hq hb
    rw [he]
    exact ⟨hses, hrst, hmarked, hbase, fun _ => hzones⟩

/-- The state of a zone that the heater takes, and what it will return to (R96). -/
theorem probeTakes_probed {s : State} {z : Fin 8} {b : BeforeProbe} (h : probeTakes s z = some b) :
    ZoneState.probed b = match (s.zone z).state with
      | .dwell n => .probed (.dwell n) | .off => .probed .off | _ => .probed .unchecked := by
  rw [probeTakes_state h]
  cases b <;> rfl

/-! ## A run that begins anew (R106, R122) -/

/-- The zones' end leaves a probed zone in PROBED (R94). -/
theorem allOff_probed {h : Htr} (hs : h.Sound) {z : Fin 8} {b : BeforeProbe} (hz : h.zones[z].state = .probed b) :
    h.allOff.zones[z].state = .probed b := by
  have habort : (h.abortCheck .unchecked).zones[z].state = .probed b := by
    unfold Htr.abortCheck
    split
    · next ck hck =>
      have hne : ck.zone ≠ z := fun he => by
        have hchecking := (hs.1 z).2 ⟨ck, hck, he⟩
        rw [hz] at hchecking
        exact absurd hchecking (by simp)
      have hzone : (h.endCheck ck.zone .unchecked).zones[z] = (h.enter ck.zone .unchecked).zones[z] := rfl
      rw [hzone, enter_zone, if_neg hne]
      exact hz
    · exact hz
  have hzone : h.allOff.zones[z] = (let x := (h.abortCheck .unchecked).zones[z]
      if x.state = .energized then { x with state := restingState (h.abortCheck .unchecked).mode.dwell } else x) := by
    simp [Htr.allOff]
  rw [hzone]
  dsimp only
  rw [if_neg (by rw [habort]; simp)]
  exact habort

theorem forcedDeenergize_probed {s : State} (hs : ZonesSound s) {z : Fin 8} {b : BeforeProbe}
    (hz : (s.zone z).state = .probed b) : ((forcedDeenergize s).zone z).state = .probed b := by
  rw [forcedDeenergize, heaterChanged_zone]
  exact allOff_probed ((zonesSound_iff s).1 hs) hz

theorem changeGrade_probed {g : Grade} (hg : g ≠ .fault) {s : State} (hs : ZonesSound s) {z : Fin 8} {b : BeforeProbe}
    (hz : (s.zone z).state = .probed b) : ((changeGrade g s).zone z).state = .probed b := by
  by_cases h : g = s.iso.grade
  · rw [changeGrade, if_pos h]
    exact hz
  · obtain ⟨-, hhtr, -⟩ := holdEnded_same s.iso.grade g (graded g s)
    have hhtr' : (holdEnded s.iso.grade g (graded g s)).htr = s.htr := hhtr
    rw [changeGrade_other h hg]
    simp only [evalDemand_keeps]
    split
    · exact forcedDeenergize_probed (by rw [zonesSound_iff, hhtr']; exact hs) (by rw [State.zone, hhtr']; exact hz)
    · exact hz

theorem woken_probed {s : State} (hs : ZonesSound s) {z : Fin 8} {b : BeforeProbe} (hz : (s.zone z).state = .probed b) :
    ((woken s).zone z).state = .probed b :=
  changeGrade_probed (by decide) (s := s.setIso { s.iso with longDead := false }) hs hz

/-- A run under way begins anew (R122). -/
theorem restartRun_spec {s : State} (hq : s.iso.phase.inFlight = false) (hs : s.iso.localization.suspendsPeriodic = true)
    (hb : s.iso.localization ≠ .baseline) :
    (restartRun s).iso = (if s.iso.localization = .baselineWait then s.iso else beginRun s.iso) ∧ (restartRun s).alc = s.alc
      ∧ ∀ z b, s.iso.localization = .probing z → (s.zone z).state = .probed b → ((restartRun s).zone z).state = b.back := by
  cases hl : s.iso.localization with
  | baselineWait =>
    have he : restartRun s = s := by rw [restartRun, hl]
    rw [he]
    exact ⟨(if_pos rfl).symm, rfl, fun z _ hz => nomatch hz⟩
  | probeWait =>
    have he : restartRun s = s.setIso (beginRun s.iso) := by rw [restartRun, hl]
    rw [he]
    exact ⟨(if_neg (by decide)).symm, rfl, fun z _ hz => nomatch hz⟩
  | probing z =>
    have he : restartRun s = endProbe z false (s.setIso (beginRun s.iso)) := by rw [restartRun, hl]
    have hq' : (s.setIso (beginRun s.iso)).iso.phase.inFlight = false := hq
    obtain ⟨hiso, halc⟩ := endProbe_quiet z false hq'
    rw [he, hiso, halc]
    refine ⟨(if_neg (by simp)).symm, rfl, fun w b hw hz => ?_⟩
    obtain rfl : z = w := by simpa using hw
    have hstate : (s.setIso (beginRun s.iso)).htr.zones[z].state = .probed b := hz
    rw [endProbe_zone, leaveProbe_zone, hstate]
    simp
  | idle | doneCulprit | doneNone => rw [hl] at hs; exact absurd hs (by decide)
  | baseline => exact absurd hl hb

/-- A run that waits for its baseline, at a conversion (R120). -/
theorem localizationStep_waiting {s : State} (hl : s.iso.localization = .baselineWait) :
    (localizable s = true → (localizationStep s).iso.localization = .baseline
        ∧ Requested .baseline s.alc.record.rest (localizationStep s))
      ∧ (localizable s ≠ true → localizationStep s = s)
      ∧ (localizationStep s).iso.marked = s.iso.marked ∧ (localizationStep s).iso.lastExamined = s.iso.lastExamined
      ∧ (localizationStep s).iso.baselineClass = s.iso.baselineClass ∧ (localizationStep s).iso.grade = s.iso.grade
      ∧ (localizationStep s).iso.lockout = s.iso.lockout ∧ (localizationStep s).htr = s.htr
      ∧ (localizationStep s).mtr = s.mtr ∧ (localizationStep s).rst = s.rst ∧ (localizationStep s).ses = s.ses := by
  by_cases h : localizable s = true
  · rw [localizationStep_baseline h hl]
    refine ⟨fun _ => ⟨by simp, requestMeasurement_requested .baseline (s.setIso _)⟩, fun hno => absurd h hno, ?_⟩
    simp [requestMeasurement_run]
  · rw [localizationStep_off h]
    exact ⟨fun hyes => absurd hyes h, fun _ => rfl, rfl, rfl, rfl, rfl, rfl, rfl, rfl, rfl, rfl⟩

/-- After a long dead period a run that is not measuring its baseline waits for one (R106, R122). -/
theorem longDeadEnergization_restart {s : State} (hp : s.iso.phase = .idle) (hs : s.iso.localization.suspendsPeriodic = true)
    (hb : s.iso.localization ≠ .baseline) :
    longDeadEnergization s = restartRun (woken s)
      ∧ (restartRun (woken s)).iso.phase = .idle ∧ (restartRun (woken s)).iso.localization = .baselineWait
      ∧ (restartRun (woken s)).iso.longDead = false ∧ (restartRun (woken s)).iso.grade = .unknown
      ∧ (restartRun (woken s)).iso.lockout = s.iso.lockout ∧ (restartRun (woken s)).iso.uBus = s.iso.uBus
      ∧ (restartRun (woken s)).alc.window = s.alc.window
      ∧ (s.iso.localization ≠ .baselineWait → (restartRun (woken s)).iso.marked = 0
        ∧ (restartRun (woken s)).iso.lastExamined = none ∧ (restartRun (woken s)).iso.baselineClass = none) := by
  have hq : s.iso.phase.inFlight = false := by rw [hp]; rfl
  obtain ⟨⟨c, hiso⟩, -, -, -, hwindow, -⟩ := woken_blocks hq
  obtain ⟨riso, ralc, -⟩ := restartRun_spec (s := woken s) (by rw [hiso]; exact hq) (by rw [hiso]; exact hs) (by rw [hiso]; exact hb)
  have hloc : (restartRun (woken s)).iso.localization = .baselineWait := by
    rw [riso, hiso]
    split
    · next h => exact h
    · rfl
  have hrun : longDeadEnergization s = if (restartRun (woken s)).iso.phase == .idle
      && !(restartRun (woken s)).iso.localization.suspendsPeriodic then requestMeasurement .periodic (restartRun (woken s))
      else restartRun (woken s) := rfl
  rw [hrun, if_neg (by rw [hloc]; simp [Localization.suspendsPeriodic]), ralc]
  refine ⟨rfl, ?_, hloc, by simp [hiso], by simp [hiso], by simp [hiso], by simp [hiso], hwindow, fun hne => ?_⟩
  · rw [riso, hiso]
    split
    · exact hp
    · exact hp
  · rw [riso, hiso, if_neg hne]
    exact ⟨rfl, rfl, rfl⟩

/-- Settles O43: a run's step at an energized conversion, its restart after a long dead period, and a dead bus. -/
theorem localizationRuns : Obligations.LocalizationRuns := by
  unfold Obligations.LocalizationRuns
  refine ⟨fun up un s hp hu hl _ => ?_, fun up un s hp hu hl hphase hloc hne hz => ?_, fun up un s hp hu _ => ?_⟩
  · intro ok takes above next
    have hiso := aged_iso up un s
    obtain ⟨hhtr, -, -, hrst, -, -, hrecord, hwindow, hsession⟩ := aged_same up un s
    have hexec := exec_busConversion up un hp (busConverted_energized hu hl)
    have hports := (busConverted_grows up un s).portsKept
    have hrest := busConverted_restKept up un s
    have hplan : (busConverted up un s).plan = s.plan := by simp
    have hnv : (busConverted up un s).nv = s.nv := by simp
    rw [busConverted_energized hu hl] at hports hrest hplan hnv
    have hgrows := aged_grows up un s
    have hok : localizable (aged up un s) = true ↔ ok := by
      rw [localizable_iff, hiso, hrecord]
      simp only [aged, raiseAge_keeps, State.setIso_entry]
      exact ⟨fun ⟨_, h⟩ => h, fun h => ⟨hu, h⟩⟩
    have hquiet (h : ok) : (aged up un s).iso.phase.inFlight = false := by
      obtain ⟨-, -, hphase⟩ := h
      rw [hiso]
      exact congrArg Phase.inFlight hphase
    have hnext (z : Fin 8) : NextToProbe (aged up un s).iso (aged up un s).htr z ↔ next z := by rw [hiso, hhtr]; exact Iff.rfl
    have hgrade := localizationStep_grade (s := aged up un s)
    have hsame := localizationStep_same (s := aged up un s)
    have hstill : (localizationStep (aged up un s)).alc.record = s.alc.record := by simp [hrecord]
    rw [hiso] at hgrade hsame
    refine ⟨_, hexec, by simp [hiso, Iso.agedBy], by simp [hiso, Iso.agedBy], ⟨fun hno => ?_, fun hyes hl => ?_, fun hyes z hl => ?_,
      fun hyes hl z hz => ?_, fun hyes hl hend => ?_, fun hno => ?_, fun hb => ?_⟩, by simp [hiso, Iso.agedBy], hplan, hnv, hstill,
      hports, hrest⟩
    · rw [localizationStep_off (mt hok.1 hno), hiso]
      exact ⟨rfl, rfl, rfl, hwindow⟩
    · rw [localizationStep_baseline (hok.2 hyes) (by rw [hiso]; exact hl)]
      exact ⟨by simp, hrecord ▸ requestMeasurement_requested .baseline ((aged up un s).setIso _)⟩
    · have hloc : (aged up un s).iso.localization = .probing z := by rw [hiso]; exact hl
      rw [localizationStep_probing (hok.2 hyes) hloc]
      exact ⟨by simpa using hloc, hrecord ▸ requestMeasurement_requested .probe (aged up un s)⟩
    · obtain ⟨b, hn, htakes⟩ := nextProbe_of ((hnext z).2 hz)
      have hprobed := probeTakes_probed htakes
      obtain ⟨hloc, hlast, hrequested, hzones, -⟩ := startProbe_spec (s := aged up un s) z b (hquiet hyes)
      rw [hrecord] at hrequested
      rw [localizationStep_next (hok.2 hyes) (by rw [hiso]; exact hl) hn]
      have hzone : (aged up un s).zone z = s.zone z := by rw [State.zone, hhtr]; rfl
      rw [hprobed, hhtr, hzone] at hzones
      exact ⟨hloc, hlast, hrequested, hzones⟩
    · have hn : nextProbe (aged up un s) = none := nextProbe_ended fun z hz => hend z ((hnext z).1 hz)
      obtain ⟨cphase, cpurpose, cwindow⟩ := endRun_course (hquiet hyes)
      rw [localizationStep_ended (hok.2 hyes) (by rw [hiso]; exact hl) hn]
      refine ⟨⟨by rw [cphase, hiso]; rfl, by rw [cpurpose, hiso]; rfl, cwindow.trans hwindow⟩, fun hm => ?_, fun hm c hc hf => ?_⟩
      · rw [endRun_clean (by rw [hiso]; exact hm)]; rfl
      · obtain ⟨gloc, glock, gtold, gcand, ggrade, ggraded⟩ := endRun_graded (s := aged up un s) (c := c) (hquiet hyes)
          (by rw [hiso]; exact hm) (by rw [hiso]; exact hc) hf
        refine ⟨gloc, glock, gtold.after hgrows, gcand, ?_, fun hne => (ggraded (by rw [hiso]; exact hne)).after hgrows⟩
        rw [ggrade]
        cases c <;> first | rfl | exact absurd rfl hf
    · exact hgrade fun ⟨h1, h2, h3, h4⟩ => hno ⟨hok.1 h1, h2, fun z hz => nextProbe_none h3 z ((hnext z).2 hz), h4⟩
    · obtain ⟨ksession, krst, kmarked, kbase, kzones⟩ := hsame hb
      refine ⟨ksession.trans hsession, krst.trans hrst, kmarked, kbase, fun hno => ?_⟩
      rw [kzones fun ⟨h1, h2, h3⟩ => hno ⟨hok.1 h1, h2, fun hend => h3 (nextProbe_ended fun z hz => hend z ((hnext z).1 hz))⟩, hhtr]
  · intro ok
    have haged := aged_iso up un s
    obtain ⟨hhtr, -, hmtr, hrst, hplan, hnv, hrecord, hwindow, hsession⟩ := aged_same up un s
    have hexec := exec_busConversion up un hp (busConverted_longDead hu hl)
    have hports := (busConverted_grows up un s).portsKept
    have hrest := busConverted_restKept up un s
    rw [busConverted_longDead hu hl] at hports hrest
    obtain ⟨hrun, rphase, rloc, rlong, rgrade, rlock, rbus, rwindow, rbegun⟩ := longDeadEnergization_restart
      (s := aged up un s) (by rw [haged]; exact hphase) (by rw [haged]; exact hloc) (by rw [haged]; exact hne)
    obtain ⟨⟨c, hiso⟩, wmtr, wrst, wses, -⟩ := woken_blocks (s := aged up un s)
      (by rw [haged]; exact congrArg Phase.inFlight hphase)
    rw [hrun] at hexec hports hrest
    have hsound : ZonesSound (aged up un s) := by rw [zonesSound_iff, hhtr]; exact hz
    have hgrows : Grows (woken (aged up un s)) (localizationStep (restartRun (woken (aged up un s)))) :=
      (restartRun_grows _).trans (localizationStep_grows _)
    have hok : localizable (restartRun (woken (aged up un s))) = true ↔ ok := by
      rw [localizable_iff, rbus, rphase, haged]
      simp only [restartRun_keeps, restartRun_within, woken, changeGrade_keeps, changeGrade_within, State.setIso_entry, State.setIso_alc,
        aged, raiseAge_keeps, raiseAge_within]
      exact ⟨fun ⟨_, h1, h2, _⟩ => ⟨h1, h2⟩, fun ⟨h1, h2⟩ => ⟨hu, h1, h2, trivial⟩⟩
    have hrec : (restartRun (woken (aged up un s))).alc.record = s.alc.record := by simp [woken, hrecord]
    obtain ⟨lyes, lno, lmarked, llast, lbase, lgrade, llock, lhtr, lmtr, lrst, lses⟩ := localizationStep_waiting rloc
    rw [hrec] at lyes
    refine ⟨_, hexec, by simp [hiso], lgrade.trans rgrade, llock.trans (by rw [rlock, haged]; rfl), fun hg => ?_, fun hyes => ?_, fun hno => ?_,
      fun hnw => ?_, fun z b hz hb => ?_, by simp [woken, hplan], by simp [woken, hnv], ?_, ?_, ?_, by simp [woken, hrecord], hports, hrest⟩
    · obtain ⟨htold, -⟩ := woken_changed (s := aged up un s) (by rw [haged]; exact hg)
      exact (htold.after (aged_grows up un s)).grow hgrows
    · obtain ⟨hl, hpurpose, -, hasked⟩ := lyes (hok.2 hyes)
      refine ⟨hl, hpurpose, ?_⟩
      split at hasked
      · next hr => rw [if_pos hr]; exact ⟨hasked.1, hasked.2.2⟩
      · next hr => rw [if_neg hr]; exact hasked
    · rw [lno (mt hok.1 hno)]
      exact ⟨rloc, rphase, rwindow.trans hwindow⟩
    · rw [lmarked, llast, lbase]
      exact rbegun (by rw [haged]; exact hnw)
    · have hzone : (localizationStep (restartRun (woken (aged up un s)))).zone z = (restartRun (woken (aged up un s))).zone z := by
        rw [State.zone, lhtr]; rfl
      have hprobed := woken_probed hsound (z := z) (b := b) (by rw [State.zone, hhtr]; exact hb)
      obtain ⟨-, -, hback⟩ := restartRun_spec (s := woken (aged up un s)) (by rw [hiso, haged]; exact congrArg Phase.inFlight hphase)
        (by rw [hiso, haged]; exact hloc) (by rw [hiso, haged]; exact hne)
      rw [hzone]
      exact hback z b (by rw [hiso, haged]; exact hz) hprobed
    · rw [lmtr]; simp [wmtr, hmtr]
    · rw [lrst]; simp [wrst, hrst]
    · rw [lses]; simp [wses, hsession]
  · refine ⟨_, exec_busConversion up un hp (busConverted_dead hu s), rfl, ?_, rfl, rfl, rfl, rfl, rfl, rfl, rfl, rfl, ?_, ?_, rfl⟩
    · split <;> rfl
    · dsimp only
      split <;> rfl
    · dsimp only
      split <;> rfl

end Sys2Proof.Machine
end

section
/-! PROOFS. The heater's conversion (R77, R78, R93): the readings of the eight zones, one after another, and the switch changes they
make. -/

namespace Sys2Proof.Machine

/-! ## One zone's conversion -/

theorem overLimit_iff (s : State) (z : Fin 8) (t : Option Int) : overLimit s z t = true ↔
    ((s.zone z).state = .energized ∨ (s.zone z).state = .checking) ∧ ∃ v, t = some v ∧ zoneTarget s z + 100 ≤ v := by
  cases t with
  | none => simp [overLimit]
  | some v => cases hs : (s.zone z).state <;> simp [overLimit, hs, ZoneState.isHot]

theorem losesSensor_iff (h : Htr) (z : Fin 8) (t : Option Int) : losesSensor h z t = true ↔
    t = none ∧ (h.zones[z].temp.isSome = true ∨ h.converted = false) := by
  simp [losesSensor, Option.isNone_iff_eq_none]

/-- Two states that a zone's conversion cannot tell apart. -/
structure SameZone (z : Fin 8) (s u : State) : Prop where
  zone : u.zone z = s.zone z
  entry : ∀ i, u.entry i = s.entry i
  mode : u.htr.mode = s.htr.mode
  converted : u.htr.converted = s.htr.converted

theorem overLimit_congr {z : Fin 8} {s u : State} (h : SameZone z s u) (t : Option Int) : overLimit u z t = overLimit s z t := by
  have htarget : zoneTarget u z = zoneTarget s z := by rw [zoneTarget, h.entry]; rfl
  cases t with
  | none => rfl
  | some v => simp only [overLimit, htarget, h.zone]

theorem losesSensor_congr {z : Fin 8} {s u : State} (h : SameZone z s u) (t : Option Int) :
    losesSensor u.htr z t = losesSensor s.htr z t := by
  have hz : u.htr.zones[z] = s.htr.zones[z] := h.zone
  simp only [losesSensor, hz, h.converted]

theorem convertZone_congr {z : Fin 8} {s u : State} (h : SameZone z s u) (r : Thermistor) :
    (convertZone u z r).zones[z] = (convertZone s z r).zones[z] := by
  rw [convertZone_self, convertZone_self]
  simp only [overLimit_congr h, convertedZone, zoneTarget, zoneHysteresis, h.zone, h.entry, h.mode]

theorem heaterConvert_zone (z w : Fin 8) (r : Thermistor) (s : State) :
    (heaterConvert z r s).zone w = if z = w then (convertZone s z r).zones[z] else s.zone w := by
  have hset : (heaterConvert z r s).zone w = (convertZone s z r).zones[w] := by simp [heaterConvert, State.zone]
  rw [hset]
  split
  · next h => rw [h]
  · next h => exact convertZone_other s z w r h

/-- A zone's conversion leaves the check record but where it aborts the check (R84, R93). -/
theorem convertZone_check (s : State) (z : Fin 8) (r : Thermistor) : (convertZone s z r).check =
    if overLimit s z (convertReading r) = true ∧ (s.zone z).state = .checking then none else s.htr.check := by
  unfold convertZone
  dsimp only
  by_cases ho : overLimit s z (convertReading r) = true
  · by_cases hc : (s.zone z).state = .checking
    · rw [if_pos ho, if_pos hc, if_pos ⟨ho, hc⟩]; rfl
    · rw [if_pos ho, if_neg hc, if_neg fun h => hc h.2]; rfl
  · have hkept : (if overLimit s z (convertReading r) = true ∧ (s.zone z).state = .checking then none else s.htr.check)
        = s.htr.check := if_neg fun h => ho h.1
    rw [if_neg ho, hkept]
    split <;> rfl

theorem SameZone.after {z w : Fin 8} {s : State} (r : Thermistor) (h : z ≠ w) : SameZone w s (heaterConvert z r s) where
  zone := by rw [heaterConvert_zone, if_neg h]
  entry i := by simp
  mode := by simp
  converted := by simp

/-! ## The zones one after another -/

/-- The conversions of the zones of a list. -/
def readZones (readings : Vector Thermistor 8) (l : List (Fin 8)) (s : State) : State :=
  l.foldl (fun u z => heaterConvert z readings[z] u) s

theorem readZones_same (readings : Vector Thermistor 8) (l : List (Fin 8)) : ∀ s : State,
    (readZones readings l s).iso = s.iso ∧ (readZones readings l s).alc = s.alc
      ∧ (readZones readings l s).htr.inbox = s.htr.inbox ∧ (readZones readings l s).htr.applied = s.htr.applied := by
  induction l with
  | nil => exact fun s => ⟨rfl, rfl, rfl, rfl⟩
  | cons z l ih =>
    intro s
    obtain ⟨hiso, halc, hinbox, happlied⟩ := ih (heaterConvert z readings[z] s)
    exact ⟨hiso.trans (by simp), halc.trans (by simp), hinbox.trans (by simp), happlied.trans (by simp)⟩

theorem readZones_zone (readings : Vector Thermistor 8) (l : List (Fin 8)) : ∀ s : State, l.Nodup → ∀ w,
    (readZones readings l s).zone w = if w ∈ l then (convertZone s w readings[w]).zones[w] else s.zone w := by
  induction l with
  | nil => exact fun s _ w => by simp [readZones]
  | cons z l ih =>
    intro s hl w
    obtain ⟨hz, hnodup⟩ := List.nodup_cons.1 hl
    have htail : (readZones readings (z :: l) s).zone w = _ := ih (heaterConvert z readings[z] s) hnodup w
    rw [htail, heaterConvert_zone]
    by_cases h : z = w
    · subst h
      rw [if_neg hz, if_pos rfl, if_pos (List.mem_cons_self ..)]
    · rw [if_neg h, convertZone_congr (.after _ h)]
      simp [Ne.symm h]

/-- A check is aborted over its limit (R84, R93). -/
def AbortsCheck (readings : Vector Thermistor 8) (s : State) (z : Fin 8) : Prop :=
  overLimit s z (convertReading readings[z]) = true ∧ (s.zone z).state = .checking

theorem abortsCheck_congr {readings : Vector Thermistor 8} {z : Fin 8} {s u : State} (h : SameZone z s u) :
    AbortsCheck readings u z ↔ AbortsCheck readings s z := by
  rw [AbortsCheck, AbortsCheck, overLimit_congr h, h.zone]

theorem heaterConvert_check (readings : Vector Thermistor 8) (z : Fin 8) (s : State) :
    (AbortsCheck readings s z → (heaterConvert z readings[z] s).htr.check = none)
      ∧ (¬ AbortsCheck readings s z → (heaterConvert z readings[z] s).htr.check = s.htr.check) := by
  have hset : (heaterConvert z readings[z] s).htr.check = (convertZone s z readings[z]).check := by simp [heaterConvert]
  rw [hset, convertZone_check]
  exact ⟨fun h => if_pos h, fun h => if_neg h⟩

theorem readZones_check (readings : Vector Thermistor 8) (l : List (Fin 8)) : ∀ s : State, l.Nodup →
    ((∃ z ∈ l, AbortsCheck readings s z) → (readZones readings l s).htr.check = none)
      ∧ ((∀ z ∈ l, ¬ AbortsCheck readings s z) → (readZones readings l s).htr.check = s.htr.check) := by
  induction l with
  | nil => exact fun s _ => ⟨fun ⟨_, hz, _⟩ => absurd hz List.not_mem_nil, fun _ => rfl⟩
  | cons z l ih =>
    intro s hl
    obtain ⟨hz, hnodup⟩ := List.nodup_cons.1 hl
    obtain ⟨hsome, hnone⟩ := ih (heaterConvert z readings[z] s) hnodup
    obtain ⟨haborted, hkept⟩ := heaterConvert_check readings z s
    have hrest (w : Fin 8) (hw : w ∈ l) : AbortsCheck readings (heaterConvert z readings[z] s) w ↔ AbortsCheck readings s w :=
      abortsCheck_congr (.after _ fun he => hz (he ▸ hw))
    refine ⟨fun ⟨w, hw, ha⟩ => ?_, fun hno => ?_⟩
    · by_cases hlater : ∃ y ∈ l, AbortsCheck readings s y
      · obtain ⟨y, hy, hay⟩ := hlater
        exact hsome ⟨y, hy, (hrest y hy).2 hay⟩
      · have hwz : w = z := (List.mem_cons.1 hw).resolve_right fun h => hlater ⟨w, h, ha⟩
        subst hwz
        exact (hnone fun y hy hay => hlater ⟨y, hy, (hrest y hy).1 hay⟩).trans (haborted ha)
    · exact (hnone fun y hy hay => hno y (List.mem_cons_of_mem _ hy) ((hrest y hy).1 hay)).trans
        (hkept (hno z (List.mem_cons_self ..)))

theorem heaterConvert_told {z : Fin 8} {r : Thermistor} {s : State}
    (h : losesSensor s.htr z (convertReading r) = true ∨ overLimit s z (convertReading r) = true) :
    ToldAll .heaterFault s (heaterConvert z r s) := by
  have hset : Grows s (s.setHtr (convertZone s z r)) := .of_eq (by simp)
  have hraise : (losesSensor s.htr z (convertReading r) || overLimit s z (convertReading r)) = true := by simpa using h
  unfold heaterConvert
  dsimp only
  rw [hraise]
  exact raise_toldAll_of_grows .heaterFault hset

theorem readZones_told (readings : Vector Thermistor 8) {z : Fin 8} (l : List (Fin 8)) : ∀ s : State, l.Nodup → z ∈ l →
    losesSensor s.htr z (convertReading readings[z]) = true ∨ overLimit s z (convertReading readings[z]) = true →
    ToldAll .heaterFault s (readZones readings l s) := by
  induction l with
  | nil => exact fun s _ hz _ => nomatch hz
  | cons w l ih =>
    intro s hl hz h
    obtain ⟨hw, hnodup⟩ := List.nodup_cons.1 hl
    have hgrow : Grows (heaterConvert w readings[w] s) (readZones readings (w :: l) s) := foldl_heaterConvert_grows readings l _
    by_cases he : w = z
    · subst he
      exact (heaterConvert_told h).grow hgrow
    · have hsame : SameZone z s (heaterConvert w readings[w] s) := .after _ he
      have htail := ih (heaterConvert w readings[w] s) hnodup ((List.mem_cons.1 hz).resolve_left (Ne.symm he))
        (by rw [losesSensor_congr hsame, overLimit_congr hsame]; exact h)
      exact htail.after (heaterConvert_grows _ _ _)

/-! ## The eight zones, and their switches (R76) -/

/-- The heater after the eight readings. -/
def heaterRead (readings : Vector Thermistor 8) (s : State) : State :=
  (readZones readings zoneIds s).setHtr { (readZones readings zoneIds s).htr with converted := true }

theorem convertAll_eq (readings : Vector Thermistor 8) (s : State) :
    convertAll readings s = heaterChanged s.htr (heaterRead readings s) := rfl

theorem zoneIds_nodup : zoneIds.Nodup := by decide

theorem heaterRead_zone (readings : Vector Thermistor 8) (s : State) (z : Fin 8) :
    (heaterRead readings s).zone z = (convertZone s z readings[z]).zones[z] := by
  have hz := readZones_zone readings zoneIds s zoneIds_nodup z
  rw [if_pos (mem_zoneIds z)] at hz
  exact hz

theorem heaterRead_check (readings : Vector Thermistor 8) (s : State) :
    (∀ z, ¬ AbortsCheck readings s z) → (heaterRead readings s).htr.check = s.htr.check := fun h =>
  (readZones_check readings zoneIds s zoneIds_nodup).2 fun z _ => h z

/-- The reading of a zone is at or above its over-temperature limit (R93). -/
def TooHot (s : State) (z : Fin 8) (t : Option Int) : Prop := ∃ v, t = some v ∧ zoneTarget s z + 100 ≤ v

/-- The state of a zone after its conversion (R93). -/
theorem heaterRead_state (readings : Vector Thermistor 8) (s : State) (z : Fin 8) :
    (((s.zone z).state = .energized ∨ (s.zone z).state = .checking) → TooHot s z (convertReading readings[z]) →
        ((heaterRead readings s).zone z).state = .faulted .overtemp)
      ∧ ((s.zone z).state = .energized → convertReading readings[z] = none →
        ((heaterRead readings s).zone z).state = restingState s.htr.mode.dwell)
      ∧ (¬ (((s.zone z).state = .energized ∨ (s.zone z).state = .checking) ∧ TooHot s z (convertReading readings[z])) →
        ¬ ((s.zone z).state = .energized ∧ convertReading readings[z] = none) →
        ((heaterRead readings s).zone z).state = (s.zone z).state) := by
  rw [heaterRead_zone, convertZone_self]
  refine ⟨fun hhot ht => ?_, fun he hn => ?_, fun hcool hsensed => ?_⟩
  · exact if_pos ((overLimit_iff s z _).2 ⟨hhot, ht⟩)
  · refine (if_neg fun ho => ?_).trans (if_pos (by rw [hn, he]; rfl))
    obtain ⟨-, v, hv, -⟩ := (overLimit_iff s z _).1 ho
    rw [hn] at hv
    exact nomatch hv
  · refine (if_neg fun ho => hcool ((overLimit_iff s z _).1 ho)).trans (if_neg fun h => hsensed ?_)
    simpa [Option.isNone_iff_eq_none, and_comm] using h

/-- The switches of one zone over its conversion (R76, R93). -/
theorem heaterRead_switches (readings : Vector Thermistor 8) {s : State} (hs : ZonesSound s) (z : Fin 8) :
    switches s.htr z ≠ switches (heaterRead readings s).htr z ↔
      (s.zone z).state = .energized ∧ (TooHot s z (convertReading readings[z]) ∨ convertReading readings[z] = none)
      ∨ ∃ ck, s.htr.check = some ck ∧ ck.zone = z ∧ ck.pulseOn = true ∧ TooHot s z (convertReading readings[z]) := by
  obtain ⟨hchecking, -, -⟩ := hs
  obtain ⟨hover, hrest, hkept⟩ := heaterRead_state readings s z
  have hopen {h : Htr} {st : ZoneState} (hst : h.zones[z].state = st) (ho : st.isOpen = true) : switches h z = (false, false) :=
    switches_open (by rw [hst]; exact ho)
  by_cases he : (s.zone z).state = .energized
  · have hbefore : switches s.htr z = (true, true) := switches_energized he
    have hno : ¬ ∃ ck, s.htr.check = some ck ∧ ck.zone = z ∧ ck.pulseOn = true ∧ TooHot s z (convertReading readings[z]) := by
      rintro ⟨ck, hck, hz, -⟩
      have := (hchecking z).2 ⟨ck, hck, hz⟩
      rw [he] at this
      exact absurd this (by decide)
    rw [hbefore, or_iff_left hno]
    by_cases ht : TooHot s z (convertReading readings[z])
    · rw [hopen (hover (.inl he) ht) rfl]
      exact iff_of_true (by decide) ⟨he, .inl ht⟩
    · by_cases hn : convertReading readings[z] = none
      · rw [hopen (hrest he hn) (restingState_isOpen _)]
        exact iff_of_true (by decide) ⟨he, .inr hn⟩
      · have hstays := hkept (fun h => ht h.2) fun h => hn h.2
        rw [switches_energized (hstays.trans he)]
        exact iff_of_false (fun h => h rfl) fun h => h.2.elim ht hn
  · rw [or_iff_right fun h => he h.1]
    by_cases hc : (s.zone z).state = .checking
    · obtain ⟨ck, hck, hz⟩ := (hchecking z).1 hc
      have hbefore : switches s.htr z = (ck.pulseOn, ck.pulseOn) := by rw [switches_checking hc hck, if_pos hz]
      by_cases ht : TooHot s z (convertReading readings[z])
      · rw [hopen (hover (.inr hc) ht) rfl, hbefore]
        constructor
        · intro hne
          exact ⟨ck, hck, hz, by simpa using hne, ht⟩
        · rintro ⟨ck', hck', -, hpulse, -⟩
          obtain rfl : ck = ck' := by simpa [hck] using hck'
          simp [hpulse]
      · have hstays := hkept (fun h => ht h.2) fun h => he h.1
        have hcheck : (heaterRead readings s).htr.check = s.htr.check := heaterRead_check readings s fun w ⟨hw, hcw⟩ => by
          obtain ⟨ck', hck', rfl⟩ := (hchecking w).1 hcw
          obtain rfl : ck = ck' := by simpa [hck] using hck'
          subst hz
          exact ht ((overLimit_iff s _ _).1 hw).2
        exact iff_of_false (fun h => h (switches_congr hstays.symm hcheck.symm)) fun ⟨_, _, _, _, h⟩ => ht h
    · have hstays := hkept (fun h => h.1.elim he hc) fun h => he h.1
      refine iff_of_false (fun h => h ?_) fun ⟨ck, hck, hz, _⟩ => hc ((hchecking z).2 ⟨ck, hck, hz⟩)
      cases hst : (s.zone z).state with
      | energized => exact absurd hst he
      | checking => exact absurd hst hc
      | probed b => rw [switches_probed hst, switches_probed (hstays.trans hst)]
      | _ => rw [hopen hst rfl, hopen (hstays.trans hst) rfl]

/-! ## The readings (R77, R78) -/

theorem convertReading_eq (r : Thermistor) :
    convertReading r = r.map fun v => if v < -500 then -500 else if 1500 < v then 1500 else v := by
  cases r with
  | none => rfl
  | some v =>
    show some (max (-500) (min 1500 v)) = some _
    congr 1
    dsimp only
    (repeat' split) <;> omega

theorem tooHot_iff (s : State) (z : Fin 8) (r : Thermistor) :
    TooHot s z (convertReading r) ↔ ∃ v, r = some v ∧ zoneTarget s z + 100 ≤ max (-500) (min 1500 v) := by
  cases r with
  | none => exact iff_of_false (fun ⟨_, h, _⟩ => nomatch h) fun ⟨_, h, _⟩ => nomatch h
  | some v => simp [TooHot, convertReading]

theorem convertReading_none (r : Thermistor) : convertReading r = none ↔ r = none := Option.map_eq_none_iff

/-- The temperature and the want flag of a zone after its conversion (R77, R78). -/
theorem heaterRead_readings (readings : Vector Thermistor 8) (s : State) (z : Fin 8) :
    ((heaterRead readings s).zone z).temp = convertReading readings[z]
      ∧ ((heaterRead readings s).zone z).rating = (s.zone z).rating
      ∧ (∀ v, convertReading readings[z] = some v → ((heaterRead readings s).zone z).want =
        if v ≤ zoneTarget s z - zoneHysteresis s z then true else if zoneTarget s z ≤ v then false else (s.zone z).want)
      ∧ (convertReading readings[z] = none → ((heaterRead readings s).zone z).want = (s.zone z).want) := by
  rw [heaterRead_zone, convertZone_self]
  refine ⟨rfl, rfl, fun v hv => ?_, fun hn => ?_⟩
  · simp only [convertedZone, hv]; rfl
  · simp only [convertedZone, hn]

/-- Settles O32: each zone by its own conversion, and one report of all their switches. -/
theorem conversionTakesReadings : Obligations.ConversionTakesReadings := by
  unfold Obligations.ConversionTakesReadings
  intro readings s hp
  obtain ⟨hiso, halc, hinbox, happlied⟩ := readZones_same readings zoneIds s
  have hgrow : Grows (readZones readings zoneIds s) (convertAll readings s) := by
    have hset : Grows (readZones readings zoneIds s) (heaterRead readings s) := .of_eq fun _ => rfl
    exact hset.trans (heaterChanged_grows _ _)
  have hzone (z : Fin 8) : (convertAll readings s).zone z = (heaterRead readings s).zone z := heaterChanged_zone _ _ z
  have htold (z : Fin 8) (h : losesSensor s.htr z (convertReading readings[z]) = true
      ∨ overLimit s z (convertReading readings[z]) = true) : ToldAll .heaterFault s (convertAll readings s) :=
    (readZones_told readings zoneIds s zoneIds_nodup (mem_zoneIds z) h).grow hgrow
  refine ⟨_, by rw [exec]; exact live_becomes hp rfl, fun z => ?_, fun hs => ?_, ?_, ?_, ?_, by simp, by simp, by simp, by simp, by simp,
    by simp, by simp, by simp, by simp, (convertAll_grows readings s).portsKept, by simp [RestKept]⟩
  · intro temp hot tooHot
    have htemp : temp = convertReading readings[z] := (convertReading_eq _).symm
    clear_value temp
    subst htemp
    obtain ⟨rtemp, rrating, rwant, rkept⟩ := heaterRead_readings readings s z
    obtain ⟨shot, srest, ssame⟩ := heaterRead_state readings s z
    rw [hzone]
    refine ⟨rtemp, rrating, fun v hv => ⟨fun h1 => ?_, fun h1 h2 => ?_, fun h1 h2 => ?_⟩, rkept, fun h1 h2 => ⟨shot h1 h2, ?_⟩,
      srest, ssame, fun h1 h2 => ?_⟩
    · rw [rwant v hv, if_pos h1]
    · rw [rwant v hv, if_neg (by omega), if_pos h2]
    · rw [rwant v hv, if_neg (by omega), if_neg (by omega)]
    · exact htold z (.inr ((overLimit_iff s z _).2 ⟨h1, h2⟩))
    · exact htold z (.inl ((losesSensor_iff s.htr z _).2 ⟨h1, h2⟩))
  · intro tooHot
    refine (heaterChanged_reported s.htr (heaterRead readings s)).congr ?_ hiso.symm halc.symm rfl rfl rfl
    rw [switchMap_ne_iff]
    simp only [heaterRead_switches readings hs, tooHot_iff, convertReading_none, exists_or]
    refine or_congr_right ⟨fun ⟨z, ck, hck, hz, hpulse, ht⟩ => ?_, fun ⟨ck, hck, hpulse, ht⟩ => ⟨ck.zone, ck, hck, rfl, hpulse, ht⟩⟩
    subst hz
    exact ⟨ck, hck, hpulse, ht⟩
  · simp [convertAll_eq, heaterRead]
  · simp [convertAll_eq, heaterRead, hinbox]
  · simp [convertAll_eq, heaterRead, happlied]

end Sys2Proof.Machine
end

section
/-! PROOFS. A grant record applied by the heater (R80, R91, R92), step by step. -/

namespace Sys2Proof.Machine

/-! ## Step 2: what is de-energized, and the check that is aborted (R84, R91) -/

/-- The zone of a check stays in the set, and enabled. -/
def keeps (zs : List (Fin 8 × Nat)) (h : Htr) (z : Fin 8) : Bool :=
  inSet zs z && decide (0 < h.zones[z].rating) && h.mode.mask.getLsbD z.val

theorem keeps_iff (zs : List (Fin 8 × Nat)) (h : Htr) (z : Fin 8) :
    keeps zs h z = true ↔ inSet zs z = true ∧ 0 < h.zones[z].rating ∧ h.mode.mask.getLsbD z.val = true := by
  simp [keeps, and_assoc]

/-- The mode and the turn of the heater. -/
def Htr.turn (h : Htr) : HeatingMode × Option HeatingMode × Fin 8 × Fin 8 := (h.mode, h.pendingMode, h.p, h.s)

/-- The slot timer and the boundary-due flag. -/
def Htr.slot (h : Htr) : Timer × Bool := (h.slotTimer, h.boundaryDue)

/-- The ENERGIZED zones outside a set de-energized, one after another. -/
def restOutside (zs : List (Fin 8 × Nat)) (h : Htr) : Htr :=
  (h.energized.filter fun z => !inSet zs z).foldl (fun g z => g.deenergize z (restingState g.mode.dwell)) h

theorem restOutside_same (zs : List (Fin 8 × Nat)) (h : Htr) : (restOutside zs h).check = h.check
    ∧ (restOutside zs h).turn = h.turn ∧ (restOutside zs h).slot = h.slot := by
  have hfold (l : List (Fin 8)) : ∀ g : Htr,
      (l.foldl (fun g z => g.deenergize z (restingState g.mode.dwell)) g).check = g.check
        ∧ (l.foldl (fun g z => g.deenergize z (restingState g.mode.dwell)) g).turn = g.turn
        ∧ (l.foldl (fun g z => g.deenergize z (restingState g.mode.dwell)) g).slot = g.slot := by
    induction l with
    | nil => exact fun _ => ⟨rfl, rfl, rfl⟩
    | cons z l ih => exact fun g => ih (g.deenergize z (restingState g.mode.dwell))
  exact hfold _ h

theorem restOutside_zone (zs : List (Fin 8 × Nat)) {h : Htr} (hs : h.Sound) (w : Fin 8) : (restOutside zs h).zones[w] =
    if h.zones[w].state = .energized ∧ inSet zs w = false then { h.zones[w] with state := restingState h.mode.dwell }
    else h.zones[w] := by
  obtain ⟨-, hen, hnodup⟩ := hs
  rw [restOutside, shed_zone _ h (hnodup.filter _)]
  simp only [List.mem_filter, ← hen, Bool.not_eq_true']

theorem restOutside_energized (zs : List (Fin 8 × Nat)) (h : Htr) :
    (restOutside zs h).energized = h.energized.filter (inSet zs) := by
  rw [restOutside, shed_energized]
  refine List.filter_congr fun z hz => ?_
  simp [List.mem_filter, hz]

/-- The zone of a check record is none that rests. -/
theorem restOutside_checked (zs : List (Fin 8 × Nat)) {h : Htr} (hs : h.Sound) {ck : CheckRecord} (hck : h.check = some ck) :
    (restOutside zs h).zones[ck.zone] = h.zones[ck.zone] := by
  have hchecking : h.zones[ck.zone].state = .checking := (hs.1 ck.zone).2 ⟨ck, hck, rfl⟩
  rw [restOutside_zone zs hs, if_neg]
  rintro ⟨he, -⟩
  rw [hchecking] at he
  exact absurd he (by decide)

theorem shedOutside_eq (zs : List (Fin 8 × Nat)) {h : Htr} (hs : h.Sound) : shedOutside zs h =
    match h.check with
    | some ck => if keeps zs h ck.zone then restOutside zs h else (restOutside zs h).endCheck ck.zone .unchecked
    | none => restOutside zs h := by
  obtain ⟨hcheck, hturn, -⟩ := restOutside_same zs h
  have hmode : (restOutside zs h).mode = h.mode := congrArg Prod.fst hturn
  have heq : shedOutside zs h = match (restOutside zs h).check with
    | some ck => if inSet zs ck.zone && decide (0 < (restOutside zs h).zones[ck.zone].rating)
        && (restOutside zs h).mode.mask.getLsbD ck.zone.val then restOutside zs h
      else (restOutside zs h).endCheck ck.zone .unchecked
    | none => restOutside zs h := rfl
  rw [heq, hcheck]
  cases hck : h.check with
  | none => rfl
  | some ck =>
    simp only [restOutside_checked zs hs hck, hmode]
    rfl

theorem shedOutside_kept (zs : List (Fin 8 × Nat)) {h : Htr} (hs : h.Sound)
    (hk : ∀ ck, h.check = some ck → keeps zs h ck.zone = true) : shedOutside zs h = restOutside zs h := by
  rw [shedOutside_eq zs hs]
  split
  · next ck hck => rw [if_pos (hk ck hck)]
  · rfl

theorem shedOutside_aborted (zs : List (Fin 8 × Nat)) {h : Htr} (hs : h.Sound) {ck : CheckRecord} (hck : h.check = some ck)
    (hk : keeps zs h ck.zone = false) : shedOutside zs h = (restOutside zs h).endCheck ck.zone .unchecked := by
  rw [shedOutside_eq zs hs, hck]
  exact if_neg (by rw [hk]; decide)

/-- The state of a zone after step 2. -/
def shedState (zs : List (Fin 8 × Nat)) (h : Htr) (w : Fin 8) : ZoneState :=
  match h.zones[w].state with
  | .energized => if inSet zs w then .energized else restingState h.mode.dwell
  | .checking => if keeps zs h w then .checking else .unchecked
  | st => st

theorem shedState_energized {zs : List (Fin 8 × Nat)} {h : Htr} {w : Fin 8} (hw : h.zones[w].state = .energized) :
    shedState zs h w = if inSet zs w then .energized else restingState h.mode.dwell := by simp only [shedState, hw]

theorem shedState_checking {zs : List (Fin 8 × Nat)} {h : Htr} {w : Fin 8} (hw : h.zones[w].state = .checking) :
    shedState zs h w = if keeps zs h w then .checking else .unchecked := by simp only [shedState, hw]

theorem shedState_other {zs : List (Fin 8 × Nat)} {h : Htr} {w : Fin 8} (he : h.zones[w].state ≠ .energized)
    (hc : h.zones[w].state ≠ .checking) : shedState zs h w = h.zones[w].state := by
  unfold shedState
  cases hst : h.zones[w].state with
  | energized => exact absurd hst he
  | checking => exact absurd hst hc
  | _ => rfl

theorem restOutside_zone_unchecked (zs : List (Fin 8 × Nat)) {h : Htr} (hs : h.Sound) {w : Fin 8}
    (hc : h.zones[w].state = .checking → keeps zs h w = true) :
    (restOutside zs h).zones[w] = { h.zones[w] with state := shedState zs h w } := by
  rw [restOutside_zone zs hs]
  by_cases he : h.zones[w].state = .energized
  · rw [shedState_energized he]
    cases inSet zs w with
    | false => exact if_pos ⟨he, rfl⟩
    | true => rw [if_neg (fun h => nomatch h.2), if_pos rfl, ← he]
  · rw [if_neg fun h => he h.1]
    by_cases hk : h.zones[w].state = .checking
    · rw [shedState_checking hk, if_pos (hc hk), ← hk]
    · rw [shedState_other he hk]

/-- The zones after step 2. -/
theorem shedOutside_zone (zs : List (Fin 8 × Nat)) {h : Htr} (hs : h.Sound) (w : Fin 8) :
    (shedOutside zs h).zones[w] = { h.zones[w] with state := shedState zs h w } := by
  by_cases hab : ∃ ck, h.check = some ck ∧ keeps zs h ck.zone = false
  · obtain ⟨ck, hck, hk⟩ := hab
    have hzone : ((restOutside zs h).endCheck ck.zone .unchecked).zones[w] = ((restOutside zs h).enter ck.zone .unchecked).zones[w] :=
      rfl
    rw [shedOutside_aborted zs hs hck hk, hzone, enter_zone]
    by_cases hw : ck.zone = w
    · subst hw
      have hchecking : h.zones[ck.zone].state = .checking := (hs.1 ck.zone).2 ⟨ck, hck, rfl⟩
      rw [if_pos rfl, restOutside_checked zs hs hck, shedState_checking hchecking, hk]
      rfl
    · rw [if_neg hw]
      refine restOutside_zone_unchecked zs hs fun hchecking => ?_
      obtain ⟨ck', hck', hz⟩ := (hs.1 w).1 hchecking
      obtain rfl : ck = ck' := by simpa [hck] using hck'
      exact absurd hz hw
  · have hkept (ck : CheckRecord) (hck : h.check = some ck) : keeps zs h ck.zone = true := by
      by_contra hno
      exact hab ⟨ck, hck, by simpa using hno⟩
    rw [shedOutside_kept zs hs hkept]
    refine restOutside_zone_unchecked zs hs fun hchecking => ?_
    obtain ⟨ck, hck, rfl⟩ := (hs.1 w).1 hchecking
    exact hkept ck hck

/-- A check is aborted by step 2 (R84). -/
def CheckAborted (zs : List (Fin 8 × Nat)) (h : Htr) : Prop := ∃ z : Fin 8, h.zones[z].state = .checking ∧ keeps zs h z = false

/-- The registers after step 2. -/
theorem shedOutside_same (zs : List (Fin 8 × Nat)) {h : Htr} (hs : h.Sound) :
    (shedOutside zs h).turn = h.turn ∧ (shedOutside zs h).energized = h.energized.filter (inSet zs)
      ∧ (CheckAborted zs h → (shedOutside zs h).check = none ∧ (shedOutside zs h).slot = (.stopped, true))
      ∧ (¬ CheckAborted zs h → (shedOutside zs h).check = h.check ∧ (shedOutside zs h).slot = h.slot) := by
  obtain ⟨hcheck, hturn, hslot⟩ := restOutside_same zs h
  have hen := restOutside_energized zs h
  by_cases hab : CheckAborted zs h
  · obtain ⟨z, hz, hk⟩ := id hab
    obtain ⟨ck, hck, rfl⟩ := (hs.1 z).1 hz
    rw [shedOutside_aborted zs hs hck hk]
    exact ⟨hturn, hen, fun _ => ⟨rfl, rfl⟩, fun hno => absurd hab hno⟩
  · rw [shedOutside_kept zs hs fun ck hck => ?_]
    · exact ⟨hturn, hen, fun hyes => absurd hyes hab, fun _ => ⟨hcheck, hslot⟩⟩
    · by_contra hno
      exact hab ⟨ck.zone, (hs.1 ck.zone).2 ⟨ck, hck, rfl⟩, by simpa using hno⟩

/-! ## Step 3: what is energized, and the check that begins (R82, R91) -/

theorem energizeSet_registers (r : GrantRecord) (zs : List (Fin 8 × Nat)) (h : Htr) :
    (energizeSet r zs h).check = h.check ∧ (energizeSet r zs h).turn = h.turn ∧ (energizeSet r zs h).slot = h.slot := by
  have hone (z : Fin 8) (g : Htr) : (energizeZone z g).slot = g.slot := by
    unfold energizeZone
    split <;> rfl
  have hfold (l : List (Fin 8 × Nat)) : ∀ g : Htr, (l.foldl (fun h x => energizeZone x.1 h) g).slot = g.slot := by
    induction l with
    | nil => exact fun _ => rfl
    | cons x l ih => exact fun g => (ih _).trans (hone x.1 g)
  obtain ⟨hcheck, hmode, hp, hs, hpending⟩ := energizeSet_same r zs h
  refine ⟨hcheck, by rw [Htr.turn, hmode, hpending, hp, hs]; rfl, ?_⟩
  unfold energizeSet
  split
  · exact hfold zs h
  · rfl

/-- A boundary record energizes, in its order, the zones of its set that are OFF with a valid temperature (R91). -/
theorem energizeSet_list (r : GrantRecord) (zs : List (Fin 8 × Nat)) (h : Htr) (hn : (zs.map Prod.fst).Nodup) :
    (energizeSet r zs h).energized = h.energized
      ++ (zs.map Prod.fst).filter fun z => r.boundary && h.zones[z].state == .off && h.zones[z].temp.isSome := by
  have hfold (l : List (Fin 8 × Nat)) : ∀ g : Htr, (l.map Prod.fst).Nodup →
      (l.foldl (fun h x => energizeZone x.1 h) g).energized = g.energized
        ++ (l.map Prod.fst).filter fun z => g.zones[z].state == .off && g.zones[z].temp.isSome := by
    induction l with
    | nil => exact fun g _ => by simp
    | cons x l ih =>
      intro g hl
      obtain ⟨hx, hnodup⟩ := List.nodup_cons.1 hl
      have hlater : ((l.map Prod.fst).filter fun z => (energizeZone x.1 g).zones[z].state == .off
          && (energizeZone x.1 g).zones[z].temp.isSome)
          = (l.map Prod.fst).filter fun z => g.zones[z].state == .off && g.zones[z].temp.isSome := by
        refine List.filter_congr fun z hz => ?_
        have hne : x.1 ≠ z := fun he => hx (he ▸ hz)
        rw [energizeZone_zone, if_neg fun h => hne h.1]
      rw [List.foldl_cons, ih _ hnodup, hlater, List.map_cons, List.filter_cons]
      have hstep : (energizeZone x.1 g).energized
          = if g.zones[x.1].state == .off && g.zones[x.1].temp.isSome then g.energized ++ [x.1] else g.energized := by
        unfold energizeZone
        split <;> rfl
      rw [hstep]
      split <;> simp
  unfold energizeSet
  cases hb : r.boundary
  · simp
  · simpa using hfold zs h hn

/-! ## The heater before its check and its boundary steps -/

/-- The rating in use after a record (R80). -/
def ratingUsed (s : State) (r : GrantRecord) (z : Fin 8) : Nat := (carriedRating (appliedSet s r) z).getD (zoneRating s z)

/-- Step 1 (R80). -/
def rated (s : State) (r : GrantRecord) : Htr := takeRatings s (appliedSet s r) s.htr

/-- Steps 1 to 3 but for the start of a check (R91). -/
def heated (s : State) (r : GrantRecord) : Htr := energizeSet r (appliedSet s r) (shedOutside (appliedSet s r) (rated s r))

/-- A zone's check goes on under the record: in its set, rated above 0, and enabled (R84, R91). -/
def Kept (s : State) (r : GrantRecord) (z : Fin 8) : Prop :=
  inSet (appliedSet s r) z = true ∧ 0 < ratingUsed s r z ∧ inMask s z = true

theorem rated_zone (s : State) (r : GrantRecord) (z : Fin 8) :
    (rated s r).zones[z] = { s.htr.zones[z] with rating := ratingUsed s r z } := by
  simp [rated, takeRatings, ratingUsed]

theorem rated_sound {s : State} (r : GrantRecord) (hs : s.htr.Sound) : (rated s r).Sound :=
  sound_states hs (takeRatings_state _ _ _) rfl rfl

theorem keeps_rated (s : State) (r : GrantRecord) (z : Fin 8) : keeps (appliedSet s r) (rated s r) z = true ↔ Kept s r z := by
  rw [keeps_iff, rated_zone]
  rfl

/-- The state of a zone after steps 1 to 3 but for a check that begins (R91). -/
def heatedState (s : State) (r : GrantRecord) (z : Fin 8) : ZoneState :=
  match (s.zone z).state with
  | .energized => if inSet (appliedSet s r) z then .energized else restingState s.htr.mode.dwell
  | .off => if r.boundary && inSet (appliedSet s r) z && (s.zone z).temp.isSome then .energized else .off
  | .checking => if keeps (appliedSet s r) (rated s r) z then .checking else .unchecked
  | st => st

theorem heated_zone {s : State} (r : GrantRecord) (hs : s.htr.Sound) (z : Fin 8) :
    (heated s r).zones[z] = { s.htr.zones[z] with state := heatedState s r z, rating := ratingUsed s r z } := by
  have hshed := shedOutside_zone (appliedSet s r) (rated_sound r hs) z
  have hrated := rated_zone s r z
  have hz : s.zone z = s.htr.zones[z] := rfl
  have hstate : (rated s r).zones[z].state = s.htr.zones[z].state := by rw [hrated]
  rw [heated, energizeSet_zone, hshed, hrated]
  unfold heatedState
  rw [hz]
  cases hst : s.htr.zones[z].state with
  | energized =>
    rw [shedState_energized (hstate.trans hst)]
    rw [if_neg]
    · rfl
    · rintro ⟨-, hin, hoff, -⟩
      simp [hin] at hoff
  | checking =>
    rw [shedState_checking (hstate.trans hst)]
    rw [if_neg]
    rintro ⟨-, -, hoff, -⟩
    split at hoff <;> simp at hoff
  | off =>
    rw [shedState_other (by rw [hstate, hst]; decide) (by rw [hstate, hst]; decide), hstate, hst]
    cases hb : r.boundary <;> cases hin : inSet (appliedSet s r) z <;> cases ht : s.htr.zones[z].temp.isSome <;> simp
  | _ =>
    rw [shedState_other (by rw [hstate, hst]; simp) (by rw [hstate, hst]; simp), hstate, hst]
    rw [if_neg fun h => nomatch h.2.2.1]

/-- The registers after steps 1 to 3 but for a check that begins. -/
theorem heated_same {s : State} (r : GrantRecord) (hs : s.htr.Sound) :
    (heated s r).turn = s.htr.turn
      ∧ (CheckAborted (appliedSet s r) (rated s r) → (heated s r).check = none ∧ (heated s r).slot = (.stopped, true))
      ∧ (¬ CheckAborted (appliedSet s r) (rated s r) → (heated s r).check = s.htr.check ∧ (heated s r).slot = s.htr.slot) := by
  obtain ⟨hturn, -, hyes, hno⟩ := shedOutside_same (appliedSet s r) (rated_sound r hs)
  obtain ⟨echeck, eturn, eslot⟩ := energizeSet_registers r (appliedSet s r) (shedOutside (appliedSet s r) (rated s r))
  unfold heated
  rw [echeck, eturn, eslot]
  exact ⟨hturn, hyes, hno⟩

theorem checkAborted_iff (s : State) (r : GrantRecord) : CheckAborted (appliedSet s r) (rated s r) ↔
    ∃ z, (s.zone z).state = .checking ∧ ¬ Kept s r z := by
  have hstate (z : Fin 8) : (rated s r).zones[z].state = (s.zone z).state := takeRatings_state _ _ _ z
  simp only [CheckAborted, hstate, ← keeps_rated, Bool.not_eq_true]

/-- With a check aborted, or none under way, the check record is free (R82). -/
theorem heated_check {s : State} (r : GrantRecord) (hs : s.htr.Sound) :
    (heated s r).check = none ↔ ∀ y, (s.zone y).state = .checking → ¬ Kept s r y := by
  obtain ⟨-, hyes, hno⟩ := heated_same r hs
  by_cases hab : CheckAborted (appliedSet s r) (rated s r)
  · refine iff_of_true (hyes hab).1 fun y hy hk => ?_
    obtain ⟨z, hz, hnk⟩ := (checkAborted_iff s r).1 hab
    obtain ⟨ck, hck, rfl⟩ := (hs.1 z).1 hz
    obtain ⟨ck', hck', rfl⟩ := (hs.1 y).1 hy
    obtain rfl : ck = ck' := by simpa [hck] using hck'
    exact hnk hk
  · rw [(hno hab).1]
    constructor
    · intro hnone y hy
      obtain ⟨ck, hck, -⟩ := (hs.1 y).1 hy
      rw [hnone] at hck
      exact nomatch hck
    · intro hall
      cases hck : s.htr.check with
      | none => rfl
      | some ck =>
        have hy := (hs.1 ck.zone).2 ⟨ck, hck, rfl⟩
        exact absurd ((checkAborted_iff s r).2 ⟨ck.zone, hy, hall ck.zone hy⟩) hab

/-- The energized set after a record (R91). -/
theorem heated_energized {s : State} (r : GrantRecord) (hs : s.htr.Sound) (hn : ((appliedSet s r).map Prod.fst).Nodup) :
    (heated s r).energized = s.htr.energized.filter (inSet (appliedSet s r)) ++ ((appliedSet s r).map Prod.fst).filter fun z =>
      r.boundary && (s.zone z).state == .off && (s.zone z).temp.isSome := by
  obtain ⟨-, hen, -⟩ := shedOutside_same (appliedSet s r) (rated_sound r hs)
  rw [heated, energizeSet_list r _ _ hn, hen]
  congr 1
  refine List.filter_congr fun z hz => ?_
  have hin : inSet (appliedSet s r) z = true := by
    obtain ⟨x, hx, rfl⟩ := List.mem_map.1 hz
    exact List.any_eq_true.2 ⟨x, hx, by simp⟩
  have hstate : (rated s r).zones[z].state = (s.zone z).state := takeRatings_state _ _ _ z
  have hoff : ((shedOutside (appliedSet s r) (rated s r)).zones[z].state == .off) = ((s.zone z).state == .off) := by
    rw [shedOutside_zone _ (rated_sound r hs)]
    dsimp only
    cases hst : (s.zone z).state with
    | energized => rw [shedState_energized (hstate.trans hst), hin]; rfl
    | checking => rw [shedState_checking (hstate.trans hst)]; split <;> rfl
    | _ => rw [shedState_other (by rw [hstate, hst]; simp) (by rw [hstate, hst]; simp), hstate, hst]
  have htemp : (shedOutside (appliedSet s r) (rated s r)).zones[z].temp = (s.zone z).temp := by
    rw [shedOutside_zone _ (rated_sound r hs), rated_zone]
    rfl
  rw [hoff, htemp]

/-! ## The start of a check (R81, R82) -/

/-- A zone whose check the record begins (R82, R91, R95). -/
def BeginsCheck (s : State) (r : GrantRecord) (z : Fin 8) : Prop :=
  heatedState s r z = .unchecked ∧ Kept s r z ∧ s.htr.pendingMode = none
    ∧ (∀ y, y < z → heatedState s r y = .unchecked → 0 < ratingUsed s r y → inMask s y = false)
    ∧ ∀ y, (s.zone y).state = .checking → ¬ Kept s r y

theorem beginsCheck_iff {s : State} (r : GrantRecord) (hs : s.htr.Sound) (z : Fin 8) :
    candidateOf (heated s r) = some z ∧ inSet (appliedSet s r) z = true ∧ (heated s r).check = none
      ∧ (heated s r).pendingMode = none ↔ BeginsCheck s r z := by
  obtain ⟨hturn, -⟩ := heated_same r hs
  simp only [Htr.turn, Prod.mk.injEq] at hturn
  obtain ⟨hmode, hpending, -⟩ := hturn
  have hcand := candidateOf_iff (s.setHtr (heated s r)) z
  have hzone (y : Fin 8) : (s.setHtr (heated s r)).zone y
      = { s.htr.zones[y] with state := heatedState s r y, rating := ratingUsed s r y } := heated_zone r hs y
  simp only [hzone, State.setHtr_htr, hmode] at hcand
  rw [hcand, heated_check r hs, hpending]
  unfold BeginsCheck Kept
  constructor
  · rintro ⟨⟨⟨hr, hm⟩, hst, hfirst⟩, hin, hfree, hnone⟩
    refine ⟨hst, ⟨hin, hr, hm⟩, hnone, fun y hy hu hry => ?_, hfree⟩
    by_contra hmask
    have hset : inMask s y = true := by simpa using hmask
    exact hfirst y hy ⟨hry, hset⟩ hu
  · rintro ⟨hst, ⟨hin, hr, hm⟩, hnone, hfirst, hfree⟩
    refine ⟨⟨⟨hr, hm⟩, hst, fun y hy ⟨hry, hmy⟩ hu => ?_⟩, hin, hfree, hnone⟩
    have hmask : s.htr.mode.mask.getLsbD y.val = false := hfirst y hy hu hry
    rw [hmask] at hmy
    exact nomatch hmy

theorem BeginsCheck.unique {s : State} {r : GrantRecord} {y z : Fin 8} (hs : s.htr.Sound) (hy : BeginsCheck s r y)
    (hz : BeginsCheck s r z) : y = z := by
  have h := ((beginsCheck_iff r hs y).2 hy).1
  rw [((beginsCheck_iff r hs z).2 hz).1] at h
  exact (Option.some.inj h).symm

/-- The heater before the steps of a boundary. -/
def checkStarted (s : State) (r : GrantRecord) : Htr := startCheck (appliedSet s r) s.iso.uBus (heated s r)

theorem appliedHeater_eq (s : State) (r : GrantRecord) : appliedHeater s r =
    { boundarySteps s.htr r (checkStarted s r) with applied := r } := rfl

theorem checkStarted_begins {s : State} {r : GrantRecord} (hs : s.htr.Sound) {z : Fin 8} (h : BeginsCheck s r z) :
    checkStarted s r = (heated s r).beginCheck z s.iso.uBus := by
  obtain ⟨hcand, hin, hfree, hnone⟩ := (beginsCheck_iff r hs z).2 h
  unfold checkStarted startCheck
  rw [hcand]
  exact if_pos (by simp [hin, hfree, hnone])

theorem checkStarted_none {s : State} {r : GrantRecord} (hs : s.htr.Sound) (h : ∀ z, ¬ BeginsCheck s r z) :
    checkStarted s r = heated s r := by
  unfold checkStarted startCheck
  cases hcand : candidateOf (heated s r) with
  | none => rfl
  | some z =>
    refine if_neg fun hc => h z ((beginsCheck_iff r hs z).1 ⟨hcand, ?_⟩)
    simpa [and_assoc] using hc

/-- A check that begins on an energized bus (R82). -/
theorem checkStarted_live {s : State} {r : GrantRecord} (hs : s.htr.Sound) {z : Fin 8} (h : BeginsCheck s r z)
    (hu : 500 ≤ s.iso.uBus) :
    (checkStarted s r).check = some ⟨z, ratingUsed s r z * 100 / s.iso.uBus, false, none, false, false⟩
      ∧ (checkStarted s r).turn = (heated s r).turn ∧ (checkStarted s r).slot = (heated s r).slot
      ∧ (checkStarted s r).energized = (heated s r).energized
      ∧ ∀ w : Fin 8, (checkStarted s r).zones[w] =
        if z = w then { (heated s r).zones[w] with state := .checking } else (heated s r).zones[w] := by
  have hlive : (heated s r).beginCheck z s.iso.uBus = { (heated s r).enter z .checking with
      check := some ⟨z, expectedCurrent (heated s r).zones[z].rating s.iso.uBus, false, none, false, false⟩ } :=
    if_neg (show ¬ s.iso.uBus < Config.energizedAt from Nat.not_lt.2 hu)
  have hrating : (heated s r).zones[z].rating = ratingUsed s r z := by rw [heated_zone r hs]
  rw [checkStarted_begins hs h, hlive, hrating]
  exact ⟨rfl, rfl, rfl, rfl, fun w => enter_zone _ z w _⟩

/-- A check on a dead bus is aborted before any pulse (R82). -/
theorem checkStarted_dead {s : State} {r : GrantRecord} (hs : s.htr.Sound) {z : Fin 8} (h : BeginsCheck s r z)
    (hu : s.iso.uBus < 500) : checkStarted s r = { heated s r with slotTimer := .stopped, boundaryDue := true } := by
  rw [checkStarted_begins hs h]
  exact if_pos hu

/-- Where no check begins on an energized bus, only the slot may move. -/
theorem checkStarted_idle {s : State} {r : GrantRecord} (hs : s.htr.Sound) (h : ∀ z, BeginsCheck s r z → s.iso.uBus < 500) :
    (checkStarted s r).check = (heated s r).check ∧ (checkStarted s r).turn = (heated s r).turn
      ∧ (checkStarted s r).energized = (heated s r).energized ∧ (checkStarted s r).zones = (heated s r).zones := by
  by_cases hb : ∃ z, BeginsCheck s r z
  · obtain ⟨z, hz⟩ := hb
    rw [checkStarted_dead hs hz (h z hz)]
    exact ⟨rfl, rfl, rfl, rfl⟩
  · rw [checkStarted_none hs (not_exists.1 hb)]
    exact ⟨rfl, rfl, rfl, rfl⟩

/-- The zones before the steps of a boundary. -/
theorem checkStarted_zone {s : State} (r : GrantRecord) (hs : s.htr.Sound) (w : Fin 8) :
    (BeginsCheck s r w ∧ 500 ≤ s.iso.uBus →
        (checkStarted s r).zones[w] = { s.htr.zones[w] with state := .checking, rating := ratingUsed s r w })
      ∧ (¬ (BeginsCheck s r w ∧ 500 ≤ s.iso.uBus) →
        (checkStarted s r).zones[w] = { s.htr.zones[w] with state := heatedState s r w, rating := ratingUsed s r w }) := by
  refine ⟨fun ⟨hb, hu⟩ => ?_, fun hno => ?_⟩
  · obtain ⟨-, -, -, -, hzone⟩ := checkStarted_live hs hb hu
    rw [hzone, if_pos rfl, heated_zone r hs]
  · rw [← heated_zone r hs]
    by_cases hb : ∃ z, BeginsCheck s r z ∧ 500 ≤ s.iso.uBus
    · obtain ⟨z, hz, hu⟩ := hb
      obtain ⟨-, -, -, -, hzone⟩ := checkStarted_live hs hz hu
      rw [hzone, if_neg]
      rintro rfl
      exact hno ⟨hz, hu⟩
    · obtain ⟨-, -, -, hzones⟩ := checkStarted_idle hs fun z hz => Nat.lt_of_not_le fun hu => hb ⟨z, hz, hu⟩
      rw [hzones]

/-- The slot before the steps of a boundary (R82, R84). -/
theorem checkStarted_slot {s : State} (r : GrantRecord) (hs : s.htr.Sound) :
    ((∃ z, (s.zone z).state = .checking ∧ ¬ Kept s r z) ∨ (∃ z, BeginsCheck s r z ∧ s.iso.uBus < 500) →
        (checkStarted s r).slot = (.stopped, true))
      ∧ ((∀ z, (s.zone z).state = .checking → Kept s r z) → (∀ z, BeginsCheck s r z → 500 ≤ s.iso.uBus) →
        (checkStarted s r).slot = s.htr.slot) := by
  obtain ⟨-, hyes, hno⟩ := heated_same r hs
  have hlive (h : ∀ z, BeginsCheck s r z → 500 ≤ s.iso.uBus) : (checkStarted s r).slot = (heated s r).slot := by
    by_cases hb : ∃ z, BeginsCheck s r z
    · obtain ⟨z, hz⟩ := hb
      exact (checkStarted_live hs hz (h z hz)).2.2.1
    · rw [checkStarted_none hs (not_exists.1 hb)]
  refine ⟨fun h => ?_, fun hk hu => ?_⟩
  · by_cases hd : ∃ z, BeginsCheck s r z ∧ s.iso.uBus < 500
    · obtain ⟨z, hz, hu⟩ := hd
      rw [checkStarted_dead hs hz hu]
      rfl
    · rw [hlive fun z hz => Nat.le_of_not_lt fun hu => hd ⟨z, hz, hu⟩]
      exact (hyes ((checkAborted_iff s r).2 (h.resolve_right hd))).2
  · rw [hlive hu]
    refine (hno fun hab => ?_).2
    obtain ⟨z, hz, hnk⟩ := (checkAborted_iff s r).1 hab
    exact hnk (hk z hz)

/-! ## The steps of a boundary (R91, R92) -/

theorem adoptTurn_registers (r : GrantRecord) (h : Htr) :
    (adoptTurn r h).check = h.check ∧ (adoptTurn r h).mode = h.mode ∧ (adoptTurn r h).pendingMode = h.pendingMode := by
  unfold adoptTurn
  (repeat' split) <;> exact ⟨rfl, rfl, rfl⟩

theorem boundarySteps_check (b : Htr) (r : GrantRecord) (h : Htr) : (boundarySteps b r h).check = h.check := by
  unfold boundarySteps
  split
  · exact (adoptTurn_registers r _).1
  · rfl

theorem boundarySteps_slot (b : Htr) (r : GrantRecord) (h : Htr) :
    (r.boundary = true → (boundarySteps b r h).slotTimer = .running 2000 ∧ (boundarySteps b r h).boundaryDue = false)
      ∧ (r.boundary = false → (boundarySteps b r h).slot = h.slot) := by
  unfold boundarySteps
  cases r.boundary
  · exact ⟨(fun h => nomatch h), fun _ => rfl⟩
  · exact ⟨fun _ => ⟨rfl, rfl⟩, (fun h => nomatch h)⟩

/-- The turn after a record (R86, R91). -/
theorem boundarySteps_turn (b : Htr) (r : GrantRecord) (h : Htr) :
    if r.boundary = true ∧ r.moves = true then
      if r.round = true ∧ h.mode.sweep = true then
        (boundarySteps b r h).p = 0 ∧ (boundarySteps b r h).s.val = (h.s.val + h.mode.burst.len) % 8
      else (boundarySteps b r h).p.val = r.p.val % h.mode.burst.len ∧ (boundarySteps b r h).s = h.s
    else (boundarySteps b r h).p = h.p ∧ (boundarySteps b r h).s = h.s := by
  obtain ⟨hpos, hle⟩ := burstLen_bounds h
  have hp : r.p.val % burstLen h % 8 = r.p.val % burstLen h :=
    Nat.mod_eq_of_lt (Nat.lt_of_lt_of_le (Nat.mod_lt _ hpos) hle)
  unfold boundarySteps adoptTurn
  cases r.boundary with
  | false => exact ⟨rfl, rfl⟩
  | true =>
    cases r.moves with
    | false => exact ⟨rfl, rfl⟩
    | true =>
      rw [if_pos ⟨rfl, rfl⟩]
      by_cases hsweep : r.round = true ∧ h.mode.sweep = true
      · rw [if_pos hsweep]
        dsimp only
        rw [if_pos rfl, if_pos rfl, if_pos (by simpa using hsweep)]
        exact ⟨rfl, rfl⟩
      · rw [if_neg hsweep]
        dsimp only
        rw [if_pos rfl, if_pos rfl, if_neg (by simpa using hsweep)]
        exact ⟨hp, rfl⟩

/-! ## The zones after the record -/

theorem countDown_same (b n : Zone) : (countDown b n).temp = n.temp ∧ (countDown b n).want = n.want := by
  unfold countDown
  (repeat' split) <;> exact ⟨rfl, rfl⟩

theorem countDown_of_ne {b : Zone} (hb : ∀ n, b.state ≠ .dwell n) (now : Zone) : countDown b now = now := by
  unfold countDown
  split
  · next hd _ => exact absurd hd (hb _)
  · rfl

theorem countDown_dwell {b now : Zone} {n m : Nat} (hb : b.state = .dwell n) (hn : now.state = .dwell m) :
    (countDown b now).state = if m ≤ 1 then .off else .dwell (m - 1) := by
  simp only [countDown, hb, hn]
  split <;> rfl

theorem appliedHeater_zone (s : State) (r : GrantRecord) (z : Fin 8) : (appliedHeater s r).zones[z] =
    if r.boundary then countDown s.htr.zones[z] (checkStarted s r).zones[z] else (checkStarted s r).zones[z] := by
  rw [appliedHeater_eq]
  exact boundarySteps_zone s.htr r (checkStarted s r) z

/-- A boundary counts down no zone but one in DWELL (R92). -/
theorem appliedHeater_uncounted {s : State} (r : GrantRecord) {z : Fin 8} (hd : ∀ n, (s.zone z).state ≠ .dwell n) :
    (appliedHeater s r).zones[z] = (checkStarted s r).zones[z] := by
  have hsame : countDown s.htr.zones[z] (checkStarted s r).zones[z] = (checkStarted s r).zones[z] := countDown_of_ne hd _
  rw [appliedHeater_zone, hsame, ite_self]

theorem appliedHeater_readings {s : State} (r : GrantRecord) (hs : s.htr.Sound) (z : Fin 8) :
    (appliedHeater s r).zones[z].temp = (s.zone z).temp ∧ (appliedHeater s r).zones[z].want = (s.zone z).want := by
  have hstarted : (checkStarted s r).zones[z].temp = (s.zone z).temp ∧ (checkStarted s r).zones[z].want = (s.zone z).want := by
    obtain ⟨hyes, hno⟩ := checkStarted_zone r hs z
    by_cases hb : BeginsCheck s r z ∧ 500 ≤ s.iso.uBus
    · rw [hyes hb]; exact ⟨rfl, rfl⟩
    · rw [hno hb]; exact ⟨rfl, rfl⟩
  rw [appliedHeater_zone]
  split
  · rw [(countDown_same _ _).1, (countDown_same _ _).2]
    exact hstarted
  · exact hstarted

section
variable {s : State} {r : GrantRecord} {z : Fin 8} (hs : s.htr.Sound)
include hs

theorem checkStarted_state (hno : ¬ (BeginsCheck s r z ∧ 500 ≤ s.iso.uBus)) :
    (checkStarted s r).zones[z].state = heatedState s r z := by
  rw [(checkStarted_zone r hs z).2 hno]

/-- A zone that is not in DWELL, and whose check does not begin. -/
theorem appliedHeater_state (hd : ∀ n, (s.zone z).state ≠ .dwell n) (hno : ¬ (BeginsCheck s r z ∧ 500 ≤ s.iso.uBus)) :
    (appliedHeater s r).zones[z].state = heatedState s r z := by
  rw [appliedHeater_uncounted r hd, checkStarted_state hs hno]

/-- A zone whose check begins (R82). -/
theorem appliedHeater_begins (hb : BeginsCheck s r z) (hu : 500 ≤ s.iso.uBus) (hd : ∀ n, (s.zone z).state ≠ .dwell n) :
    (appliedHeater s r).zones[z].state = .checking ∧ (appliedHeater s r).check
      = some ⟨z, ratingUsed s r z * 100 / s.iso.uBus, false, none, false, false⟩ := by
  refine ⟨?_, ?_⟩
  · rw [appliedHeater_uncounted r hd, (checkStarted_zone r hs z).1 ⟨hb, hu⟩]
  · exact (boundarySteps_check s.htr r (checkStarted s r)).trans (checkStarted_live hs hb hu).1

end

/-- The zones that a check may begin in (R81): UNCHECKED ones, and one whose check the record aborts. -/
theorem heatedState_unchecked (s : State) (r : GrantRecord) (z : Fin 8) : heatedState s r z = .unchecked ↔
    (s.zone z).state = .unchecked ∨ (s.zone z).state = .checking ∧ ¬ Kept s r z := by
  have hkept := keeps_rated s r z
  unfold heatedState
  cases hst : (s.zone z).state with
  | energized =>
    have hrest : restingState s.htr.mode.dwell ≠ .unchecked := by unfold restingState; split <;> simp
    simp only [reduceCtorEq, false_and, or_self, iff_false]
    split
    · decide
    · exact hrest
  | off => simp only [reduceCtorEq, false_and, or_self, iff_false]; split <;> decide
  | checking =>
    simp only [reduceCtorEq, false_or, true_and, ← hkept]
    split <;> simp_all
  | _ => simp

theorem BeginsCheck.before {s : State} {r : GrantRecord} {z : Fin 8} (h : BeginsCheck s r z) : (s.zone z).state = .unchecked := by
  obtain ⟨hst, hk, -, -, hfree⟩ := h
  exact ((heatedState_unchecked s r z).1 hst).resolve_right fun hc => hc.2 hk

section
variable {s : State} (r : GrantRecord) {z : Fin 8} (hs : s.htr.Sound)
include hs

/-- A zone that was neither UNCHECKED nor in DWELL (R84, R91). -/
theorem appliedHeater_settled (hu : (s.zone z).state ≠ .unchecked) (hd : ∀ n, (s.zone z).state ≠ .dwell n) :
    (appliedHeater s r).zones[z].state = heatedState s r z :=
  appliedHeater_state hs hd fun h => hu h.1.before

/-- A zone in DWELL (R92). -/
theorem appliedHeater_dwell {n : Nat} (hd : (s.zone z).state = .dwell n) : (appliedHeater s r).zones[z].state =
    if r.boundary = true then (if n ≤ 1 then .off else .dwell (n - 1)) else .dwell n := by
  have hstate : (checkStarted s r).zones[z].state = .dwell n := by
    have hheated : heatedState s r z = .dwell n := by simp only [heatedState, hd]
    rw [← hheated]
    refine checkStarted_state hs fun h => ?_
    have hbefore := h.1.before
    rw [hd] at hbefore
    exact nomatch hbefore
  rw [appliedHeater_zone]
  cases r.boundary with
  | false => exact hstate
  | true => exact countDown_dwell hd hstate

/-- An ENERGIZED zone (R91). -/
theorem appliedHeater_energizedState (he : (s.zone z).state = .energized) : (appliedHeater s r).zones[z].state =
    if inSet (appliedSet s r) z = true then .energized else restingState s.htr.mode.dwell := by
  rw [appliedHeater_settled r hs (by rw [he]; decide) (by rw [he]; simp)]
  simp only [heatedState, he]

/-- A zone in OFF (R91). -/
theorem appliedHeater_off (ho : (s.zone z).state = .off) : (appliedHeater s r).zones[z].state =
    if r.boundary = true ∧ inSet (appliedSet s r) z = true ∧ (s.zone z).temp.isSome = true then .energized else .off := by
  rw [appliedHeater_settled r hs (by rw [ho]; decide) (by rw [ho]; simp)]
  simp only [heatedState, ho, Bool.and_eq_true, and_assoc]

/-- A zone whose check is under way (R84, R91). -/
theorem appliedHeater_checking (hc : (s.zone z).state = .checking) :
    (Kept s r z → (appliedHeater s r).zones[z].state = .checking ∧ (appliedHeater s r).check = s.htr.check)
      ∧ (¬ Kept s r z → (appliedHeater s r).zones[z].state = .unchecked) := by
  rw [appliedHeater_settled r hs (by rw [hc]; decide) (by rw [hc]; simp)]
  simp only [heatedState, hc]
  refine ⟨fun hk => ⟨if_pos ((keeps_rated s r z).2 hk), ?_⟩, fun hk => if_neg fun h => hk ((keeps_rated s r z).1 h)⟩
  have hidle := (checkStarted_idle hs fun y (hy : BeginsCheck s r y) => by
    obtain ⟨-, -, -, -, hfree⟩ := hy
    exact absurd hk (hfree z hc)).1
  have hkeep : ¬ CheckAborted (appliedSet s r) (rated s r) := fun hab => by
    obtain ⟨y, hy, hnk⟩ := (checkAborted_iff s r).1 hab
    obtain ⟨ck, hck, rfl⟩ := (hs.1 z).1 hc
    obtain ⟨ck', hck', rfl⟩ := (hs.1 y).1 hy
    obtain rfl : ck = ck' := by simpa [hck] using hck'
    exact hnk hk
  calc (appliedHeater s r).check = (checkStarted s r).check := boundarySteps_check s.htr r (checkStarted s r)
    _ = (heated s r).check := hidle
    _ = s.htr.check := ((heated_same r hs).2.2 hkeep).1

/-- An UNCHECKED zone (R82). -/
theorem appliedHeater_unchecked (hu : (s.zone z).state = .unchecked) :
    (BeginsCheck s r z ∧ 500 ≤ s.iso.uBus → (appliedHeater s r).zones[z].state = .checking
        ∧ (appliedHeater s r).check = some ⟨z, ratingUsed s r z * 100 / s.iso.uBus, false, none, false, false⟩)
      ∧ (¬ (BeginsCheck s r z ∧ 500 ≤ s.iso.uBus) → (appliedHeater s r).zones[z].state = .unchecked) := by
  have hd (n : Nat) : (s.zone z).state ≠ .dwell n := by rw [hu]; simp
  refine ⟨fun ⟨hb, hlive⟩ => appliedHeater_begins hs hb hlive hd, fun hno => ?_⟩
  rw [appliedHeater_state hs hd hno]
  exact (heatedState_unchecked s r z).2 (.inl hu)

/-- A PROBED zone, and a FAULTED one. -/
theorem appliedHeater_other (hc : (∃ b, (s.zone z).state = .probed b) ∨ ∃ k, (s.zone z).state = .faulted k) :
    (appliedHeater s r).zones[z].state = (s.zone z).state := by
  obtain ⟨b, hst⟩ | ⟨k, hst⟩ := hc <;> rw [appliedHeater_settled r hs (by rw [hst]; simp) (by rw [hst]; simp)] <;>
    simp only [heatedState, hst]

/-- The switches of one zone over a record (R76, R91). -/
theorem appliedHeater_switches : switches s.htr z ≠ switches (appliedHeater s r) z ↔
    (s.zone z).state = .energized ∧ inSet (appliedSet s r) z = false
      ∨ (r.boundary = true ∧ inSet (appliedSet s r) z = true ∧ (s.zone z).state = .off ∧ (s.zone z).temp.isSome = true)
      ∨ ∃ ck, s.htr.check = some ck ∧ ck.zone = z ∧ ck.pulseOn = true ∧ ¬ Kept s r z := by
  have hopen {h : Htr} {st : ZoneState} (hst : h.zones[z].state = st) (ho : st.isOpen = true) : switches h z = (false, false) :=
    switches_open (by rw [hst]; exact ho)
  have hnocheck (hc : (s.zone z).state ≠ .checking) :
      ¬ ∃ ck, s.htr.check = some ck ∧ ck.zone = z ∧ ck.pulseOn = true ∧ ¬ Kept s r z :=
    fun ⟨ck, hck, hz, _⟩ => hc ((hs.1 z).2 ⟨ck, hck, hz⟩)
  cases hst : (s.zone z).state with
  | energized =>
    have hno := hnocheck (by rw [hst]; decide)
    have hstate := appliedHeater_energizedState r hs hst
    rw [switches_energized hst]
    cases hin : inSet (appliedSet s r) z with
    | false =>
      rw [hin, if_neg (by decide)] at hstate
      rw [hopen hstate (restingState_isOpen _)]
      simp
    | true =>
      rw [hin, if_pos rfl] at hstate
      rw [switches_energized hstate]
      simp only [hno]
      simp
  | off =>
    have hno := hnocheck (by rw [hst]; decide)
    have hstate := appliedHeater_off r hs hst
    rw [hopen hst rfl]
    by_cases hjoin : r.boundary = true ∧ inSet (appliedSet s r) z = true ∧ (s.zone z).temp.isSome = true
    · rw [if_pos hjoin] at hstate
      rw [switches_energized hstate]
      simp [hjoin]
    · rw [if_neg hjoin] at hstate
      rw [hopen hstate rfl]
      simp only [hno]
      simpa using hjoin
  | checking =>
    obtain ⟨ck, hck, hz⟩ := (hs.1 z).1 hst
    obtain ⟨hkept, haborted⟩ := appliedHeater_checking r hs hst
    have hbefore : switches s.htr z = (ck.pulseOn, ck.pulseOn) := by rw [switches_checking hst hck, if_pos hz]
    by_cases hk : Kept s r z
    · obtain ⟨hstays, hcheck⟩ := hkept hk
      rw [switches_congr (hst.trans hstays.symm) hcheck.symm]
      simp [hk]
    · rw [hopen (haborted hk) rfl, hbefore]
      simp [hk, hck, hz]
  | unchecked =>
    obtain ⟨hyes, hstays⟩ := appliedHeater_unchecked r hs hst
    have hafter : switches (appliedHeater s r) z = (false, false) := by
      by_cases hb : BeginsCheck s r z ∧ 500 ≤ s.iso.uBus
      · obtain ⟨hchecking, hcheck⟩ := hyes hb
        rw [switches_checking hchecking hcheck, if_pos rfl]
      · exact hopen (hstays hb) rfl
    rw [hopen hst rfl, hafter]
    simp [hnocheck (by rw [hst]; simp)]
  | dwell n =>
    have hafter : switches (appliedHeater s r) z = (false, false) := by
      refine hopen (appliedHeater_dwell r hs hst) ?_
      (repeat' split) <;> rfl
    rw [hopen hst rfl, hafter]
    simp [hnocheck (by rw [hst]; simp)]
  | probed b =>
    rw [switches_probed hst, switches_probed ((appliedHeater_other r hs (.inl ⟨b, hst⟩)).trans hst)]
    simp [hnocheck (by rw [hst]; simp)]
  | faulted k =>
    rw [hopen hst rfl, hopen ((appliedHeater_other r hs (.inr ⟨k, hst⟩)).trans hst) rfl]
    simp [hnocheck (by rw [hst]; simp)]

end

/-! ## The registers after the record -/

section
variable {s : State} (r : GrantRecord) (hs : s.htr.Sound)
include hs

theorem appliedHeater_energizedList (hn : ((appliedSet s r).map Prod.fst).Nodup) : (appliedHeater s r).energized =
    s.htr.energized.filter (inSet (appliedSet s r)) ++ ((appliedSet s r).map Prod.fst).filter fun z =>
      r.boundary && (s.zone z).state == .off && (s.zone z).temp.isSome :=
  calc (appliedHeater s r).energized = (checkStarted s r).energized := boundarySteps_energized s.htr r (checkStarted s r)
    _ = (heated s r).energized := (startCheck_spec _ _ _).1
    _ = _ := heated_energized r hs hn

theorem checkStarted_turn : (checkStarted s r).turn = s.htr.turn := by
  obtain ⟨hturn, -, -⟩ := heated_same r hs
  by_cases hb : ∃ z, BeginsCheck s r z ∧ 500 ≤ s.iso.uBus
  · obtain ⟨z, hz, hu⟩ := hb
    obtain ⟨-, hlive, -⟩ := checkStarted_live hs hz hu
    exact hlive.trans hturn
  · obtain ⟨-, hidle, -⟩ := checkStarted_idle hs fun z hz => Nat.lt_of_not_le fun hu => hb ⟨z, hz, hu⟩
    exact hidle.trans hturn

/-- The turn after a record (R86, R91). -/
theorem appliedHeater_turn :
    if r.boundary = true ∧ r.moves = true then
      if r.round = true ∧ s.htr.mode.sweep = true then
        (appliedHeater s r).p = 0 ∧ (appliedHeater s r).s.val = (s.htr.s.val + s.htr.mode.burst.len) % 8
      else (appliedHeater s r).p.val = r.p.val % s.htr.mode.burst.len ∧ (appliedHeater s r).s = s.htr.s
    else (appliedHeater s r).p = s.htr.p ∧ (appliedHeater s r).s = s.htr.s := by
  have hturn := checkStarted_turn r hs
  simp only [Htr.turn, Prod.mk.injEq] at hturn
  obtain ⟨hmode, -, hp, hstart⟩ := hturn
  have h := boundarySteps_turn s.htr r (checkStarted s r)
  rwa [hmode, hp, hstart] at h

/-- The slot after a record between two boundaries (R82, R84). -/
theorem appliedHeater_slot (hb : r.boundary = false) :
    ((∃ z, (s.zone z).state = .checking ∧ ¬ Kept s r z) ∨ (∃ z, BeginsCheck s r z ∧ s.iso.uBus < 500) →
        (appliedHeater s r).slotTimer = .stopped ∧ (appliedHeater s r).boundaryDue = true)
      ∧ ((∀ z, (s.zone z).state = .checking → Kept s r z) → (∀ z, BeginsCheck s r z → 500 ≤ s.iso.uBus) →
        (appliedHeater s r).slotTimer = s.htr.slotTimer ∧ (appliedHeater s r).boundaryDue = s.htr.boundaryDue) := by
  obtain ⟨hstop, hstay⟩ := checkStarted_slot r hs
  have hslot : (appliedHeater s r).slot = (checkStarted s r).slot := (boundarySteps_slot s.htr r (checkStarted s r)).2 hb
  exact ⟨fun h => Prod.mk.inj (hslot.trans (hstop h)), fun hk hu => Prod.mk.inj (hslot.trans (hstay hk hu))⟩

end

theorem appliedHeater_boundary (s : State) {r : GrantRecord} (hb : r.boundary = true) :
    (appliedHeater s r).slotTimer = .running 2000 ∧ (appliedHeater s r).boundaryDue = false :=
  (boundarySteps_slot s.htr r (checkStarted s r)).1 hb

theorem appliedHeater_pending (s : State) (r : GrantRecord) : (appliedHeater s r).pendingMode = s.htr.pendingMode :=
  congrArg (fun x => x.2.1) (appliedHeater_rest s r)

/-! ## What follows a record -/

/-- With no mode pending, what follows a change of the heater leaves the turn (R95). -/
theorem heaterChanged_turn (before : Htr) {s : State} (hp : s.htr.pendingMode = none) :
    (heaterChanged before s).htr.p = s.htr.p ∧ (heaterChanged before s).htr.s = s.htr.s := by
  have hpending : (reportSwitches before s).htr.pendingMode = none := by simpa using hp
  have hsame : applyPending (reportSwitches before s) = reportSwitches before s := by
    unfold applyPending
    rw [hpending]
  have hdemand : (heaterChanged before s).htr = (applyPending (reportSwitches before s)).htr := by simp [heaterChanged]
  rw [hdemand, hsame]
  exact ⟨by simp, by simp⟩

/-- The heater with its oldest record taken from the inbox (R55). -/
def recordTaken (s : State) (rest : List GrantRecord) : State := s.setHtr { s.htr with inbox := rest }

theorem applyNext_cons {s : State} {r : GrantRecord} {rest : List GrantRecord} (h : s.htr.inbox = r :: rest) :
    applyNext s = applyRecord r (recordTaken s rest) := by
  unfold applyNext
  rw [h]
  rfl

theorem applyRecord_zone (r : GrantRecord) (s : State) (z : Fin 8) : (applyRecord r s).zone z = (appliedHeater s r).zones[z] :=
  heaterChanged_zone _ _ z

theorem applyRecord_registers (r : GrantRecord) (s : State) :
    (applyRecord r s).htr.inbox = s.htr.inbox ∧ (applyRecord r s).htr.applied = r
      ∧ (applyRecord r s).htr.energized = (appliedHeater s r).energized
      ∧ (applyRecord r s).htr.slotTimer = (appliedHeater s r).slotTimer
      ∧ (applyRecord r s).htr.boundaryDue = (appliedHeater s r).boundaryDue := by
  refine ⟨?_, ?_, ?_, ?_, ?_⟩ <;> simp [applyRecord, appliedHeater_inbox]
  rfl

/-- The switch changes of a record make one report (R76, R109). -/
theorem applyRecord_reported (r : GrantRecord) {s : State} (hs : s.htr.Sound) :
    SwitchesReported ((∃ z, (s.zone z).state = .energized ∧ inSet (appliedSet s r) z = false)
      ∨ (r.boundary = true ∧ ∃ z, inSet (appliedSet s r) z = true ∧ (s.zone z).state = .off ∧ (s.zone z).temp.isSome = true)
      ∨ ∃ ck, s.htr.check = some ck ∧ ck.pulseOn = true ∧ ¬ Kept s r ck.zone) s (applyRecord r s) := by
  refine (heaterChanged_reported s.htr (s.setHtr (appliedHeater s r))).congr ?_ rfl rfl rfl rfl rfl
  rw [switchMap_ne_iff, State.setHtr_htr]
  simp only [appliedHeater_switches r hs, exists_or, exists_and_left]
  refine or_congr_right (or_congr_right ⟨fun ⟨z, ck, hck, hz, hpulse, hk⟩ => ?_, fun ⟨ck, hck, hpulse, hk⟩ =>
    ⟨ck.zone, ck, hck, rfl, hpulse, hk⟩⟩)
  subst hz
  exact ⟨ck, hck, hpulse, hk⟩

/-- Settles O33: each zone by the steps of R91, the registers, and one report of the switches. -/
theorem grantRecordApplied : Obligations.GrantRecordApplied := by
  unfold Obligations.GrantRecordApplied
  intro s hp hs
  refine ⟨fun hnone => ?_, fun r rest hinbox => ?_⟩
  · have hidle : applyNext s = s := by
      unfold applyNext
      rw [hnone]
    rw [exec]
    exact live_becomes hp hidle
  · intro set
    have hset : set = appliedSet s r := if_congr (insulationOk_iff s).symm rfl rfl
    clear_value set
    subst hset
    intro ratingInUse kept unchecked begins
    have hbegins (z : Fin 8) : begins z ↔ BeginsCheck s r z := by
      simp only [BeginsCheck, heatedState_unchecked]
      exact .rfl
    have hcons : applyRecord r (recordTaken s rest) = applyNext s := (applyNext_cons hinbox).symm
    have hu : (recordTaken s rest).htr.Sound := hs
    obtain ⟨rinbox, rapplied, renergized, rslot, rdue⟩ := applyRecord_registers r (recordTaken s rest)
    refine ⟨applyRecord r (recordTaken s rest), by rw [exec]; exact live_becomes hp hcons.symm, rinbox, rapplied, fun z => ?_,
      fun hn => ?_, (applyRecord_reported r hu).congr .rfl rfl rfl rfl rfl rfl, fun hb => ?_, fun hb => ?_, fun hnone => ?_, ?_⟩
    · obtain ⟨htemp, hwant⟩ := appliedHeater_readings r hu z
      rw [applyRecord_zone]
      refine ⟨appliedHeater_rating _ r z, htemp, hwant, ?_⟩
      cases hst : (s.zone z).state with
      | energized => exact appliedHeater_energizedState r hu hst
      | off => exact appliedHeater_off r hu hst
      | dwell n => exact appliedHeater_dwell r hu hst
      | checking =>
        obtain ⟨hkept, haborted⟩ := appliedHeater_checking r hu hst
        exact ⟨fun hk => (hkept hk).1, haborted⟩
      | unchecked =>
        obtain ⟨hyes, hno⟩ := appliedHeater_unchecked r hu hst
        rw [hbegins]
        refine ⟨fun hb => ⟨(hyes hb).1, ?_⟩, hno⟩
        have hcheck : (appliedHeater (recordTaken s rest) r).check
          = some ⟨z, ratingInUse z * 100 / s.iso.uBus, false, none, false, false⟩ := (hyes hb).2
        refine (heaterChanged_checkRecord _ (.inr fun ck hck => ?_)).trans hcheck
        obtain rfl := Option.some.inj (hcheck.symm.trans hck)
        rfl
      | probed b => exact (appliedHeater_other r hu (.inl ⟨b, hst⟩)).trans hst
      | faulted k => exact (appliedHeater_other r hu (.inr ⟨k, hst⟩)).trans hst
    · exact renergized.trans (appliedHeater_energizedList r hu hn)
    · rw [rslot, rdue]
      exact appliedHeater_boundary _ hb
    · rw [rslot, rdue]
      obtain ⟨hstop, hstay⟩ := appliedHeater_slot r hu hb
      simp only [hbegins]
      exact ⟨hstop, hstay⟩
    · obtain ⟨hpos, hstart⟩ := heaterChanged_turn (recordTaken s rest).htr
        (s := (recordTaken s rest).setHtr (appliedHeater (recordTaken s rest) r)) ((appliedHeater_pending _ r).trans hnone)
      rw [applyRecord, hpos, hstart]
      exact appliedHeater_turn r hu
    · rw [hcons]
      exact ⟨by simp, by simp, by simp, by simp, by simp, by simp, by simp, by simp, by simp, (applyNext_grows s).portsKept,
        by simp [RestKept]⟩

end Sys2Proof.Machine
end
